-- ==== Sys2Proof/Word.lean ====
section
/-! DEFINITION. The word types of the AW1 (spec 00, R5): bits are numbered from the least significant, memory is
byte-addressed and little-endian. A sparse table `Tab` is a list of (key, value) pairs with strictly rising keys. -/

namespace Sys2Proof

/-- A general register of a thread (R138). -/
abbrev Word := BitVec 64
/-- A sequencer word, an FP32 pattern, a PE register. -/
abbrev Word32 := BitVec 32
/-- One byte of a memory. -/
abbrev Byte := BitVec 8
/-- A sparse table keyed by number, keys strictly rising. -/
abbrev Tab (α : Type) := List (Nat × α)
/-- The bytes of one memory that differ from 0, addresses strictly rising. -/
abbrev Mem := List Host.Cell

/-- `i` as the low 64 bits of an integer (R12 `wrap`). -/
abbrev Word.ofInt (i : Int) : Word := BitVec.ofInt 64 i

end Sys2Proof
end

