-- ==== Sys2Proof/Payload.lean ====
section
/-! DEFINITION. The data that instructions and events carry: register fields, packet sources, accesses on their way to
a home slice, flits, management operands, and a pricking image with its sections decoded (log 5). -/

namespace Sys2Proof

/-- A general register field and a predicate field (R138). -/
abbrev GReg := BitVec 5
abbrev PReg := BitVec 3

/-- The latches of a PE (R27, Table 06-11). -/
inductive Port where
  | n | e | s | w | v | m
  deriving DecidableEq, Repr

/-- Where a packet came from (R331, R333): the host, a thread at a privilege, the module controller. -/
inductive PacketSource where
  | host
  | thread (tile thread : Nat) (pl : BitVec 2)
  | controller
  deriving DecidableEq, Repr

/-- What a global access does to its line (R98, R200 to R205, R231 to R234). Offsets are within the line. -/
inductive GlobalAct where
  | load (off size : Nat) (rd : GReg)
  | store (off size : Nat) (data : Word)
  | atom (off : Nat) (o : BitVec 4) (w : BitVec 1) (operand : Word) (rd : GReg)
  | cas (off : Nat) (w : BitVec 1) (expected new : Word) (rd : GReg)
  | red (off : Nat) (o : BitVec 4) (w : BitVec 1) (operand : Word) (vc seq : Nat)
  | lineLoad (dst cnum : Nat)
  | lineStore (bytes : List Byte) (cnum : Nat)
  | halo (dim : Nat) (high full : Bool) (dst off vc : Nat)
  | fill
  /-- The write-back of one line that LTWB starts behind earlier accesses of its thread (R98, R236). -/
  | clean
  deriving DecidableEq, Repr

/-- A global access on its way to its home slice (R87). -/
structure GlobalReq where
  pid : Nat
  tag : BitVec 60
  tile : Nat
  thread : Nat
  act : GlobalAct
  deriving DecidableEq, Repr

/-- What a mesh flit carries (Table 05-5 TYPE). -/
inductive MeshBody where
  | message (q1 : Bool) (data : Word)
  | write (off : Nat) (data : Word) (kind : BitVec 2)
  | bytes (off : Nat) (data : List Byte) (full : Bool)
  | reduction (off : Nat) (o : BitVec 4) (operand : Word32)
  | tree (op : BitVec 4) (rid : Nat) (payload : BitVec 1024)
  | exponent (rid : Nat) (payload : BitVec 1024)
  | token (arc : Nat) (data : BitVec 1024)
  /-- 32 words of a collective copy, by call, path, the rank they come from and their place (R128). -/
  | piece (node call path rank index : Nat) (data : BitVec 1024)
  | reply (data : Word)
  | drain (channel : Nat)
  | picot
  | malformed (typ op : BitVec 4) (rid : BitVec 12)
  deriving DecidableEq, Repr

/-- A mesh flit (Table 05-5): absolute DST and SRC, VC, SEQ within the triple. -/
structure MeshFlit where
  dst : Nat
  src : Nat
  vc : Nat
  seq : Nat
  /-- Who waits for its delivery: thread t as t for a message, as 40 + t for a SENDP and as 32 + t for a halo strip, 8 + a stream context, 24 the copy channel, 254 nobody, on the way down a
  couching tree, 255 nobody. -/
  owner : Nat
  body : MeshBody
  deriving DecidableEq, Repr

/-- What SECDED finds in a mesh flit: nothing, single-bit errors that it corrects, or an uncorrectable word (R123). -/
inductive Secded where
  | clean | corrected | uncorrectable
  deriving DecidableEq, Repr

/-- A Zwilu flit (Table 05-2): the fields software and the bobbin read; `payload` holds its LEN valid bytes. -/
structure ZwiluFlit where
  group : Nat
  vc : Nat
  seq : Nat
  last : Bool
  resend : Bool
  blk : Nat
  off : Nat
  payload : List Byte
  deriving DecidableEq, Repr

/-- Bits of a Zwilu flit that light changes on its way to a tile: on a wavelength of its group and in a slot of its run, of the 40
bytes carried there (R112). -/
structure LightError where
  wavelength : Nat
  slot : Nat
  byte : Nat
  bits : Byte
  deriving DecidableEq, Repr

/-- An eyelet flit (Table 18-2): class, tag, SEQ and payload. -/
structure EyeletFlit where
  cls : BitVec 3
  tag : BitVec 5
  seq : BitVec 24
  payload : BitVec 256
  deriving DecidableEq, Repr

/-- A direction of an eyelet (R384). -/
inductive Direction where
  | tx | rx
  deriving DecidableEq, Repr

/-- A lane change notice (R394, R395): the new lane mask, the lane the spare carries, the SEQ from which sending resumes
where the notice answers a loss of light, and the resume slot Z. -/
structure LaneChange where
  mask : BitVec 16
  spareFor : Option Nat
  seq : Option Nat
  z : Nat
  deriving DecidableEq, Repr

/-- The registers written under their access codes alone (REGISTER_WRITE, R7). -/
inductive PlainReg where
  | fflags (tile thread : Nat)
  | tcause (tile thread : Nat)
  | tepc (tile thread : Nat)
  | tval (tile thread : Nat)
  | tscr (tile thread : Nat)
  | shared (tile n : Nat)
  | readOnly (number : BitVec 10)
  | qcfg (pid q : Nat)
  | qstat (pid q : Nat)
  deriving DecidableEq, Repr

/-- The selector CSRs of Table 05-9. -/
inductive Selector where
  | csel | gsel | esel
  deriving DecidableEq, Repr

/-- What a GATE bit or a wake names (R407 to R409). -/
inductive GatedUnit where
  | bank (b : Nat)
  | way (w : Nat)
  | tile
  deriving DecidableEq, Repr

/-- The elements of a launch that take their own cut (R369). -/
inductive Element where
  | thread (tile t : Nat)
  | region (r : Nat)
  | matrix (tile : Nat)
  | stream (tile ctx : Nat)
  | dprog (ch : Nat)
  | transmitter (tx : Nat)
  | router (tile : Nat)
  deriving DecidableEq, Repr

/-- The configuration stores that the scrubber reads (R379). `rings` stands for the signature of a region's ring words. -/
inductive ConfigStore where
  | pe (pe : Nat)
  | chains (tile : Nat)
  | matrix (tile : Nat)
  | instructions (tile : Nat)
  | timetable (tx : Nat)
  | commands (ch : Nat)
  | edgeTable (pid : Nat)
  | parameters (tile : Nat)
  | channels (tile : Nat)
  | preds (tile : Nat)
  | lanes (ch : Nat)
  | groups (tx : Nat)
  | rings (region : Nat)
  deriving DecidableEq, Repr

/-- What a scrub pass finds: nothing, a word that the image or the second copy mends, a loss of both; or the end of a store's
rewriting (R379). -/
inductive Damage where
  | none
  | word (entry : Nat)
  | lost (entry : Nat)
  | rewritten (entry : Nat)
  deriving DecidableEq, Repr

/-- A word of a memory with SECDED or ECC (R380): of a tile's activation store, of an LLC line, of an operand buffer or an
accumulator tile, of a PE's scratch, or of a channel, by 8-byte word. -/
inductive FlawPlace where
  | store (tile word : Nat)
  | line (pid : Nat) (tag : BitVec 60)
  | buffer (tile n : Nat)
  | accumulator (tile n : Nat)
  | scratch (pe word : Nat)
  | hbm (ch word : Nat)
  deriving DecidableEq, Repr

/-- An error in a word: one that its code corrects, or one that it does not (R380). -/
structure Flaw where
  place : FlawPlace
  correctable : Bool
  deriving DecidableEq, Repr

/-- The moments of a background bus test window (R383). -/
inductive BusTestEvent where
  | start | beat | demand | finish (ok : Bool)
  deriving DecidableEq, Repr

/-- The firmware blocks of R416, in the order of measurements 1 to 5. -/
inductive FwBlock where
  | controller | launchUnit | sequencers | eyelets | tiles
  deriving DecidableEq, Repr

/-- EREG writes ECFG or reads ESTAT (Table 19-2). -/
inductive EregOp where
  | writeEcfg (value : Word)
  | readEstat (dir : Direction)
  deriving DecidableEq, Repr

/-- A partition record as PARTSET gives it (R325, Table 19-2). Channels are sequencer numbers. -/
structure PartRecord where
  pid : Nat
  x0 : Nat
  y0 : Nat
  w : Nat
  h : Nat
  channels : List Nat
  eyelets : List Nat
  snapi : Nat
  saveArea : Nat
  deriving DecidableEq, Repr

/-- What the bring-up steps find (R418): the steps that hang, that fail, and that fail in their alternative form; then what
the steps act on. -/
structure BringUpReport where
  hung : List Nat
  failed : List Nat
  failedAlternative : List Nat
  /-- Stacks whose own timing exceeds Table 09-7 (R240), and stacks that fail. -/
  slowStacks : List Nat
  badStacks : List Nat
  badFields : List Nat
  /-- Tiles that the repair map in force makes unavailable (R18), tiles that fail, and tiles whose router does not forward. -/
  repairTiles : List Nat
  badTiles : List Nat
  silentRouters : List Nat
  /-- The bytes of a new repair map record, where there is one. -/
  repairMap : Option (List Byte)
  badWaveguides : List Nat
  badEyelets : List Nat
  /-- Eyelet, the module it reaches, and its one-way delay in UI; the eyelets of the sync tree; the module's number. -/
  eyelets : List (Nat × Nat × Nat)
  /-- The shipped lane margin of each eyelet, ECFG.MTHR (Table 18-6). -/
  margins : List (Nat × Nat)
  /-- The partition defaults record: the partitions and their ALLOC (R417). -/
  defaults : List (PartRecord × Nat)
  tree : List Nat
  number : Nat
  /-- The settings record: its bytes, and the minimum SVN of each firmware block (R416, R417). -/
  settings : Option (List Byte × List Nat)
  deriving DecidableEq, Repr

/-! ### A pricking image, decoded (R336): the contents its sections hold, as the chapters define them. -/

/-- Sequencer code of a node: bytes at an offset of every named tile's instruction memory, and the threads that
run it (R133, R302). Tiles are relative. -/
structure CodeImage where
  base : Nat
  words : List Word32
  entry : Nat
  threads : BitVec 8
  pair : Bool
  deriving DecidableEq, Repr

/-- One PE's configuration in one phase (R36, R262, R422): ring windows (start, length) and words. -/
structure PeImage where
  x : Nat
  y : Nat
  opRing : Nat × Nat
  routeRing : Nat × Nat
  raRing : Nat × Nat
  ops : List (Nat × BitVec 24)
  routes : List (Nat × BitVec 16)
  ras : List (Nat × BitVec 16)
  cregs : List Word32
  scratch : Mem
  deriving DecidableEq, Repr

/-- One phase of a region: its PEs and the chain entries (relative tile, entry, word). -/
structure PhaseImage where
  pes : List PeImage
  chains : List (Nat × Nat × Word32)
  deriving DecidableEq, Repr

/-- A region (R22, R170): its rectangle in relative fabric coordinates. -/
structure RegionImage where
  x : Nat
  y : Nat
  w : Nat
  h : Nat
  atLaunch : Bool
  trip : Nat
  phases : List PhaseImage
  deriving DecidableEq, Repr

/-- A token or memory-ordering arc (R46, R306): producer and consumer nodes and, for fabric ports, the PE and port. -/
structure ArcImage where
  fromNode : Nat
  toNode : Nat
  fromPort : Option (Nat × Port)
  toPort : Option (Nat × Port)
  vc : Nat
  width : Nat
  depth : Nat
  total : Option Nat
  memoryOrder : Bool
  deriving DecidableEq, Repr

/-- A multicast group (Table 05-1, R109): the waveguide index within the partition's stack, and drop tiles. -/
structure GroupImage where
  number : Nat
  stack : Nat
  wg : Nat
  wmask : BitVec 16
  vc : Nat
  port : Nat
  drops : List Nat
  deriving DecidableEq, Repr

/-- A transmitter timetable (R111): the stack and waveguide, ZPER and entries of 64 bits. -/
structure TimetableImage where
  stack : Nat
  wg : Nat
  entries : List (BitVec 64)
  deriving DecidableEq, Repr

/-- A lane that a program names (R243, R301): kind, index, group, tile or LLC line, offset and VC. -/
structure LaneImage where
  kind : Nat
  idx : Nat
  target : Nat
  off : Nat
  vc : Nat
  deriving DecidableEq, Repr

/-- A D-program (R170, R243): its channel, words and lane table entries. -/
structure DprogImage where
  stack : Nat
  ch : Nat
  words : List (BitVec 64)
  lanes : List LaneImage
  deriving DecidableEq, Repr

/-- A collective node bound to the tiles (R128, R131): kind, contributors, blocks of a call, and per path the tag under which
it leaves the module, if it does. -/
structure CollImage where
  kind : Nat
  contributors : Nat
  paths : List (Option Nat)
  blocks : Nat
  tiles : List Nat
  /-- The reduction identifier of each path's tree. -/
  rids : List Nat
  /-- The operation of Table 05-6, or none for R72; the rank of the first of its tiles. -/
  op : Option (BitVec 4)
  rank : Nat
  /-- Input arcs with the words that a call takes from each. -/
  inputs : List (Nat × Nat)
  /-- Edge entries of its paths: tag, peer module and its tag (R118). -/
  links : List (Nat × Nat × Nat)
  deriving DecidableEq, Repr

/-- A tree node of a reduction (R124): tile, RID, children tiles, parent tile (none at the root), VC, and the declared
contributors and BF16 output of an A64 reduction (R72). A child or parent of 4,096 and above is the module that a tag, less
4,096, reaches (R118). -/
structure TreeImage where
  tile : Nat
  rid : Nat
  children : List Nat
  parent : Option Nat
  vc : Nat
  contributors : Nat
  bf16 : Bool
  deriving DecidableEq, Repr

/-- Node kinds of Table 02-5. -/
inductive NodeImage where
  | seq (threads : BitVec 8)
  | fabric (region : Nat)
  | matrix
  | stream (engine : Nat)
  | dprog (prog : Nat)
  | coll (c : Nat)
  deriving DecidableEq, Repr

/-- A pricking image with its sections decoded (R336). `bytes` is the image as it stands in memory. -/
structure Image where
  bytes : List Byte
  pw : Nat
  ph : Nat
  psz : Nat
  code : List CodeImage
  regions : List RegionImage
  /-- The matrix table's words, its period Q, and the store offset of its parameter block on each tile (R284, R302). -/
  matrix : Option (List (BitVec 64) × Nat × Nat)
  dprogs : List DprogImage
  groups : List GroupImage
  timetables : List TimetableImage
  /-- Store data: tile, offset and bytes (R301). -/
  data : List (Nat × Nat × List Byte)
  tensors : List (Nat × List Byte)
  arcs : List ArcImage
  nodes : List NodeImage
  colls : List CollImage
  trees : List TreeImage
  preds : List (Nat × Nat × BitVec 64)
  /-- `.edge` lines: tag, peer module and its tag (R404). -/
  edges : List (Nat × Nat × Nat)
  /-- Edge switch timetables by the tag whose eyelet steps them (R400). -/
  eyeletTimes : List (Nat × List Word32)
  params : List Byte
  csdiv : Nat
  deriving DecidableEq, Repr

end Sys2Proof
end

