-- ==== Sys2Proof/Syntax.lean ====
section
/-! DEFINITION. The instructions of the AW1: one constructor for each row of spec/opcode_table.json. Rows 0 to 128 are
sequencer words and prefixes, 131 to 181 fabric words, 182 to 189 matrix words, 190 to 207 D-words; the other rows
are operations and events of the part that have no word: their constructors carry the unit they name and the data
that arrives with them (log 1). -/

namespace Sys2Proof

/-- The instructions, operations and events of the AW1, in the table's order. -/
inductive Instr where
  /-- ADD (R177): Writes the 64-bit wrapped sum of g[ra] and g[rb] into g[rd]. -/
  | add (d a b : GReg) (p : PReg)
  /-- SUB (R177): Writes the 64-bit wrapped difference g[ra] minus g[rb] into g[rd]. -/
  | sub (d a b : GReg) (p : PReg)
  /-- AND (R177): Writes the bitwise AND of g[ra] and g[rb] into g[rd]. -/
  | and (d a b : GReg) (p : PReg)
  /-- OR (R177): Writes the bitwise OR of g[ra] and g[rb] into g[rd]. -/
  | or (d a b : GReg) (p : PReg)
  /-- XOR (R177): Writes the bitwise XOR of g[ra] and g[rb] into g[rd]. -/
  | xor (d a b : GReg) (p : PReg)
  /-- ANDN (R177): Writes g[ra] AND NOT g[rb] into g[rd]. -/
  | andn (d a b : GReg) (p : PReg)
  /-- SHL (R177): Shifts g[ra] left by g[rb][5:0]. -/
  | shl (d a b : GReg) (p : PReg)
  /-- SHR (R177): Shifts g[ra] right logically by g[rb][5:0]. -/
  | shr (d a b : GReg) (p : PReg)
  /-- SAR (R177): Shifts g[ra] right arithmetically by g[rb][5:0]. -/
  | sar (d a b : GReg) (p : PReg)
  /-- ROTL (R177): Rotates g[ra] left by g[rb][5:0]. -/
  | rotl (d a b : GReg) (p : PReg)
  /-- MIN (R177): Writes the signed minimum of g[ra] and g[rb]. -/
  | min (d a b : GReg) (p : PReg)
  /-- MAX (R177): Writes the signed maximum of g[ra] and g[rb]. -/
  | max (d a b : GReg) (p : PReg)
  /-- MINU (R177): Writes the unsigned minimum of g[ra] and g[rb]. -/
  | minu (d a b : GReg) (p : PReg)
  /-- MAXU (R177): Writes the unsigned maximum of g[ra] and g[rb]. -/
  | maxu (d a b : GReg) (p : PReg)
  /-- CLZ (R177): Writes the number of leading zero bits of g[ra]. -/
  | clz (d a : GReg) (p : PReg)
  /-- POPC (R177): Writes the number of one bits of g[ra]. -/
  | popc (d a : GReg) (p : PReg)
  /-- MUL (R177): Writes the low 64 bits of the product of g[ra] and g[rb]. -/
  | mul (d a b : GReg) (p : PReg)
  /-- MULH (R177): Writes the high 64 bits of the signed product. -/
  | mulh (d a b : GReg) (p : PReg)
  /-- MULHU (R177): Writes the high 64 bits of the unsigned product. -/
  | mulhu (d a b : GReg) (p : PReg)
  /-- DIV (R178): Writes the signed quotient truncated toward zero, never trapping. -/
  | div (d a b : GReg) (p : PReg)
  /-- DIVU (R178): Writes the unsigned quotient, never trapping. -/
  | divu (d a b : GReg) (p : PReg)
  /-- REM (R178): Writes the signed remainder with the sign of the dividend. -/
  | rem (d a b : GReg) (p : PReg)
  /-- REMU (R178): Writes the unsigned remainder. -/
  | remu (d a b : GReg) (p : PReg)
  /-- ADDI (R179): Adds the sign-extended 13-bit immediate to g[ra]. -/
  | addi (d a : GReg) (p : PReg) (i : BitVec 13)
  /-- ANDI (R179): ANDs g[ra] with the zero-extended immediate. -/
  | andi (d a : GReg) (p : PReg) (i : BitVec 13)
  /-- ORI (R179): ORs g[ra] with the zero-extended immediate. -/
  | ori (d a : GReg) (p : PReg) (i : BitVec 13)
  /-- XORI (R179): XORs g[ra] with the zero-extended immediate. -/
  | xori (d a : GReg) (p : PReg) (i : BitVec 13)
  /-- SHLI (R179): Shifts g[ra] left by an immediate amount. -/
  | shli (d a : GReg) (p : PReg) (i : BitVec 6)
  /-- SHRI (R179): Shifts g[ra] right logically by an immediate amount. -/
  | shri (d a : GReg) (p : PReg) (i : BitVec 6)
  /-- SARI (R179): Shifts g[ra] right arithmetically by an immediate amount. -/
  | sari (d a : GReg) (p : PReg) (i : BitVec 6)
  /-- LUI (R180): Writes the sign-extended 18-bit immediate shifted left by 14 into g[rd]. -/
  | lui (d : GReg) (p : PReg) (i : BitVec 18)
  /-- LIX (R148): Writes a sign-extended 32-bit immediate from its second word into g[rd]. -/
  | lix (d : GReg) (p : PReg) (i : BitVec 32)
  /-- CMP (R181): Writes a predicate with the result of comparing g[ra] and g[rb] under the fn condition. -/
  | cmp (d : PReg) (a b : GReg) (p : PReg) (c : BitVec 3)
  /-- CMPI (R181): Writes a predicate with the result of comparing g[ra] with a 10-bit immediate. -/
  | cmpi (d : PReg) (a : GReg) (p : PReg) (c : BitVec 3) (i : BitVec 10)
  /-- PAND (R182): ANDs two predicates into a third. -/
  | pand (d a b p : PReg)
  /-- POR (R182): ORs two predicates into a third. -/
  | por (d a b p : PReg)
  /-- PXOR (R182): XORs two predicates into a third. -/
  | pxor (d a b p : PReg)
  /-- PNOT (R182): Writes the inverse of a predicate. -/
  | pnot (d a p : PReg)
  /-- PMOV (R182): Copies a predicate. -/
  | pmov (d a p : PReg)
  /-- PGET (R182): Packs p7 to p1 and a constant 1 into a general register. -/
  | pget (d : GReg) (p : PReg)
  /-- SEL (R140): Copies g[ra] or g[rb] into g[rd] according to the predicate named by pg. -/
  | sel (d a b : GReg) (p : PReg)
  /-- ADDR1 (R183): Writes g[ra] plus g[rb]. -/
  | addr1 (d a b : GReg) (p : PReg)
  /-- ADDR2 (R183): Writes g[ra] plus g[rb] shifted left by 1. -/
  | addr2 (d a b : GReg) (p : PReg)
  /-- ADDR4 (R183): Writes g[ra] plus g[rb] shifted left by 2. -/
  | addr4 (d a b : GReg) (p : PReg)
  /-- ADDR8 (R183): Writes g[ra] plus g[rb] shifted left by 3. -/
  | addr8 (d a b : GReg) (p : PReg)
  /-- BFX (R184): Extracts a bit field of g[ra] described by g[rb]. -/
  | bfx (d a b : GReg) (p : PReg)
  /-- BFI (R184): Inserts the low bits of g[ra] into a field of g[rd] described by g[rb]. -/
  | bfi (d a b : GReg) (p : PReg)
  /-- CPACK (R185): Builds a tile identifier from x and y, or all ones if outside the placement. -/
  | cpack (d a b : GReg) (p : PReg)
  /-- CUNPK (R185): Splits a tile identifier into x and y halves. -/
  | cunpk (d a : GReg) (p : PReg)
  /-- TILEID (R187): Writes the tile's identifier into g[rd]. -/
  | tileid (d : GReg) (p : PReg)
  /-- THID (R187): Writes the thread number into g[rd]. -/
  | thid (d : GReg) (p : PReg)
  /-- CCNT (R187): Writes the core cycle count of the issue cycle into g[rd]. -/
  | ccnt (d : GReg) (p : PReg)
  /-- SCNT (R187): Writes the global slot counter into g[rd]. -/
  | scnt (d : GReg) (p : PReg)
  /-- BR (R137): Branches PC-relative when the predicate condition holds. -/
  | br (p : PReg) (n : BitVec 1) (d : BitVec 22)
  /-- JAL (R137): Calls PC-relative when the predicate condition holds, linking to g30. -/
  | jal (p : PReg) (n : BitVec 1) (d : BitVec 22)
  /-- JALR (R137): Jumps to g[ra] plus an immediate and links PC + 4 into g[rd]. -/
  | jalr (d a : GReg) (p : PReg) (i : BitVec 13)
  /-- LOOP (R190): Decrements the counter and branches while it is not zero. -/
  | loop (d : GReg) (p : PReg) (i : BitVec 13)
  /-- YIELD (R191): Leaves the thread Waiting through its next own cycle. -/
  | yield (p : PReg)
  /-- PARK (R192): Parks the thread unless its wake-pending bit is set, which it then clears. -/
  | park (p : PReg)
  /-- WAKE (R192): Wakes a thread parked by PARK or sets its wake-pending bit. -/
  | wake (a : GReg) (p : PReg)
  /-- WAITT (R193): Parks the thread until CCNT reaches g[ra], with a promise check. -/
  | waitt (a : GReg) (p : PReg)
  /-- WAITE (R194): Parks the thread until the named completion number is posted. -/
  | waite (a : GReg) (p : PReg)
  /-- HALTT (R195): Waits for the thread's accesses and reductions, then halts the thread for the launch. -/
  | haltt (p : PReg)
  /-- LD (R196): Loads 2^sz bytes from the activation store, zero-extended. -/
  | ld (d a : GReg) (p : PReg) (s : BitVec 2) (i : BitVec 11)
  /-- LDS (R196): Loads 2^sz bytes from the activation store, sign-extended. -/
  | lds (d a : GReg) (p : PReg) (s : BitVec 2) (i : BitVec 11)
  /-- ST (R196): Stores the low 2^sz bytes of g[rd] to the activation store. -/
  | st (d a : GReg) (p : PReg) (s : BitVec 2) (i : BitVec 11)
  /-- LDF (R197): Reads a store word once it is full, leaving it full. -/
  | ldf (d a : GReg) (p : PReg) (i : BitVec 11)
  /-- LDFE (R197): Reads a full store word and sets it empty, as an acquire. -/
  | ldfe (d a : GReg) (p : PReg) (i : BitVec 11)
  /-- STEF (R197): Writes an empty store word and sets it full, as a release. -/
  | stef (d a : GReg) (p : PReg) (i : BitVec 11)
  /-- STF (R197): Writes a store word and sets it full, as a release. -/
  | stf (d a : GReg) (p : PReg) (i : BitVec 11)
  /-- SETE (R198): Sets a store word's full/empty bit empty. -/
  | sete (a : GReg) (p : PReg) (i : BitVec 11)
  /-- SETF (R198): Sets a store word's full/empty bit full. -/
  | setf (a : GReg) (p : PReg) (i : BitVec 11)
  /-- PEEKF (R198): Returns a store word's full/empty bit without changing it. -/
  | peekf (d a : GReg) (p : PReg) (i : BitVec 11)
  /-- LDG (R200): Loads from a global virtual address through the LLC. -/
  | ldg (d a : GReg) (p : PReg) (s : BitVec 2) (i : BitVec 11)
  /-- STG (R200): Stores to a global virtual address through the LLC. -/
  | stg (d a : GReg) (p : PReg) (s : BitVec 2) (i : BitVec 11)
  /-- ATOM (R201): Performs one indivisible read-modify-write locally or at the home slice and returns the old value. -/
  | atom (d a b : GReg) (p : PReg) (g w : BitVec 1) (o : BitVec 4)
  /-- CAS (R204): Compares the word with g[rd] and, if equal, writes g[rb], returning the old value. -/
  | cas (d a b : GReg) (p : PReg) (g w : BitVec 1)
  /-- RED (R205): Issues a non-returning reduction applied exactly once at a scatter-reduce unit or home slice. -/
  | red (a b : GReg) (p : PReg) (g w : BitVec 1) (o : BitVec 4)
  /-- FENCE_T (R206): Orders the thread's activation-store accesses. -/
  | fenceT (p : PReg)
  /-- FENCE_C (R206): Also orders messages, remote writes and store writes toward the engines. -/
  | fenceC (p : PReg)
  /-- FENCE_P (R206): Also orders global accesses for every agent of the placement. -/
  | fenceP (p : PReg)
  /-- FENCE_S (R206): Also completes LTWB write-backs to HBM4 and host memory. -/
  | fenceS (p : PReg)
  /-- DRAIN (R206): Also waits for every non-returning reduction to be applied and delivers its flags. -/
  | drain (p : PReg)
  /-- SEND (R208): Places a 64-bit message in a send queue for a remote receive queue. -/
  | send (a b : GReg) (p : PReg) (q : BitVec 2)
  /-- SENDP (R209): Sends a remote write, STF or STEF of g[rb] to a store word on another tile. -/
  | sendp (a b : GReg) (p : PReg) (q : BitVec 2)
  /-- QPOLL (R211): Writes the number of entries in a receive queue. -/
  | qpoll (d : GReg) (p : PReg) (q : BitVec 2)
  /-- QWAIT (R211): Removes the oldest receive-queue entry, parking while the queue is empty. -/
  | qwait (d : GReg) (p : PReg) (q : BitVec 2)
  /-- STRM_BIND (R220): Checks a stream descriptor, pins its pages and binds it to a stream context. -/
  | strmBind (a b : GReg) (p : PReg)
  /-- STRM_START (R223): Starts a bound stream context and takes a completion number. -/
  | strmStart (a : GReg) (p : PReg)
  /-- STRM_CANCEL (R224): Ends a running stream after its element in progress and posts its completion. -/
  | strmCancel (a : GReg) (p : PReg)
  /-- STRM_STAT (R225): Returns a context status word, a vertical counter, the last completion number or CSDIV. -/
  | strmStat (d a : GReg) (p : PReg)
  /-- SCOPY (R226): Starts a bulk copy between stores and returns its promise cycle. -/
  | scopy (d a b : GReg) (p : PReg)
  /-- VXFER (R228): Starts a vertical bulk transfer between the store and an operand buffer or accumulator tile. -/
  | vxfer (a b : GReg) (p : PReg)
  /-- LTDEF (R230): Writes a tensor descriptor, incrementing GEN and invalidating old lines. -/
  | ltdef (a b : GReg) (p : PReg)
  /-- LTLD (R231): Reads a tensor line into the store and takes a completion number. -/
  | ltld (d a b : GReg) (p : PReg)
  /-- LTST (R232): Writes a tensor line from the store, valid and dirty, and takes a completion number. -/
  | ltst (d a b : GReg) (p : PReg)
  /-- LTPF (R233): Fills the tensor lines selected around a centre line. -/
  | ltpf (a b : GReg) (p : PReg)
  /-- LTHALO (R234): Sends a halo strip of a tensor line to a remote store. -/
  | lthalo (a b : GReg) (p : PReg)
  /-- LTINV (R235): Invalidates a TID by incrementing its generation. -/
  | ltinv (a : GReg) (p : PReg)
  /-- LTWB (R236): Starts write-back of every dirty line of a TID's current generation. -/
  | ltwb (a : GReg) (p : PReg)
  /-- LTQ (R237): Returns a line's state, a TID's generation or a line's home slice. -/
  | ltq (d a b : GReg) (p : PReg)
  /-- BAR (R251): Arrives at a placement barrier and waits for its phase to complete. -/
  | bar (a : GReg) (p : PReg)
  /-- BARA (R251): Orders earlier accesses as FENCE.P and arrives at a placement barrier. -/
  | bara (a : GReg) (p : PReg)
  /-- BARW (R251): Parks until the phase of the pending arrival completes, then acquires. -/
  | barw (a : GReg) (p : PReg)
  /-- CSTEP (R252): Starts the next call of a collective node, latching its path split. -/
  | cstep (a : GReg) (p : PReg)
  /-- RNDK (R212): Writes the keyed counter generator value KCG of two registers. -/
  | rndk (d a b : GReg) (p : PReg)
  /-- FLOAD (R255): Loads a region's phase configuration and checks it. -/
  | fload (a b : GReg) (p : PReg)
  /-- FGO (R255): Starts a loaded region with a trip count at a later slot. -/
  | fgo (a b : GReg) (p : PReg)
  /-- FPHASE (R255): Waits for a region to end and drain, then rewrites it to another phase and may start it. -/
  | fphase (a b : GReg) (p : PReg)
  /-- FSTOP (R255): Ends a running or frozen region at its next boundary. -/
  | fstop (a : GReg) (p : PReg)
  /-- FSTAT (R255): Returns part of a region's loop-context record or its flag word. -/
  | fstat (d a : GReg) (p : PReg)
  /-- MXLOAD (R256): Checks and loads a matrix table and parameter block. -/
  | mxload (a b : GReg) (p : PReg)
  /-- MXGO (R256): Starts the loaded matrix table for a number of rounds at a later slot. -/
  | mxgo (a : GReg) (p : PReg)
  /-- MXDRAIN (R256): Writes an accumulator tile, converted, to the store. -/
  | mxdrain (a b : GReg) (p : PReg)
  /-- MXCLR (R256): Sets selected accumulator tiles to +0. -/
  | mxclr (a : GReg) (p : PReg)
  /-- MXSTAT (R256): Returns the matrix status word, flag word or signal bits. -/
  | mxstat (d a : GReg) (p : PReg)
  /-- LNCH (R253): Submits a launch-queue packet from a virtual address and returns its launch number. -/
  | lnch (d a b : GReg) (p : PReg)
  /-- EVSIG (R254): Orders writes as FENCE.S and increments a partition event counter. -/
  | evsig (a : GReg) (p : PReg)
  /-- EVWAIT (R254): Parks until an event counter reaches a value, then acquires. -/
  | evwait (a : GReg) (p : PReg)
  /-- CSRR (R214): Copies a CSR into g[rd]. -/
  | csrr (d : GReg) (c : BitVec 10) (p : PReg)
  /-- CSRW (R214): Copies g[rd] into a CSR under its access codes. -/
  | csrw (d : GReg) (c : BitVec 10) (p : PReg)
  /-- TRET (R319): Returns from a handler to TEPC at the privilege in PPL. -/
  | tret (p : PReg)
  /-- TLBINV (R320): Invalidates matching translations in every TLB of the partition. -/
  | tlbinv (a b : GReg) (p : PReg)
  /-- CUTM (R321): Starts a pre-emption cut of a live launch. -/
  | cutm (a : GReg) (p : PReg)
  /-- CFGLD (R322): Copies bytes from the store into the handler area of instruction memory. -/
  | cfgld (a b : GReg) (p : PReg)
  /-- HALTC (R323): Halts every thread of the core after their outstanding accesses. -/
  | haltc (p : PReg)
  /-- TRAP (R213): Raises a system-call trap, cause 0x12, with the call number. -/
  | trap (p : PReg) (i : BitVec 18)
  /-- RPT (R145): Repeats the prefixed word count times with stepped register numbers. -/
  | rpt (count : BitVec 10) (srd sra srb : BitVec 3) (relaxed : Bool) (w : Word32)
  /-- RLX (R144): Performs the prefixed load, store or PEEKF as a relaxed access. -/
  | rlx (w : Word32)
  /-- RPT_REPETITION (R145): One later repetition of an RPT pair in the thread's own cycle. -/
  | rptRepetition
  /-- DEBUG_STOP (R361): A management request makes a thread take cause 0x13 at its next issue cycle. -/
  | debugStop (tile thread : Nat)
  /-- NOP (R264): Fabric op that fires nothing and lands nothing. -/
  | nop (s : BitVec 3) (d : BitVec 4)
  /-- MOV (R264): Fabric op delivering A unchanged. -/
  | mov (s : BitVec 3) (a : BitVec 5) (d : BitVec 4) (w : BitVec 1)
  /-- SELP (R264): Fabric op delivering A if C is non-zero, else B. -/
  | selp (s : BitVec 3) (a b : BitVec 5) (d : BitVec 4) (w : BitVec 1)
  /-- FADD (R265): FP32 sum rounded once. -/
  | fadd (s : BitVec 3) (a b : BitVec 5) (d : BitVec 4) (w : BitVec 1)
  /-- FSUB (R265): FP32 difference rounded once. -/
  | fsub (s : BitVec 3) (a b : BitVec 5) (d : BitVec 4) (w : BitVec 1)
  /-- FMUL (R265): FP32 product rounded once. -/
  | fmul (s : BitVec 3) (a b : BitVec 5) (d : BitVec 4) (w : BitVec 1)
  /-- FFMA (R265): FP32 fused multiply-add with one rounding. -/
  | ffma (s : BitVec 3) (a b : BitVec 5) (d : BitVec 4) (w : BitVec 1)
  /-- FMIN (R266): FP32 minimum under R69. -/
  | fmin (s : BitVec 3) (a b : BitVec 5) (d : BitVec 4) (w : BitVec 1)
  /-- FMAX (R266): FP32 maximum under R69. -/
  | fmax (s : BitVec 3) (a b : BitVec 5) (d : BitVec 4) (w : BitVec 1)
  /-- FABS (R266): Clears the FP32 sign bit. -/
  | fabs (s : BitVec 3) (a : BitVec 5) (d : BitVec 4) (w : BitVec 1)
  /-- FNEG (R266): Inverts the FP32 sign bit. -/
  | fneg (s : BitVec 3) (a : BitVec 5) (d : BitVec 4) (w : BitVec 1)
  /-- FCMPLT (R266): Delivers 1 if A is less than B in FP32, else 0. -/
  | fcmplt (s : BitVec 3) (a b : BitVec 5) (d : BitVec 4) (w : BitVec 1)
  /-- FCMPEQ (R266): Delivers 1 if A equals B in FP32, else 0. -/
  | fcmpeq (s : BitVec 3) (a b : BitVec 5) (d : BitVec 4) (w : BitVec 1)
  /-- HADD2 (R267): BF16-pair sum per lane. -/
  | hadd2 (s : BitVec 3) (a b : BitVec 5) (d : BitVec 4) (w : BitVec 1)
  /-- HMUL2 (R267): BF16-pair product per lane. -/
  | hmul2 (s : BitVec 3) (a b : BitVec 5) (d : BitVec 4) (w : BitVec 1)
  /-- HFMA2 (R267): BF16-pair fused multiply-add per lane. -/
  | hfma2 (s : BitVec 3) (a b : BitVec 5) (d : BitVec 4) (w : BitVec 1)
  /-- HMAX2 (R267): BF16-pair maximum per lane. -/
  | hmax2 (s : BitVec 3) (a b : BitVec 5) (d : BitVec 4) (w : BitVec 1)
  /-- IADD (R268): 32-bit integer sum. -/
  | iadd (s : BitVec 3) (a b : BitVec 5) (d : BitVec 4) (w : BitVec 1)
  /-- ISUB (R268): 32-bit integer difference. -/
  | isub (s : BitVec 3) (a b : BitVec 5) (d : BitVec 4) (w : BitVec 1)
  /-- IMUL (R268): Low 32 bits of the integer product. -/
  | imul (s : BitVec 3) (a b : BitVec 5) (d : BitVec 4) (w : BitVec 1)
  /-- IMAD (R268): Low 32 bits of A times B plus C. -/
  | imad (s : BitVec 3) (a b : BitVec 5) (d : BitVec 4) (w : BitVec 1)
  /-- IAND (R268): 32-bit bitwise AND. -/
  | iand (s : BitVec 3) (a b : BitVec 5) (d : BitVec 4) (w : BitVec 1)
  /-- IOR (R268): 32-bit bitwise OR. -/
  | ior (s : BitVec 3) (a b : BitVec 5) (d : BitVec 4) (w : BitVec 1)
  /-- IXOR (R268): 32-bit bitwise XOR. -/
  | ixor (s : BitVec 3) (a b : BitVec 5) (d : BitVec 4) (w : BitVec 1)
  /-- ISHL (R268): 32-bit left shift by B[4:0]. -/
  | ishl (s : BitVec 3) (a b : BitVec 5) (d : BitVec 4) (w : BitVec 1)
  /-- ISHR (R268): 32-bit logical right shift. -/
  | ishr (s : BitVec 3) (a b : BitVec 5) (d : BitVec 4) (w : BitVec 1)
  /-- ISAR (R268): 32-bit arithmetic right shift. -/
  | isar (s : BitVec 3) (a b : BitVec 5) (d : BitVec 4) (w : BitVec 1)
  /-- IMIN (R268): Signed 32-bit minimum. -/
  | imin (s : BitVec 3) (a b : BitVec 5) (d : BitVec 4) (w : BitVec 1)
  /-- IMAX (R268): Signed 32-bit maximum. -/
  | imax (s : BitVec 3) (a b : BitVec 5) (d : BitVec 4) (w : BitVec 1)
  /-- ICMPLT (R268): Delivers 1 if A is signed-less than B. -/
  | icmplt (s : BitVec 3) (a b : BitVec 5) (d : BitVec 4) (w : BitVec 1)
  /-- ICMPEQ (R268): Delivers 1 if A equals B. -/
  | icmpeq (s : BitVec 3) (a b : BitVec 5) (d : BitVec 4) (w : BitVec 1)
  /-- CVTIF (R269): Converts INT32 to FP32. -/
  | cvtif (s : BitVec 3) (a : BitVec 5) (d : BitVec 4) (w : BitVec 1)
  /-- CVTFI (R269): Converts FP32 to INT32 toward zero, saturated. -/
  | cvtfi (s : BitVec 3) (a : BitVec 5) (d : BitVec 4) (w : BitVec 1)
  /-- CVTBF (R269): Converts FP32 to BF16 by RNE. -/
  | cvtbf (s : BitVec 3) (a : BitVec 5) (d : BitVec 4) (w : BitVec 1)
  /-- CVTBFS (R269): Converts FP32 to BF16 by stochastic rounding with generator value B. -/
  | cvtbfs (s : BitVec 3) (a b : BitVec 5) (d : BitVec 4) (w : BitVec 1)
  /-- CVTE4 (R269): Converts FP32 to E4M3 by RNE. -/
  | cvte4 (s : BitVec 3) (a : BitVec 5) (d : BitVec 4) (w : BitVec 1)
  /-- CVTE5 (R269): Converts FP32 to E5M2 by RNE. -/
  | cvte5 (s : BitVec 3) (a : BitVec 5) (d : BitVec 4) (w : BitVec 1)
  /-- CVTE4S (R269): Converts FP32 to E4M3 by stochastic rounding with generator value B. -/
  | cvte4s (s : BitVec 3) (a b : BitVec 5) (d : BitVec 4) (w : BitVec 1)
  /-- PACK2 (R269): Packs the low halves of B and A. -/
  | pack2 (s : BitVec 3) (a b : BitVec 5) (d : BitVec 4) (w : BitVec 1)
  /-- UNPK (R269): Widens BF16 A[15:0] to FP32. -/
  | unpk (s : BitVec 3) (a : BitVec 5) (d : BitVec 4) (w : BitVec 1)
  /-- FRCP (R270): Correctly rounded FP32 reciprocal. -/
  | frcp (s : BitVec 3) (a : BitVec 5) (d : BitVec 4) (w : BitVec 1)
  /-- FRSQ (R270): Correctly rounded FP32 reciprocal square root. -/
  | frsq (s : BitVec 3) (a : BitVec 5) (d : BitVec 4) (w : BitVec 1)
  /-- FEXP2 (R270): Correctly rounded FP32 power of two. -/
  | fexp2 (s : BitVec 3) (a : BitVec 5) (d : BitVec 4) (w : BitVec 1)
  /-- FLOG2 (R270): Correctly rounded FP32 base-2 logarithm. -/
  | flog2 (s : BitVec 3) (a : BitVec 5) (d : BitVec 4) (w : BitVec 1)
  /-- PRND (R271): Delivers KCG with A as counter and B as key. -/
  | prnd (s : BitVec 3) (a b : BitVec 5) (d : BitVec 4) (w : BitVec 1)
  /-- PLD (R273): Loads from scratch, or in store form sends a chained load whose reply goes to the V latch. -/
  | pld (s : BitVec 3) (a : BitVec 5) (d : BitVec 4) (w : BitVec 1)
  /-- PST (R273): Stores B to scratch, or in store form sends a chained store to the activation store. -/
  | pst (s : BitVec 3) (a b : BitVec 5) (d : BitVec 4)
  /-- PRED (R278): Contributes A to a reduction identifier through its PRED binding. -/
  | pred (s : BitVec 3) (a : BitVec 5) (d : BitVec 4)
  /-- JNX (R280): Joins two coordinate-tagged streams, delivering only matched pairs. -/
  | jnx (s : BitVec 3) (a b : BitVec 5) (d : BitVec 4) (w : BitVec 1)
  /-- JNU (R280): Joins two coordinate-tagged streams as a union. -/
  | jnu (s : BitVec 3) (a b : BitVec 5) (d : BitVec 4) (w : BitVec 1)
  /-- ROUTE (R153): Route word driving each output port from the landing result, a latch or a k register. -/
  | route (n e s w : BitVec 4)
  /-- MNOP (R298): Matrix entry that does nothing. -/
  | mnop (slot : BitVec 8)
  /-- MMA (R294): Accumulates A times B into an accumulator tile over d slots. -/
  | mma (slot : BitVec 8) (a b at_ : BitVec 4) (vc afmt : BitVec 5) (rel : BitVec 1)
  /-- MMAS (R294): Sets an accumulator tile to A times B starting from zero. -/
  | mmas (slot : BitVec 8) (a b at_ : BitVec 4) (vc afmt : BitVec 5) (rel : BitVec 1)
  /-- MZERO (R295): Sets every element of an accumulator tile to +0. -/
  | mzero (slot : BitVec 8) (at_ : BitVec 4)
  /-- MSIG (R297): Queues a signal that later performs STF on a signal word. -/
  | msig (slot : BitVec 8) (sig : BitVec 4)
  /-- MWAIT (R297): Fires when a signal word is full and performs LDFE on it. -/
  | mwait (slot : BitVec 8) (sig : BitVec 4)
  /-- MDRAIN (R296): Drains an accumulator tile, converted, into the tile's M latches over 128 cycles. -/
  | mdrain (slot : BitVec 8) (at_ tsel : BitVec 4) (ofmt : BitVec 2) (srnd : BitVec 1)
  /-- MEND (R298): Ends the matrix table run once entries and signals complete. -/
  | mend (slot : BitVec 8)
  /-- DNOP (R242): D-word that lets time pass. -/
  | dnop (delta : BitVec 12) (ch : BitVec 5)
  /-- DACT (R242): Opens a row in a bank. -/
  | dact (delta : BitVec 12) (ch : BitVec 5) (pc : BitVec 1) (bg ba : BitVec 2) (row : BitVec 15)
  /-- DPRE (R242): Closes a bank. -/
  | dpre (delta : BitVec 12) (ch : BitVec 5) (pc : BitVec 1) (bg ba : BitVec 2)
  /-- DPREA (R242): Closes every bank of a pseudo-channel. -/
  | dprea (delta : BitVec 12) (ch : BitVec 5) (pc : BitVec 1)
  /-- DRD (R242): Reads 32 bytes at a column into a lane. -/
  | drd (delta : BitVec 12) (ch : BitVec 5) (pc : BitVec 1) (bg ba : BitVec 2) (row : BitVec 15) (col : BitVec 6) (lkind : BitVec 2) (lidx : BitVec 6) (close : BitVec 1)
  /-- DRDA (R242): Reads 32 bytes into a lane and auto-precharges. -/
  | drda (delta : BitVec 12) (ch : BitVec 5) (pc : BitVec 1) (bg ba : BitVec 2) (row : BitVec 15) (col : BitVec 6) (lkind : BitVec 2) (lidx : BitVec 6) (close : BitVec 1)
  /-- DWR (R242): Writes 32 bytes from a lane at a column. -/
  | dwr (delta : BitVec 12) (ch : BitVec 5) (pc : BitVec 1) (bg ba : BitVec 2) (row : BitVec 15) (col : BitVec 6) (lkind : BitVec 2) (lidx : BitVec 6)
  /-- DWRA (R242): Writes 32 bytes from a lane and auto-precharges. -/
  | dwra (delta : BitVec 12) (ch : BitVec 5) (pc : BitVec 1) (bg ba : BitVec 2) (row : BitVec 15) (col : BitVec 6) (lkind : BitVec 2) (lidx : BitVec 6)
  /-- DREFAB (R244): Refreshes every bank of a pseudo-channel, lowering their debt. -/
  | drefab (delta : BitVec 12) (ch : BitVec 5) (pc : BitVec 1)
  /-- DREFPB (R244): Refreshes one bank, lowering its debt. -/
  | drefpb (delta : BitVec 12) (ch : BitVec 5) (pc : BitVec 1) (bg ba : BitVec 2)
  /-- DRFM (R242): Performs refresh management of one bank. -/
  | drfm (delta : BitVec 12) (ch : BitVec 5) (pc : BitVec 1) (bg ba : BitVec 2)
  /-- DSRE (R241): Enters self-refresh for the channel. -/
  | dsre (delta : BitVec 12) (ch : BitVec 5)
  /-- DSRX (R241): Exits self-refresh for the channel. -/
  | dsrx (delta : BitVec 12) (ch : BitVec 5)
  /-- DFRAME (R245): Boundary word opening a frame, checked for length and closed banks. -/
  | dframe (delta : BitVec 12) (ch : BitVec 5) (idle : BitVec 1)
  /-- DDEM (R249): Opens a demand window of n slots. -/
  | ddem (delta : BitVec 12) (ch : BitVec 5) (slots : BitVec 6)
  /-- DLOOP (R246): Repeats its frame until its loop count reaches zero. -/
  | dloop (delta : BitVec 12) (ch : BitVec 5) (runs : BitVec 15)
  /-- DEND (R247): Ends the D-program, after which the idle frame repeats. -/
  | dend (delta : BitVec 12) (ch : BitVec 5)
  /-- DMRS (R242): Writes a stack mode register, only from programs loaded at privilege M. -/
  | dmrs (delta : BitVec 12) (ch : BitVec 5) (pc : BitVec 1) (reg : BitVec 7) (value : BitVec 8)
  /-- REFRESH_DEBT_RISE (R244): Every tREFI MCK each bank's refresh debt rises by one, halting at debt 9. -/
  | refreshDebtRise (ch : Nat)
  /-- IDLE_FRAME_RUN (R247): At the end of an idle run the sequencer starts the idle frame again or hands over to the keeper. -/
  | idleFrameRun (ch : Nat)
  /-- REFRESH_KEEPER_REFRESH (R248): The keeper issues DREFAB to a pseudo-channel whose bank debt reached 1. -/
  | refreshKeeperRefresh (ch pc : Nat)
  /-- LANE_DATA_ENTRY (R243): Read data enter a lane RL MCK after the command and are packed into flits or lines. -/
  | laneDataEntry (ch kind idx : Nat) (data : List Byte) (close : Bool)
  /-- DEMAND_SLOT (R249): A demand or service slot serves the oldest waiting line request with closed-page commands. -/
  | demandSlot (ch : Nat)
  /-- THREAD_WAKE (R33): A Parked or Waiting thread becomes Running at its first own cycle after its wake condition is visible. -/
  | threadWake (tile thread : Nat)
  /-- WAITT_EXPIRY (R193): CCNT reaches a WAITT target; the promise check may raise cause 0x07. -/
  | waittExpiry (tile thread : Nat)
  /-- LAUNCH_START (R49): At start slot S0 the launch's regions, matrix tables, streams and threads start together. -/
  | launchStart (pid lnum : Nat)
  /-- REGION_CYCLE (R41): An unfrozen region cycle fires ops and routes, or the region freezes. -/
  | regionCycle (r : Nat)
  /-- REGION_BOUNDARY (R38): At SLOT = P - 1 the loop context shifts SV, advances ITER and RBASE, and may end the region. -/
  | regionBoundary (r : Nat)
  /-- REGION_RESUME (R41): A frozen region resumes when its latch condition no longer holds. -/
  | regionResume (r : Nat)
  /-- REGION_START (R255): A region started by FGO or FPHASE begins at the chosen slot. -/
  | regionStart (r : Nat)
  /-- PHASE_REWRITE (R255): After its wait FPHASE rewrites the region's configuration to the new phase. -/
  | phaseRewrite (r : Nat)
  /-- REGION_DRAIN_TOKENS (R262): An ended region sends drain tokens after its last result lands and store ops are performed. -/
  | regionDrainTokens (r : Nat)
  /-- LATCH_ARRIVAL (R40): A value arrives at a synchronised latch and sets its full bit when it is empty. -/
  | latchArrival (pe : Nat) (port : Port) (value : Word32)
  /-- STORE_OP_PERFORM (R274): The tile memory interface performs a chained fabric store op in sequence order. -/
  | storeOpPerform (tile chn : Nat)
  /-- PRED_FLIT_SEND (R279): A tile sends a combined PRED tree flit once all contributions to it are made. -/
  | predFlitSend (tile rid q : Nat)
  /-- MATRIX_START (R256): MXGO's start takes effect with MSLOT 0 at the chosen slot. -/
  | matrixStart (tile : Nat)
  /-- MSLOT_ADVANCE (R291): Every 8 unfrozen cycles MSLOT advances and due entries fire or the engine freezes. -/
  | mslotAdvance (tile : Nat)
  /-- MATRIX_RESUME (R291): A frozen matrix engine resumes after the missing condition becomes true. -/
  | matrixResume (tile : Nat)
  /-- MATRIX_ENTRY_COMPLETE (R292): A matrix entry completes, ORing flags and releasing buffers under REL. -/
  | matrixEntryComplete (tile entry : Nat)
  /-- SIGNAL_WRITE (R297): A queued MSIG performs STF on its signal word once earlier entries complete. -/
  | signalWrite (tile : Nat)
  /-- MATRIX_RUN_END (R298): The engine sets ST = 4 and sends drain tokens when entries and signals are done. -/
  | matrixRunEnd (tile : Nat)
  /-- STREAM_ELEMENT (R221): A running stream engine performs its next element in loop order. -/
  | streamElement (tile ctx : Nat)
  /-- STREAM_COMPLETE (R222): A stream's elements are all performed; its completion is posted and drain tokens sent. -/
  | streamComplete (tile ctx : Nat)
  /-- COPY_COMPLETE (R226): A copy's bytes are all written and its completion number is posted. -/
  | copyComplete (tile : Nat)
  /-- VXFER_COMPLETE (R228): A vertical transfer's writes are performed; its counter increments and a buffer may be set full. -/
  | vxferComplete (tile idx : Nat)
  /-- TENSOR_LINE_COMPLETE (R231): An LTLD or LTST finishes writing its line and posts its completion number. -/
  | tensorLineComplete (tile cnum : Nat)
  /-- GENERATION_WALK_END (R88): The walk removing a TID's lines after a generation wrap ends. -/
  | generationWalkEnd (pid tid : Nat)
  /-- HOME_SLICE_ACCESS (R87): A global access, atomic or reduction is performed at its line's home slice. -/
  | homeSliceAccess (req : GlobalReq)
  /-- LLC_FILL_COMPLETE (R90): A line fill served by a demand window completes at the home slice. -/
  | llcFillComplete (pid : Nat) (tag : BitVec 60)
  /-- LLC_WRITEBACK (R90): A dirty line is written back on eviction, LTWB or gating. -/
  | llcWriteback (pid : Nat) (tag : BitVec 60)
  /-- BLOCK_EXPANSION (R287): The bobbin begins expanding a staged weight tile into its ring buffer. -/
  | blockExpansion (tile vc : Nat)
  /-- EXPANSION_COMPLETE (R287): After 64 cycles the bobbin sets the operand buffer's full bit. -/
  | expansionComplete (tile vc : Nat)
  /-- TRANSMITTER_SLOT (R111): Each slot a transmitter uses its timetable entry to send a data flit, resend or nothing. -/
  | transmitterSlot (tx : Nat)
  /-- ZWILU_FLIT_RECEIVE (R114): A drop tile's bobbin checks CRC and SEQ and stages, discards or refuses a flit. -/
  | zwiluFlitReceive (tile : Nat) (flit : ZwiluFlit) (damage : List LightError)
  /-- REFUSAL_RECEIVE (R115): A transmitter receives a refusal and marks the flit for resend. -/
  | refusalReceive (tx group seq : Nat)
  /-- HALT_NOTICE (R116): A module receives a halt notice and adopts the smallest halt slot H. -/
  | haltNotice (h : Nat)
  /-- DOMAIN_HALT_START (R117): At slot H the global slot counter, timetables and D-programs halt. -/
  | domainHaltStart
  /-- HALT_RESEND (R117): During a halt a transmitter resends refused flits one per run. -/
  | haltResend (tx : Nat)
  /-- HALT_CLEAR (R117): When every module reports clear, counting resumes at slot H. -/
  | haltClear
  /-- DOMAIN_STALL_TIMEOUT (R382): A halt lasting 2^20 slots posts cause 0x15 records. -/
  | domainStallTimeout
  /-- EDGE_TOKEN_ARRIVAL (R118): A token arriving on an eyelet is forwarded under its edge-table tag or discarded as an edge miss. -/
  | edgeTokenArrival (eyelet tag : Nat) (sender : Nat) (token : List Byte)
  /-- SWEEP (R52): Every 4,096 cycles token sums, idle bits and busy bits of a placement are gathered. -/
  | sweep (pid lnum : Nat)
  /-- ROUTER_FORWARD (R119): A router forwards a mesh flit one hop under dimension order and hold signalling. -/
  | routerForward (flit : Nat)
  /-- MESH_FLIT_ARRIVAL (R123): A destination accepts a flit of a triple in SEQ order or discards an uncorrectable one. -/
  | meshFlitArrival (flit : Nat) (check : Secded)
  /-- MESH_REPLAY (R123): A source resends a discarded flit and later flits of its triple from its replay buffer. -/
  | meshReplay (src dst vc seq : Nat)
  /-- MESH_ACKNOWLEDGEMENT (R123): An acknowledgement lets the source free the flit it kept. -/
  | meshAcknowledgement (src dst vc seq : Nat)
  /-- TREE_NODE_COMBINE (R124): A tree node combines its children's contributions and sends one flit to its parent. -/
  | treeNodeCombine (tile : Nat) (flit : MeshFlit)
  /-- SCATTER_REDUCE_APPLY (R127): A scatter-reduce unit applies a reduction token to its store word once. -/
  | scatterReduceApply (tile unit : Nat)
  /-- MESSAGE_DELIVERY (R208): A message is enqueued at the destination receive queue. -/
  | messageDelivery (tile : Nat) (flit : MeshFlit)
  /-- REMOTE_WRITE (R209): A remote write, STF or STEF is performed at the destination bank. -/
  | remoteWrite (tile : Nat) (flit : MeshFlit)
  /-- DRAIN_TOKEN (R103): A drain token passes an input channel, releasing the tile for the next launch. -/
  | drainToken (tile channel : Nat)
  /-- BARRIER_ARRIVAL (R251): An arrival is counted at the barrier's counting point and may complete the phase. -/
  | barrierArrival (pid lnum bar parties tile thread : Nat)
  /-- BARRIER_COMPLETION (R251): A phase completion reaches a tile and wakes its BARW waiters. -/
  | barrierCompletion (pid lnum bar tile : Nat)
  /-- COLLECTIVE_CALL_COMPLETE (R252): A collective call completes at the tile and an entry is placed in q0. -/
  | collectiveCallComplete (pid lnum tile node call : Nat)
  /-- QUEUE_WRITE_ERROR (R331): A malformed write to PKT is discarded, setting PKTERR and posting a record. -/
  | queueWriteError (pid q : Nat)
  /-- LAUNCH_PACKET (R334): A launch packet is accepted, numbered and latched to the current version, or refused. -/
  | launchPacket (pid q : Nat) (src : PacketSource) (bytes : List Byte)
  /-- PATCH_PACKET (R340): A patch writes the parameter block in place, into a fresh version, or is refused. -/
  | patchPacket (pid q : Nat) (src : PacketSource) (bytes : List Byte)
  /-- BIND_PACKET (R337): A bind packet starts reading and checking a pricking image at an origin. -/
  | bindPacket (pid q : Nat) (src : PacketSource) (bytes : List Byte)
  /-- BIND_COMPLETE (R337): A bind finishes its checks and binds the image or posts bind failed. -/
  | bindComplete (pid handle : Nat) (img : Image)
  /-- UNBIND_PACKET (R338): An unbind frees a binding handle when no accepted launch names it. -/
  | unbindPacket (pid q : Nat) (src : PacketSource) (bytes : List Byte)
  /-- QREL_RESUME (R347): Clears HELD and lets the held launch continue or be restored. -/
  | qrelResume (pid q : Nat)
  /-- QREL_ABORT (R347): Ends the head or held launch with status aborted, discarding pending state. -/
  | qrelAbort (pid q : Nat)
  /-- DISPATCH (R342): The launch unit chooses the ready head of greatest effective priority and configures its tiles. -/
  | dispatch (pid : Nat)
  /-- AGING_STEP (R342): Every AGEP sweep windows an unchosen ready head's AGE rises by one. -/
  | agingStep (pid q : Nat)
  /-- CONFIGURATION_COMPLETE (R343): Configuration finishes and the start notice naming S0 is sent. -/
  | configurationComplete (pid lnum : Nat)
  /-- LAUNCH_END (R345): After drain the launch unit signals SCTR, posts the end record and releases versions. -/
  | launchEnd (pid lnum : Nat)
  /-- POWER_WINDOW (R328): At the end of a 4,096-slot window the mean power is compared with ALLOC and may stop exact launches. -/
  | powerWindow (pid : Nat)
  /-- OPERATING_POINT_STEP (R410): At a slot boundary a tile's controller raises or lowers its operating point. -/
  | operatingPointStep (tile : Nat)
  /-- PAGE_WALK_COMPLETE (R354): A walker finishes a four-level walk and fills the TLBs or reports a fault. -/
  | pageWalkComplete (walk : Nat)
  /-- REGISTER_WRITE (R7): A write to a register with no row of its own under its access codes. -/
  | registerWrite (reg : PlainReg) (value : Word)
  /-- TSTAT_WRITE (R314): A write to TSTAT that keeps PPL when the value is not allowed. -/
  | tstatWrite (tile thread : Nat) (value : Word)
  /-- TVEC_WRITE (R316): A write to TVEC or MTVEC checked against the handler area. -/
  | tvecWrite (tile : Nat) (machine : Bool) (value : Word)
  /-- PTROOT_WRITE (R351): A write to PTROOT checked for owned memory, taking effect for later walks. -/
  | ptrootWrite (pid : Nat) (value : Word)
  /-- EVLOG_WRITE (R363): A write to EVLOG checked and, on enabling, flushing buffered records. -/
  | evlogWrite (pid : Nat) (value : Word)
  /-- PCLK_WRITE (R327): A write to PCLK whose mode takes effect at the next launch. -/
  | pclkWrite (pid : Nat) (value : Word)
  /-- CSEL_WRITE (R130): A write of a communication selector, checked for range. -/
  | cselWrite (tile : Nat) (sel : Selector) (value : Word)
  /-- LBW_WRITE (R130): A write of an LBWj WEIGHT, latched by the next CSTEP call. -/
  | lbwWrite (tile path : Nat) (value : Word)
  /-- GATE_WRITE (R408): A write of GATE gates banks or ways after write-back or starts their wake. -/
  | gateWrite (tile : Nat) (value : Word)
  /-- UNIT_WAKE_COMPLETE (R409): A tile, bank or way becomes usable after its staggered wake and zero-fill. -/
  | unitWakeComplete (tile : Nat) (unit : GatedUnit)
  /-- CUT_SLOT (R368): Cut slot K is reached and the launch's elements begin to cut. -/
  | cutSlot (pid lnum : Nat)
  /-- ELEMENT_CUT (R369): An element stops at its cut point, saves its state and sends picots. -/
  | elementCut (pid lnum : Nat) (elem : Element)
  /-- PICOT_ARRIVAL (R369): A picot arrives on an input, ending the recording of that input's channel state. -/
  | picotArrival (pid lnum : Nat) (elem : Element) (input : Nat)
  /-- CUT_COMPLETE (R372): Every tile's cut is saved and a cut record is posted. -/
  | cutComplete (pid lnum : Nat)
  /-- SNAPSHOT_INTERVAL (R374): Every 2^(SNAPI+10) slots a snapshot cut starts, abandoning an incomplete one. -/
  | snapshotInterval (pid lnum : Nat)
  /-- RESTORE (R373): A held cut launch is reloaded and resumed at a new start slot. -/
  | restore (pid lnum : Nat)
  /-- ROLLBACK (R376): An uncorrectable error rolls the cut group back to its last complete cut using undo logs. -/
  | rollback (pid lnum : Nat) (sub : Nat)
  /-- SCRUB_PASS (R379): The scrubber rechecks configuration signatures and reloads a damaged store. -/
  | scrubPass (store : ConfigStore) (damage : Damage)
  /-- VERTICAL_BUS_TEST (R383): A background test window on a vertical bus, aborted by a demand access. -/
  | verticalBusTest (tile bus : Nat) (ev : BusTestEvent)
  /-- TILE_RETIREMENT (R19): A tile named for retirement leaves service once its placement has ended. -/
  | tileRetirement (tile : Nat)
  /-- EYELET_FLIT_RECEIVE (R391): An eyelet receiver accepts a sequenced flit in order or discards it and may request replay. -/
  | eyeletFlitReceive (e : Nat) (flit : EyeletFlit) (damage : List Nat)
  /-- EYELET_ACKNOWLEDGEMENT (R391): The transmitter frees held flits named by an acknowledgement. -/
  | eyeletAcknowledgement (e seq : Nat)
  /-- REPLAY_REQUEST (R391): The transmitter resends from the SEQ a replay request names. -/
  | replayRequest (e seq : Nat)
  /-- REPLAY_TIMEOUT (R391): 16 µs without acknowledgement makes the transmitter resend from its oldest held flit. -/
  | replayTimeout (e : Nat)
  /-- LANE_MARGINAL (R393): A lane below the margin threshold for 64 slots is marked marginal and may borrow the spare. -/
  | laneMarginal (e lane margin : Nat)
  /-- LANE_CHANGE_NOTICE (R394): A lane change notice sets a new lane mask and resume slot Z. -/
  | laneChangeNotice (e : Nat) (change : LaneChange)
  /-- RESUME_SLOT_Z (R395): At slot Z both ends switch striping and resume sending. -/
  | resumeSlotZ (e : Nat) (dir : Direction)
  /-- LOSS_OF_LIGHT (R395): Power below threshold for 256 UI declares loss of light and sends a notice. -/
  | lossOfLight (e : Nat) (dark : List Nat)
  /-- LANE_TRAINED (R397): A retrained lane rejoins at the next resume slot. -/
  | laneTrained (e lane : Nat)
  /-- LIGHT_RETURN (R397): Light returns to a lane, which starts retraining. -/
  | lightReturn (e lane : Nat)
  /-- SPARE_LOCK (R396): The spare locks after substitution and sending resumes. -/
  | spareLock (e : Nat)
  /-- SPARE_LOCK_TIMEOUT (R396): No spare lock by Z + 50 µs restripes and bars the spare. -/
  | spareLockTimeout (e : Nat)
  /-- SPARE_BAR_EXPIRY (R396): The 1 s bar on the spare ends. -/
  | spareBarExpiry (e : Nat)
  /-- LASER_FAULT (R385): A laser slot goes dark, darkening the lanes it feeds. -/
  | laserFault (slot : Nat)
  /-- EDGE_SWITCH_SLOT (R400): Each slot the edge switch timetable carries a port's tokens or slack. -/
  | edgeSwitchSlot (e : Nat)
  /-- SYNC_FRAME (R402): A received sync frame slews the slot clock or triggers a halt notice. -/
  | syncFrame (sender : Nat) (count : Nat) (err : Int)
  /-- COPY_HEADER (R405): A peer copy header is checked for range at the receiving module. -/
  | copyHeader (e tag sender : Nat) (off tile len id : Nat)
  /-- COPY_DATA (R405): A peer copy data flit is written to the store. -/
  | copyData (e tag sender : Nat) (data : List Byte)
  /-- COPY_DONE (R405): A copy done flit lets the source post the copy's completion or log a range failure. -/
  | copyDone (e tag sender : Nat) (id status : Nat)
  /-- PARTSET (R325): Writes a partition record, clearing tiles that change partition. -/
  | partset (r : PartRecord)
  /-- PALLOC (R411): Sets a partition's power allocation from the next window. -/
  | palloc (pid alloc : Nat)
  /-- SUSPEND (R413): Suspends the whole domain by cut, save, self-refresh and power-down. -/
  | suspend
  /-- SUSPEND_DEADLINE (R414): A cut incomplete at K + 50 ms is rolled back or aborted. -/
  | suspendDeadline (pid lnum : Nat)
  /-- RESUME (R415): Powers the domain up, realigns GSLOT, exits self-refresh and restores held launches. -/
  | resume
  /-- FWSTAGE (R416): Verifies a firmware image and stages it to the inactive bank. -/
  | fwstage (block : FwBlock) (image : List Byte) (svn : Nat)
  /-- FWACT (R416): Requests activation of a staged firmware image. -/
  | fwact (block : FwBlock)
  /-- FIRMWARE_ACTIVATION (R416): A staged image activates at the block's quiet point or falls back. -/
  | firmwareActivation (block : FwBlock) (ok : Bool)
  /-- TRETIRE (R412): Names a tile for retirement. -/
  | tretire (tile : Nat)
  /-- SRETIRE (R412): Retires an HBM4 stack not owned by any partition. -/
  | sretire (stack : Nat)
  /-- LASER (R412): Takes a laser slot out or brings it in. -/
  | laser (slot : Nat) (into : Bool)
  /-- EREG (R399): Writes an eyelet's ECFG or reads its ESTAT. -/
  | ereg (e : Nat) (op : EregOp)
  /-- LLOG (R403): Reads a range of the link log. -/
  | llog (first count : Nat)
  /-- SPDM_REQUEST (R417): Answers an SPDM request with signed measurements. -/
  | spdmRequest (nonce : Nat)
  /-- BRING_UP (R418): After reset the module runs its bring-up steps with start and completion records. -/
  | bringUp (report : BringUpReport)
  /-- ILLEGAL_INSTRUCTION (R149): A thread issues a sequencer word that Table 06-9 makes illegal and takes cause 0x01 with the word in TVAL. -/
  | illegalInstruction (w : Word32)
  /-- UNDEFINED_D_WORD (R159): A memory sequencer reaches a D-word with OP 0x12 to 0x3F and halts with cause 0x08, subcode undefined. -/
  | undefinedDWord (w : BitVec 64)
  /-- SUSPEND_HALT_TIMEOUT (R414): A domain halt still in effect 4.5 s after the suspend notice makes every incomplete launch roll back or end aborted. -/
  | suspendHaltTimeout
  /-- SUSPEND_COMPLETE (R414): Step 4 of suspend finishes powering the layers off, and a RESUME that arrived earlier is then performed. -/
  | suspendComplete
  deriving DecidableEq, Repr

end Sys2Proof
end

