-- ==== Sys2Proof/Decode.lean ====
section
/-! DEFINITION. Decoding (spec 06): words to instructions, by the field tables 06-2, 06-10, 06-13 and 06-15 and the opcode
maps 06-6, 06-12, 06-14 and 06-16; every word the maps do not give is refused. After it, the encoder, from the same
tables. A word is taken as the natural number of its bits. -/

namespace Sys2Proof

/-- Bits `lo` to `lo + len - 1` of a word. -/
def bits (w lo len : Nat) : Nat := w / 2 ^ lo % 2 ^ len

/-- The field of `len` bits that begins at bit `lo`. -/
def fieldAt (len w lo : Nat) : BitVec len := BitVec.ofNat len (w / 2 ^ lo)

/-- The instruction when the condition that the tables put on its unused or reserved fields holds. -/
def checked (c : Bool) (i : Instr) : Option Instr := if c then some i else none

/-! ### Sequencer words (Tables 06-2 and 06-6) -/

/-- Op 0x00 of Table 06-6: the fn values and the register fields each uses; unused fields must be 0. -/
def decodeAlu (fn : Nat) (d a b : GReg) (p : PReg) : Option Instr :=
  match fn with
  | 0x00 => some (.add d a b p)
  | 0x01 => some (.sub d a b p)
  | 0x02 => some (.and d a b p)
  | 0x03 => some (.or d a b p)
  | 0x04 => some (.xor d a b p)
  | 0x05 => some (.andn d a b p)
  | 0x06 => some (.shl d a b p)
  | 0x07 => some (.shr d a b p)
  | 0x08 => some (.sar d a b p)
  | 0x09 => some (.rotl d a b p)
  | 0x0a => some (.min d a b p)
  | 0x0b => some (.max d a b p)
  | 0x0c => some (.minu d a b p)
  | 0x0d => some (.maxu d a b p)
  | 0x0e => checked (b == 0) (.clz d a p)
  | 0x0f => checked (b == 0) (.popc d a p)
  | 0x10 => some (.mul d a b p)
  | 0x11 => some (.mulh d a b p)
  | 0x12 => some (.mulhu d a b p)
  | 0x13 => some (.div d a b p)
  | 0x14 => some (.divu d a b p)
  | 0x15 => some (.rem d a b p)
  | 0x16 => some (.remu d a b p)
  | _ => none

/-- Op 0x0e of Table 06-6: the fn values and the register fields each uses; unused fields must be 0. -/
def decodeAddr (fn : Nat) (d a b : GReg) (p : PReg) : Option Instr :=
  match fn with
  | 0x00 => some (.addr1 d a b p)
  | 0x01 => some (.addr2 d a b p)
  | 0x02 => some (.addr4 d a b p)
  | 0x03 => some (.addr8 d a b p)
  | 0x04 => some (.bfx d a b p)
  | 0x05 => some (.bfi d a b p)
  | 0x06 => some (.cpack d a b p)
  | 0x07 => checked (b == 0) (.cunpk d a p)
  | _ => none

/-- Op 0x0f of Table 06-6: the fn values and the register fields each uses; unused fields must be 0. -/
def decodeInfo (fn : Nat) (d a b : GReg) (p : PReg) : Option Instr :=
  match fn with
  | 0x00 => checked (a == 0 && b == 0) (.tileid d p)
  | 0x01 => checked (a == 0 && b == 0) (.thid d p)
  | 0x02 => checked (a == 0 && b == 0) (.ccnt d p)
  | 0x03 => checked (a == 0 && b == 0) (.scnt d p)
  | _ => none

/-- Op 0x14 of Table 06-6: the fn values and the register fields each uses; unused fields must be 0. -/
def decodeThread (fn : Nat) (d a b : GReg) (p : PReg) : Option Instr :=
  match fn with
  | 0x00 => checked (d == 0 && a == 0 && b == 0) (.yield p)
  | 0x01 => checked (d == 0 && a == 0 && b == 0) (.park p)
  | 0x02 => checked (d == 0 && b == 0) (.wake a p)
  | 0x03 => checked (d == 0 && b == 0) (.waitt a p)
  | 0x04 => checked (d == 0 && b == 0) (.waite a p)
  | 0x05 => checked (d == 0 && a == 0 && b == 0) (.haltt p)
  | _ => none

/-- Op 0x22 of Table 06-6: the fn values and the register fields each uses; unused fields must be 0. -/
def decodeFence (fn : Nat) (d a b : GReg) (p : PReg) : Option Instr :=
  match fn with
  | 0x00 => checked (d == 0 && a == 0 && b == 0) (.fenceT p)
  | 0x01 => checked (d == 0 && a == 0 && b == 0) (.fenceC p)
  | 0x02 => checked (d == 0 && a == 0 && b == 0) (.fenceP p)
  | 0x03 => checked (d == 0 && a == 0 && b == 0) (.fenceS p)
  | 0x04 => checked (d == 0 && a == 0 && b == 0) (.drain p)
  | _ => none

/-- Op 0x24 of Table 06-6: the fn values and the register fields each uses; unused fields must be 0. -/
def decodeStrm (fn : Nat) (d a b : GReg) (p : PReg) : Option Instr :=
  match fn with
  | 0x00 => checked (d == 0) (.strmBind a b p)
  | 0x01 => checked (d == 0 && b == 0) (.strmStart a p)
  | 0x02 => checked (d == 0 && b == 0) (.strmCancel a p)
  | 0x03 => checked (b == 0) (.strmStat d a p)
  | 0x04 => some (.scopy d a b p)
  | 0x05 => checked (d == 0) (.vxfer a b p)
  | _ => none

/-- Op 0x25 of Table 06-6: the fn values and the register fields each uses; unused fields must be 0. -/
def decodeLt (fn : Nat) (d a b : GReg) (p : PReg) : Option Instr :=
  match fn with
  | 0x00 => checked (d == 0) (.ltdef a b p)
  | 0x01 => some (.ltld d a b p)
  | 0x02 => some (.ltst d a b p)
  | 0x03 => checked (d == 0) (.ltpf a b p)
  | 0x04 => checked (d == 0) (.lthalo a b p)
  | 0x05 => checked (d == 0 && b == 0) (.ltinv a p)
  | 0x06 => checked (d == 0 && b == 0) (.ltwb a p)
  | 0x07 => some (.ltq d a b p)
  | _ => none

/-- Op 0x26 of Table 06-6: the fn values and the register fields each uses; unused fields must be 0. -/
def decodeColl (fn : Nat) (d a b : GReg) (p : PReg) : Option Instr :=
  match fn with
  | 0x00 => checked (d == 0 && b == 0) (.bar a p)
  | 0x01 => checked (d == 0 && b == 0) (.bara a p)
  | 0x02 => checked (d == 0 && b == 0) (.barw a p)
  | 0x03 => checked (d == 0 && b == 0) (.cstep a p)
  | _ => none

/-- Op 0x28 of Table 06-6: the fn values and the register fields each uses; unused fields must be 0. -/
def decodeFab (fn : Nat) (d a b : GReg) (p : PReg) : Option Instr :=
  match fn with
  | 0x00 => checked (d == 0) (.fload a b p)
  | 0x01 => checked (d == 0) (.fgo a b p)
  | 0x02 => checked (d == 0) (.fphase a b p)
  | 0x03 => checked (d == 0 && b == 0) (.fstop a p)
  | 0x04 => checked (b == 0) (.fstat d a p)
  | _ => none

/-- Op 0x29 of Table 06-6: the fn values and the register fields each uses; unused fields must be 0. -/
def decodeMx (fn : Nat) (d a b : GReg) (p : PReg) : Option Instr :=
  match fn with
  | 0x00 => checked (d == 0) (.mxload a b p)
  | 0x01 => checked (d == 0 && b == 0) (.mxgo a p)
  | 0x02 => checked (d == 0) (.mxdrain a b p)
  | 0x03 => checked (d == 0 && b == 0) (.mxclr a p)
  | 0x04 => checked (b == 0) (.mxstat d a p)
  | _ => none

/-- Op 0x2a of Table 06-6: the fn values and the register fields each uses; unused fields must be 0. -/
def decodeQue (fn : Nat) (d a b : GReg) (p : PReg) : Option Instr :=
  match fn with
  | 0x00 => some (.lnch d a b p)
  | 0x01 => checked (d == 0 && b == 0) (.evsig a p)
  | 0x02 => checked (d == 0 && b == 0) (.evwait a p)
  | _ => none

/-- Op 0x0A CMP: fn names the condition, rd a predicate (Table 06-9). -/
def decodeCmp (fn : Nat) (d a b : GReg) (p : PReg) : Option Instr :=
  checked (decide (fn < 6) && decide (d.toNat < 8)) (.cmp (BitVec.ofNat 3 d.toNat) a b p (BitVec.ofNat 3 fn))

/-- Op 0x0B CMPI: imm13[12:10] names the condition, imm13[9:0] is the operand (Table 06-3). -/
def decodeCmpi (d a : GReg) (p : PReg) (w : Nat) : Option Instr :=
  checked (decide (bits w 10 3 < 6) && decide (d.toNat < 8))
    (.cmpi (BitVec.ofNat 3 d.toNat) a p (fieldAt 3 w 10) (fieldAt 10 w 0))

/-- Op 0x0C PRED: predicate fields have bits [4:3] = 0 (Table 06-9, R182). -/
def decodePred (fn : Nat) (d a b : GReg) (p : PReg) : Option Instr :=
  let pd := BitVec.ofNat 3 d.toNat
  let pa := BitVec.ofNat 3 a.toNat
  let pb := BitVec.ofNat 3 b.toNat
  let two := decide (d.toNat < 8) && decide (a.toNat < 8)
  match fn with
  | 0x00 => checked (two && decide (b.toNat < 8)) (.pand pd pa pb p)
  | 0x01 => checked (two && decide (b.toNat < 8)) (.por pd pa pb p)
  | 0x02 => checked (two && decide (b.toNat < 8)) (.pxor pd pa pb p)
  | 0x03 => checked (two && b == 0) (.pnot pd pa p)
  | 0x04 => checked (two && b == 0) (.pmov pd pa p)
  | 0x05 => checked (a == 0 && b == 0) (.pget d p)
  | _ => none

/-- The I format words with an immediate of 13 bits, ops 0x01 to 0x04, and the shifts, ops 0x05 to 0x07, whose
imm13[12:6] must be 0 (Table 06-3). -/
def decodeImm (op : Nat) (d a : GReg) (p : PReg) (w : Nat) : Option Instr :=
  match op with
  | 0x01 => some (.addi d a p (fieldAt 13 w 0))
  | 0x02 => some (.andi d a p (fieldAt 13 w 0))
  | 0x03 => some (.ori d a p (fieldAt 13 w 0))
  | 0x04 => some (.xori d a p (fieldAt 13 w 0))
  | 0x05 => checked (bits w 6 7 == 0) (.shli d a p (fieldAt 6 w 0))
  | 0x06 => checked (bits w 6 7 == 0) (.shri d a p (fieldAt 6 w 0))
  | 0x07 => checked (bits w 6 7 == 0) (.sari d a p (fieldAt 6 w 0))
  | _ => none

/-- The B format, ops 0x10 and 0x11: pg = 0 with ps = 1 is reserved (R137). -/
def decodeBranch (op w : Nat) : Option Instr :=
  let p := fieldAt 3 w 23
  let n := fieldAt 1 w 22
  let d := fieldAt 22 w 0
  match op with
  | 0x10 => checked (!(p == 0 && n == 1)) (.br p n d)
  | 0x11 => checked (!(p == 0 && n == 1)) (.jal p n d)
  | _ => none

/-- The M format, ops 0x18 to 0x1E (R136, R197, R198). -/
def decodeM (op w : Nat) (d a : GReg) : Option Instr :=
  let p := fieldAt 3 w 13
  let s := fieldAt 2 w 11
  let i := fieldAt 11 w 0
  match op with
  | 0x18 => some (.ld d a p s i)
  | 0x19 => checked (s != 3) (.lds d a p s i)
  | 0x1A => some (.st d a p s i)
  | 0x1B =>
    match s.toNat with
    | 0 => some (.ldf d a p i)
    | 1 => some (.ldfe d a p i)
    | 2 => some (.stef d a p i)
    | _ => some (.stf d a p i)
  | 0x1C =>
    match s.toNat with
    | 0 => checked (d == 0) (.sete a p i)
    | 1 => checked (d == 0) (.setf a p i)
    | 2 => some (.peekf d a p i)
    | _ => none
  | 0x1D => some (.ldg d a p s i)
  | 0x1E => some (.stg d a p s i)
  | _ => none

/-- Table 06-7: OP 0xD to 0xF are reserved, and OP 0x9 to 0xC need W = 0. -/
def atomOp (o : BitVec 4) (w : BitVec 1) : Bool := decide (o.toNat < 9) || (decide (o.toNat < 13) && w == 0)

/-- Ops 0x1F ATOM, 0x20 CAS and 0x21 RED (R143). -/
def decodeAtomic (op fn : Nat) (d a b : GReg) (p : PReg) : Option Instr :=
  let o := fieldAt 4 fn 0
  let wd := fieldAt 1 fn 4
  let g := fieldAt 1 fn 7
  if bits fn 5 2 = 0 then
    match op with
    | 0x1F => checked (atomOp o wd) (.atom d a b p g wd o)
    | 0x20 => checked (o == 0) (.cas d a b p g wd)
    | 0x21 => checked (atomOp o wd && o != 8 && d == 0) (.red a b p g wd o)
    | _ => none
  else none

/-- Op 0x23 MSG: fn[2:0] the operation, fn[7:6] the queue, fn[5:3] = 0 (R142). -/
def decodeMsg (fn : Nat) (d a b : GReg) (p : PReg) : Option Instr :=
  let q := fieldAt 2 fn 6
  if bits fn 3 3 = 0 then
    match bits fn 0 3 with
    | 0 => checked (d == 0 && decide (2 ≤ q.toNat)) (.send a b p q)
    | 1 => checked (d == 0 && decide (2 ≤ q.toNat)) (.sendp a b p q)
    | 2 => checked (a == 0 && b == 0 && decide (q.toNat < 2)) (.qpoll d p q)
    | 3 => checked (a == 0 && b == 0 && decide (q.toNat < 2)) (.qwait d p q)
    | _ => none
  else none

/-- Op 0x30 SYS (Table 06-6): CSRN stands in [20:11] of CSRR and CSRW (R142). -/
def decodeSys (fn w : Nat) (d a b : GReg) (p : PReg) : Option Instr :=
  match fn with
  | 0x00 => some (.csrr d (fieldAt 10 w 11) p)
  | 0x01 => some (.csrw d (fieldAt 10 w 11) p)
  | 0x02 => checked (d == 0 && a == 0 && b == 0) (.tret p)
  | 0x03 => checked (d == 0) (.tlbinv a b p)
  | 0x04 => checked (d == 0 && b == 0) (.cutm a p)
  | 0x05 => checked (d == 0) (.cfgld a b p)
  | 0x06 => checked (d == 0 && a == 0 && b == 0) (.haltc p)
  | _ => none

/-- A sequencer instruction of one word (Table 06-6); none for every word of Table 06-9, for LIX and for the prefixes. -/
def decodeSeqWord (w : Nat) : Option Instr :=
  let d := fieldAt 5 w 21
  let a := fieldAt 5 w 16
  let b := fieldAt 5 w 11
  let pr := fieldAt 3 w 8
  let pi := fieldAt 3 w 13
  let fn := bits w 0 8
  match bits w 26 6 with
  | 0x00 => decodeAlu fn d a b pr
  | 0x01 => decodeImm 0x01 d a pi w
  | 0x02 => decodeImm 0x02 d a pi w
  | 0x03 => decodeImm 0x03 d a pi w
  | 0x04 => decodeImm 0x04 d a pi w
  | 0x05 => decodeImm 0x05 d a pi w
  | 0x06 => decodeImm 0x06 d a pi w
  | 0x07 => decodeImm 0x07 d a pi w
  | 0x08 => some (.lui d (fieldAt 3 w 18) (fieldAt 18 w 0))
  | 0x0A => decodeCmp fn d a b pr
  | 0x0B => decodeCmpi d a pi w
  | 0x0C => decodePred fn d a b pr
  | 0x0D => checked (fn == 0) (.sel d a b pr)
  | 0x0E => decodeAddr fn d a b pr
  | 0x0F => decodeInfo fn d a b pr
  | 0x10 => decodeBranch 0x10 w
  | 0x11 => decodeBranch 0x11 w
  | 0x12 => some (.jalr d a pi (fieldAt 13 w 0))
  | 0x13 => checked (a == 0) (.loop d pi (fieldAt 13 w 0))
  | 0x14 => decodeThread fn d a b pr
  | 0x18 => decodeM 0x18 w d a
  | 0x19 => decodeM 0x19 w d a
  | 0x1A => decodeM 0x1A w d a
  | 0x1B => decodeM 0x1B w d a
  | 0x1C => decodeM 0x1C w d a
  | 0x1D => decodeM 0x1D w d a
  | 0x1E => decodeM 0x1E w d a
  | 0x1F => decodeAtomic 0x1F fn d a b pr
  | 0x20 => decodeAtomic 0x20 fn d a b pr
  | 0x21 => decodeAtomic 0x21 fn d a b pr
  | 0x22 => decodeFence fn d a b pr
  | 0x23 => decodeMsg fn d a b pr
  | 0x24 => decodeStrm fn d a b pr
  | 0x25 => decodeLt fn d a b pr
  | 0x26 => decodeColl fn d a b pr
  | 0x27 => checked (fn == 0) (.rndk d a b pr)
  | 0x28 => decodeFab fn d a b pr
  | 0x29 => decodeMx fn d a b pr
  | 0x2A => decodeQue fn d a b pr
  | 0x30 => decodeSys fn w d a b pr
  | 0x31 => checked (d == 0) (.trap (fieldAt 3 w 18) (fieldAt 18 w 0))
  | _ => none

/-- The opcodes whose words an RPT may prefix (R145). -/
def rptOpcode (op : Nat) : Bool :=
  decide (op < 8) || op == 0x0D || op == 0x0E || op == 0x18 || op == 0x19 || op == 0x1A || op == 0x1D || op == 0x1E ||
    op == 0x21 || op == 0x27

/-- I-format and M-format opcodes among them: srb must be 0 (R145). -/
def rptImmediate (op : Nat) : Bool :=
  (decide (1 ≤ op) && decide (op < 8)) || op == 0x18 || op == 0x19 || op == 0x1A || op == 0x1D || op == 0x1E

/-- LD, LDS and ST, the words that may carry both prefixes (R145). -/
def rptRelaxed (op : Nat) : Bool := op == 0x18 || op == 0x19 || op == 0x1A

/-- R145, R146: the prefixed word `w` is permitted, the strides are allowed, and no register number of the last
repetition exceeds 31 in a field that the word's format has. -/
def rptAllowed (count : Nat) (srd sra srb : BitVec 3) (relaxed : Bool) (w : Nat) : Bool :=
  let op := bits w 26 6
  let last := count - 1
  (if relaxed then rptRelaxed op else rptOpcode op) &&
    !(rptImmediate op && srb != 0) && !(op == 0x21 && srd != 0) &&
    (count == 0 || (decide (bits w 21 5 + last * srd.toNat < 32) && decide (bits w 16 5 + last * sra.toNat < 32) &&
      (rptImmediate op || decide (bits w 11 5 + last * srb.toNat < 32))))

/-- LD, LDS, ST and PEEKF, the words that RLX prefixes, and the FE words that raise cause 0x0A behind it (R144). -/
def rlxAllowed (i : Instr) : Bool :=
  match i with
  | .ld _ _ _ _ _ | .lds _ _ _ _ _ | .st _ _ _ _ _ | .peekf _ _ _ _ => true
  | .ldf _ _ _ _ | .ldfe _ _ _ _ | .stef _ _ _ _ | .stf _ _ _ _ | .sete _ _ _ | .setf _ _ _ => true
  | _ => false

/-- What a sequencer reads at its pc: an instruction and its number of words, the first illegal word (R149), or an
instruction that needs a word outside the program (R133), by its index. -/
inductive SeqRead where
  | instr (i : Instr) (words : Nat)
  | illegal (w : Word32)
  | missing (n : Nat)
  deriving DecidableEq, Repr

/-- RLX and the word behind it (R144); `rest` are the words after the prefix. -/
def decodeRlx (w0 : Word32) (rest : List Word32) : SeqRead :=
  match rest with
  | [] => .illegal w0
  | w1 :: _ =>
    if bits w1.toNat 26 6 = 0x3C ∨ bits w1.toNat 26 6 = 0x3D ∨ bits w1.toNat 26 6 = 0x09 then
      .illegal w0
    else
      match decodeSeqWord w1.toNat with
      | none => .illegal w1
      | some i => if rlxAllowed i then .instr (.rlx w1) 2 else .illegal w0

/-- RPT and the words behind it (R145, R146). -/
def decodeRpt (w0 : Word32) (rest : List Word32) : SeqRead :=
  let w := w0.toNat
  let count := fieldAt 10 w 16
  let srd := fieldAt 3 w 13
  let sra := fieldAt 3 w 10
  let srb := fieldAt 3 w 7
  match rest with
  | [] => .illegal w0
  | w1 :: rest2 =>
    if bits w1.toNat 26 6 = 0x3D then
      if bits w1.toNat 0 26 ≠ 0 then .illegal w1
      else
        match decodeRlx w1 rest2 with
        | .illegal x => .illegal x
        | .missing n => .missing n
        | .instr _ _ =>
          match rest2 with
          | [] => .illegal w1
          | w2 :: _ =>
            if rptAllowed count.toNat srd sra srb true w2.toNat then .instr (.rpt count srd sra srb true w2) 3
            else .illegal w0
    else
      if bits w1.toNat 26 6 = 0x3C ∨ bits w1.toNat 26 6 = 0x09 then .illegal w0
      else
        match decodeSeqWord w1.toNat with
        | none => .illegal w1
        | some _ =>
          if rptAllowed count.toNat srd sra srb false w1.toNat then .instr (.rpt count srd sra srb false w1) 2
          else .illegal w0

/-- A sequencer instruction from the words at the pc (R134, R144, R145, R148, R149). -/
def decodeSeq (ws : List Word32) : SeqRead :=
  match ws with
  | [] => .missing 0
  | w0 :: rest =>
    let w := w0.toNat
    if bits w 26 6 = 0x09 then
      if bits w 0 18 ≠ 0 then .illegal w0
      else
        match rest with
        | [] => .missing 1
        | w1 :: _ => .instr (.lix (fieldAt 5 w 21) (fieldAt 3 w 18) w1) 2
    else if bits w 26 6 = 0x3C then
      if bits w 0 7 ≠ 0 then .illegal w0 else decodeRpt w0 rest
    else if bits w 26 6 = 0x3D then
      if bits w 0 26 ≠ 0 then .illegal w0 else decodeRlx w0 rest
    else
      match decodeSeqWord w with
      | some i => .instr i 1
      | none => .illegal w0

/-! ### Fabric words (Tables 06-10 to 06-12) -/

/-- A fabric op word (R150, R152). A source that the op does not read is code 31, WE = 0 on NOP, PST and PRED, and
PLD, PST and PRED do not use code 30 (R155). -/
def decodeFabric (v : Nat) : Option Instr :=
  let s := fieldAt 3 v 15
  let a := fieldAt 5 v 10
  let b := fieldAt 5 v 5
  let d := fieldAt 4 v 1
  let w := fieldAt 1 v 0
  match bits v 18 6 with
  | 0x00 => checked (a == 31 && b == 31 && w == 0) (.nop s d)
  | 0x01 => checked (b == 31) (.mov s a d w)
  | 0x02 => some (.selp s a b d w)
  | 0x04 => some (.fadd s a b d w)
  | 0x05 => some (.fsub s a b d w)
  | 0x06 => some (.fmul s a b d w)
  | 0x07 => some (.ffma s a b d w)
  | 0x08 => some (.fmin s a b d w)
  | 0x09 => some (.fmax s a b d w)
  | 0x0a => checked (b == 31) (.fabs s a d w)
  | 0x0b => checked (b == 31) (.fneg s a d w)
  | 0x0c => some (.fcmplt s a b d w)
  | 0x0d => some (.fcmpeq s a b d w)
  | 0x10 => some (.hadd2 s a b d w)
  | 0x11 => some (.hmul2 s a b d w)
  | 0x12 => some (.hfma2 s a b d w)
  | 0x13 => some (.hmax2 s a b d w)
  | 0x18 => some (.iadd s a b d w)
  | 0x19 => some (.isub s a b d w)
  | 0x1a => some (.imul s a b d w)
  | 0x1b => some (.imad s a b d w)
  | 0x1c => some (.iand s a b d w)
  | 0x1d => some (.ior s a b d w)
  | 0x1e => some (.ixor s a b d w)
  | 0x1f => some (.ishl s a b d w)
  | 0x20 => some (.ishr s a b d w)
  | 0x21 => some (.isar s a b d w)
  | 0x22 => some (.imin s a b d w)
  | 0x23 => some (.imax s a b d w)
  | 0x24 => some (.icmplt s a b d w)
  | 0x25 => some (.icmpeq s a b d w)
  | 0x28 => checked (b == 31) (.cvtif s a d w)
  | 0x29 => checked (b == 31) (.cvtfi s a d w)
  | 0x2a => checked (b == 31) (.cvtbf s a d w)
  | 0x2b => some (.cvtbfs s a b d w)
  | 0x2c => checked (b == 31) (.cvte4 s a d w)
  | 0x2d => checked (b == 31) (.cvte5 s a d w)
  | 0x2e => some (.cvte4s s a b d w)
  | 0x2f => some (.pack2 s a b d w)
  | 0x30 => checked (b == 31) (.unpk s a d w)
  | 0x34 => checked (b == 31) (.frcp s a d w)
  | 0x35 => checked (b == 31) (.frsq s a d w)
  | 0x36 => checked (b == 31) (.fexp2 s a d w)
  | 0x37 => checked (b == 31) (.flog2 s a d w)
  | 0x38 => some (.prnd s a b d w)
  | 0x3a => checked (b == 31 && a != 30) (.pld s a d w)
  | 0x3b => checked (w == 0 && a != 30 && b != 30) (.pst s a b d)
  | 0x3c => checked (b == 31 && w == 0 && a != 30) (.pred s a d)
  | 0x3e => some (.jnx s a b d w)
  | 0x3f => some (.jnu s a b d w)
  | _ => none

/-- The route word (R153): every one of its 65,536 values is a route. -/
def decodeRoute (v : Nat) : Instr :=
  .route (fieldAt 4 v 12) (fieldAt 4 v 8) (fieldAt 4 v 4) (fieldAt 4 v 0)

/-! ### Matrix words (Tables 06-13 and 06-14) -/

/-- The activation formats that Table 06-13 lists. -/
def matrixFormat (f : BitVec 5) : Bool := f == 0x02 || f == 0x10 || f == 0x11

/-- A matrix word (R156); fields the op does not use are 0, and AFMT, OFMT and SRND meet R157. -/
def decodeMatrix (w : Nat) : Option Instr :=
  let slot := fieldAt 8 w 50
  let a := fieldAt 4 w 46
  let b := fieldAt 4 w 42
  let acc := fieldAt 4 w 38
  let vc := fieldAt 5 w 33
  let afmt := fieldAt 5 w 28
  let tsel := fieldAt 4 w 24
  let ofmt := fieldAt 2 w 22
  let srnd := fieldAt 1 w 21
  let rel := fieldAt 1 w 20
  let sig := fieldAt 4 w 16
  match bits w 58 6 with
  | 0x00 => checked (bits w 0 50 == 0) (.mnop slot)
  | 0x01 => checked (matrixFormat afmt && bits w 21 7 == 0 && bits w 0 20 == 0) (.mma slot a b acc vc afmt rel)
  | 0x02 => checked (matrixFormat afmt && bits w 21 7 == 0 && bits w 0 20 == 0) (.mmas slot a b acc vc afmt rel)
  | 0x03 => checked (bits w 42 8 == 0 && bits w 0 38 == 0) (.mzero slot acc)
  | 0x04 => checked (bits w 20 30 == 0 && bits w 0 16 == 0) (.msig slot sig)
  | 0x05 => checked (bits w 20 30 == 0 && bits w 0 16 == 0) (.mwait slot sig)
  | 0x06 =>
    checked (bits w 42 8 == 0 && bits w 28 10 == 0 && bits w 0 21 == 0 && ofmt != 3 && !(srnd == 1 && ofmt == 0))
      (.mdrain slot acc tsel ofmt srnd)
  | 0x07 => checked (bits w 0 50 == 0) (.mend slot)
  | _ => none

/-! ### D-words (Tables 06-15 and 06-16, Table 09-8) -/

/-- A D-word; none when OP is 0x12 to 0x3F or a field that the op does not use is not 0 (R159). -/
def decodeD (w : Nat) : Option Instr :=
  let delta := fieldAt 12 w 46
  let ch := fieldAt 5 w 41
  let pc := fieldAt 1 w 40
  let bg := fieldAt 2 w 38
  let ba := fieldAt 2 w 36
  let row := fieldAt 15 w 18
  let col := fieldAt 6 w 11
  let lkind := fieldAt 2 w 9
  let lidx := fieldAt 6 w 3
  let none_ := bits w 0 41 == 0
  let bank := bits w 0 36 == 0
  let data := bits w 33 3 == 0 && bits w 17 1 == 0
  match bits w 58 6 with
  | 0x00 => checked none_ (.dnop delta ch)
  | 0x01 => checked (bits w 33 3 == 0 && bits w 0 18 == 0) (.dact delta ch pc bg ba row)
  | 0x02 => checked bank (.dpre delta ch pc bg ba)
  | 0x03 => checked (bits w 0 40 == 0) (.dprea delta ch pc)
  | 0x04 => checked (data && bits w 1 2 == 0) (.drd delta ch pc bg ba row col lkind lidx (fieldAt 1 w 0))
  | 0x05 => checked (data && bits w 1 2 == 0) (.drda delta ch pc bg ba row col lkind lidx (fieldAt 1 w 0))
  | 0x06 => checked (data && bits w 0 3 == 0) (.dwr delta ch pc bg ba row col lkind lidx)
  | 0x07 => checked (data && bits w 0 3 == 0) (.dwra delta ch pc bg ba row col lkind lidx)
  | 0x08 => checked (bits w 0 40 == 0) (.drefab delta ch pc)
  | 0x09 => checked bank (.drefpb delta ch pc bg ba)
  | 0x0A => checked bank (.drfm delta ch pc bg ba)
  | 0x0B => checked none_ (.dsre delta ch)
  | 0x0C => checked none_ (.dsrx delta ch)
  | 0x0D => checked (bits w 1 40 == 0) (.dframe delta ch (fieldAt 1 w 0))
  | 0x0E => checked (bits w 17 24 == 0 && bits w 0 11 == 0) (.ddem delta ch col)
  | 0x0F => checked (bits w 33 8 == 0 && bits w 0 18 == 0) (.dloop delta ch row)
  | 0x10 => checked none_ (.dend delta ch)
  | 0x11 => checked (bits w 33 7 == 0 && bits w 0 18 == 0) (.dmrs delta ch pc (fieldAt 7 w 26) (fieldAt 8 w 18))
  | _ => none

/-! ### The word families (R132) -/

/-- The families of Table 06-1 that hold instructions. -/
inductive Family where
  | sequencer | fabric | route | matrix | command
  deriving DecidableEq, Repr

/-- The 32-bit words of a number, first word least significant. -/
def wordsOf (n w : Nat) : List Word32 :=
  match n with
  | 0 => []
  | n + 1 => BitVec.ofNat 32 w :: wordsOf n (w / 2 ^ 32)

/-- The instruction that the unit of a family reads from the word `w`, sequencer words with `n` words of program from
the pc. Nothing for an illegal word. -/
def decodeFamily (f : Family) (n w : Nat) : Option Instr :=
  match f with
  | .sequencer =>
    match decodeSeq (wordsOf n w) with
    | .instr i _ => some i
    | _ => none
  | .fabric => decodeFabric w
  | .route => some (decodeRoute w)
  | .matrix => decodeMatrix w
  | .command => decodeD w

/-- The instruction whose bits are `w` as spec/opcode_table.json numbers them: 32 and 64 bits for sequencer words, 24
for fabric ops, 16 for route words, 64 for matrix words and D-words. -/
def decodeTableWord (nbits w : Nat) : Option Instr :=
  if nbits = 24 then decodeFabric w
  else if nbits = 16 then some (decodeRoute w)
  else if nbits = 32 then decodeFamily .sequencer 3 w
  else if nbits = 64 then
    match decodeFamily .sequencer 2 w with
    | some (.lix d p i) => some (.lix d p i)
    | some (.rpt c x y z r v) => some (.rpt c x y z r v)
    | some (.rlx v) => some (.rlx v)
    | _ =>
      match decodeMatrix w with
      | some i => some i
      | none => decodeD w
  else none

/-! ### The encoder, from the same tables -/

/-- R format: op[31:26] rd[25:21] ra[20:16] rb[15:11] pg[10:8] fn[7:0]. -/
def encR (op d a b p fn : Nat) : Nat := op * 2 ^ 26 + d * 2 ^ 21 + a * 2 ^ 16 + b * 2 ^ 11 + p * 2 ^ 8 + fn
/-- I format: op[31:26] rd[25:21] ra[20:16] pg[15:13] imm13[12:0]. -/
def encI (op d a p imm : Nat) : Nat := op * 2 ^ 26 + d * 2 ^ 21 + a * 2 ^ 16 + p * 2 ^ 13 + imm
/-- U format: op[31:26] rd[25:21] pg[20:18] imm18[17:0]. -/
def encU (op d p imm : Nat) : Nat := op * 2 ^ 26 + d * 2 ^ 21 + p * 2 ^ 18 + imm
/-- B format: op[31:26] pg[25:23] ps[22] disp22[21:0]. -/
def encB (op p n disp : Nat) : Nat := op * 2 ^ 26 + p * 2 ^ 23 + n * 2 ^ 22 + disp
/-- M format: op[31:26] rd[25:21] ra[20:16] pg[15:13] sz[12:11] imm11[10:0]. -/
def encM (op d a p s imm : Nat) : Nat := op * 2 ^ 26 + d * 2 ^ 21 + a * 2 ^ 16 + p * 2 ^ 13 + s * 2 ^ 11 + imm
/-- Fabric op word: OP[23:18] STAGE[17:15] SRCA[14:10] SRCB[9:5] DST[4:1] WE[0]. -/
def encF (op s a b d w : Nat) : Nat := op * 2 ^ 18 + s * 2 ^ 15 + a * 2 ^ 10 + b * 2 ^ 5 + d * 2 + w
/-- D-word: OP[63:58] DELTA[57:46] CH[45:41] PC[40] BG[39:38] BA[37:36] ROW[35:18] COL[17:11] LKIND[10:9] LIDX[8:3] FLAGS[2:0]. -/
def encD (op delta ch pc bg ba row col lkind lidx flags : Nat) : Nat :=
  op * 2 ^ 58 + delta * 2 ^ 46 + ch * 2 ^ 41 + pc * 2 ^ 40 + bg * 2 ^ 38 + ba * 2 ^ 36 + row * 2 ^ 18 + col * 2 ^ 11 +
    lkind * 2 ^ 9 + lidx * 2 ^ 3 + flags
/-- Matrix word: OP[63:58] SLOT[57:50] ABUF[49:46] BBUF[45:42] AT[41:38] VC[37:33] AFMT[32:28] TSEL[27:24] OFMT[23:22]
SRND[21] REL[20] SIG[19:16]. -/
def encX (op slot a b acc vc afmt tsel ofmt srnd rel sig : Nat) : Nat :=
  op * 2 ^ 58 + slot * 2 ^ 50 + a * 2 ^ 46 + b * 2 ^ 42 + acc * 2 ^ 38 + vc * 2 ^ 33 + afmt * 2 ^ 28 + tsel * 2 ^ 24 +
    ofmt * 2 ^ 22 + srnd * 2 ^ 21 + rel * 2 ^ 20 + sig * 2 ^ 16
/-- An instruction word in its family and the number of 32-bit words of a sequencer instruction. -/
def enc (f : Family) (n w : Nat) : Option (Family × Nat × Nat) := some (f, n, w)

/-- The encoding of a well-formed instruction: its family, its number of 32-bit words and its bits, the first word
least significant. Events have none. -/
def encode (i : Instr) : Option (Family × Nat × Nat) :=
  match i with
  | .add d a b p => enc .sequencer 1 (encR 0x00 d.toNat a.toNat b.toNat p.toNat 0x00)
  | .sub d a b p => enc .sequencer 1 (encR 0x00 d.toNat a.toNat b.toNat p.toNat 0x01)
  | .and d a b p => enc .sequencer 1 (encR 0x00 d.toNat a.toNat b.toNat p.toNat 0x02)
  | .or d a b p => enc .sequencer 1 (encR 0x00 d.toNat a.toNat b.toNat p.toNat 0x03)
  | .xor d a b p => enc .sequencer 1 (encR 0x00 d.toNat a.toNat b.toNat p.toNat 0x04)
  | .andn d a b p => enc .sequencer 1 (encR 0x00 d.toNat a.toNat b.toNat p.toNat 0x05)
  | .shl d a b p => enc .sequencer 1 (encR 0x00 d.toNat a.toNat b.toNat p.toNat 0x06)
  | .shr d a b p => enc .sequencer 1 (encR 0x00 d.toNat a.toNat b.toNat p.toNat 0x07)
  | .sar d a b p => enc .sequencer 1 (encR 0x00 d.toNat a.toNat b.toNat p.toNat 0x08)
  | .rotl d a b p => enc .sequencer 1 (encR 0x00 d.toNat a.toNat b.toNat p.toNat 0x09)
  | .min d a b p => enc .sequencer 1 (encR 0x00 d.toNat a.toNat b.toNat p.toNat 0x0a)
  | .max d a b p => enc .sequencer 1 (encR 0x00 d.toNat a.toNat b.toNat p.toNat 0x0b)
  | .minu d a b p => enc .sequencer 1 (encR 0x00 d.toNat a.toNat b.toNat p.toNat 0x0c)
  | .maxu d a b p => enc .sequencer 1 (encR 0x00 d.toNat a.toNat b.toNat p.toNat 0x0d)
  | .clz d a p => enc .sequencer 1 (encR 0x00 d.toNat a.toNat 0 p.toNat 0x0e)
  | .popc d a p => enc .sequencer 1 (encR 0x00 d.toNat a.toNat 0 p.toNat 0x0f)
  | .mul d a b p => enc .sequencer 1 (encR 0x00 d.toNat a.toNat b.toNat p.toNat 0x10)
  | .mulh d a b p => enc .sequencer 1 (encR 0x00 d.toNat a.toNat b.toNat p.toNat 0x11)
  | .mulhu d a b p => enc .sequencer 1 (encR 0x00 d.toNat a.toNat b.toNat p.toNat 0x12)
  | .div d a b p => enc .sequencer 1 (encR 0x00 d.toNat a.toNat b.toNat p.toNat 0x13)
  | .divu d a b p => enc .sequencer 1 (encR 0x00 d.toNat a.toNat b.toNat p.toNat 0x14)
  | .rem d a b p => enc .sequencer 1 (encR 0x00 d.toNat a.toNat b.toNat p.toNat 0x15)
  | .remu d a b p => enc .sequencer 1 (encR 0x00 d.toNat a.toNat b.toNat p.toNat 0x16)
  | .addi d a p i => enc .sequencer 1 (encI 0x01 d.toNat a.toNat p.toNat i.toNat)
  | .andi d a p i => enc .sequencer 1 (encI 0x02 d.toNat a.toNat p.toNat i.toNat)
  | .ori d a p i => enc .sequencer 1 (encI 0x03 d.toNat a.toNat p.toNat i.toNat)
  | .xori d a p i => enc .sequencer 1 (encI 0x04 d.toNat a.toNat p.toNat i.toNat)
  | .shli d a p i => enc .sequencer 1 (encI 0x05 d.toNat a.toNat p.toNat i.toNat)
  | .shri d a p i => enc .sequencer 1 (encI 0x06 d.toNat a.toNat p.toNat i.toNat)
  | .sari d a p i => enc .sequencer 1 (encI 0x07 d.toNat a.toNat p.toNat i.toNat)
  | .lui d p i => enc .sequencer 1 (encU 0x08 d.toNat p.toNat i.toNat)
  | .lix d p i => enc .sequencer 2 (encU 0x09 d.toNat p.toNat 0 + i.toNat * 2 ^ 32)
  | .cmp d a b p c => enc .sequencer 1 (encR 0x0A d.toNat a.toNat b.toNat p.toNat c.toNat)
  | .cmpi d a p c i => enc .sequencer 1 (encI 0x0B d.toNat a.toNat p.toNat (c.toNat * 2 ^ 10 + i.toNat))
  | .pand d a b p => enc .sequencer 1 (encR 0x0C d.toNat a.toNat b.toNat p.toNat 0)
  | .por d a b p => enc .sequencer 1 (encR 0x0C d.toNat a.toNat b.toNat p.toNat 1)
  | .pxor d a b p => enc .sequencer 1 (encR 0x0C d.toNat a.toNat b.toNat p.toNat 2)
  | .pnot d a p => enc .sequencer 1 (encR 0x0C d.toNat a.toNat 0 p.toNat 3)
  | .pmov d a p => enc .sequencer 1 (encR 0x0C d.toNat a.toNat 0 p.toNat 4)
  | .pget d p => enc .sequencer 1 (encR 0x0C d.toNat 0 0 p.toNat 5)
  | .sel d a b p => enc .sequencer 1 (encR 0x0D d.toNat a.toNat b.toNat p.toNat 0)
  | .addr1 d a b p => enc .sequencer 1 (encR 0x0e d.toNat a.toNat b.toNat p.toNat 0x00)
  | .addr2 d a b p => enc .sequencer 1 (encR 0x0e d.toNat a.toNat b.toNat p.toNat 0x01)
  | .addr4 d a b p => enc .sequencer 1 (encR 0x0e d.toNat a.toNat b.toNat p.toNat 0x02)
  | .addr8 d a b p => enc .sequencer 1 (encR 0x0e d.toNat a.toNat b.toNat p.toNat 0x03)
  | .bfx d a b p => enc .sequencer 1 (encR 0x0e d.toNat a.toNat b.toNat p.toNat 0x04)
  | .bfi d a b p => enc .sequencer 1 (encR 0x0e d.toNat a.toNat b.toNat p.toNat 0x05)
  | .cpack d a b p => enc .sequencer 1 (encR 0x0e d.toNat a.toNat b.toNat p.toNat 0x06)
  | .cunpk d a p => enc .sequencer 1 (encR 0x0e d.toNat a.toNat 0 p.toNat 0x07)
  | .tileid d p => enc .sequencer 1 (encR 0x0f d.toNat 0 0 p.toNat 0x00)
  | .thid d p => enc .sequencer 1 (encR 0x0f d.toNat 0 0 p.toNat 0x01)
  | .ccnt d p => enc .sequencer 1 (encR 0x0f d.toNat 0 0 p.toNat 0x02)
  | .scnt d p => enc .sequencer 1 (encR 0x0f d.toNat 0 0 p.toNat 0x03)
  | .br p n d => enc .sequencer 1 (encB 0x10 p.toNat n.toNat d.toNat)
  | .jal p n d => enc .sequencer 1 (encB 0x11 p.toNat n.toNat d.toNat)
  | .jalr d a p i => enc .sequencer 1 (encI 0x12 d.toNat a.toNat p.toNat i.toNat)
  | .loop d p i => enc .sequencer 1 (encI 0x13 d.toNat 0 p.toNat i.toNat)
  | .yield p => enc .sequencer 1 (encR 0x14 0 0 0 p.toNat 0x00)
  | .park p => enc .sequencer 1 (encR 0x14 0 0 0 p.toNat 0x01)
  | .wake a p => enc .sequencer 1 (encR 0x14 0 a.toNat 0 p.toNat 0x02)
  | .waitt a p => enc .sequencer 1 (encR 0x14 0 a.toNat 0 p.toNat 0x03)
  | .waite a p => enc .sequencer 1 (encR 0x14 0 a.toNat 0 p.toNat 0x04)
  | .haltt p => enc .sequencer 1 (encR 0x14 0 0 0 p.toNat 0x05)
  | .ld d a p s i => enc .sequencer 1 (encM 0x18 d.toNat a.toNat p.toNat s.toNat i.toNat)
  | .lds d a p s i => enc .sequencer 1 (encM 0x19 d.toNat a.toNat p.toNat s.toNat i.toNat)
  | .st d a p s i => enc .sequencer 1 (encM 0x1a d.toNat a.toNat p.toNat s.toNat i.toNat)
  | .ldf d a p i => enc .sequencer 1 (encM 0x1b d.toNat a.toNat p.toNat 0 i.toNat)
  | .ldfe d a p i => enc .sequencer 1 (encM 0x1b d.toNat a.toNat p.toNat 1 i.toNat)
  | .stef d a p i => enc .sequencer 1 (encM 0x1b d.toNat a.toNat p.toNat 2 i.toNat)
  | .stf d a p i => enc .sequencer 1 (encM 0x1b d.toNat a.toNat p.toNat 3 i.toNat)
  | .sete a p i => enc .sequencer 1 (encM 0x1C 0 a.toNat p.toNat 0 i.toNat)
  | .setf a p i => enc .sequencer 1 (encM 0x1C 0 a.toNat p.toNat 1 i.toNat)
  | .peekf d a p i => enc .sequencer 1 (encM 0x1c d.toNat a.toNat p.toNat 2 i.toNat)
  | .ldg d a p s i => enc .sequencer 1 (encM 0x1d d.toNat a.toNat p.toNat s.toNat i.toNat)
  | .stg d a p s i => enc .sequencer 1 (encM 0x1e d.toNat a.toNat p.toNat s.toNat i.toNat)
  | .atom d a b p g w o => enc .sequencer 1 (encR 0x1F d.toNat a.toNat b.toNat p.toNat (g.toNat * 2 ^ 7 + w.toNat * 2 ^ 4 + o.toNat))
  | .cas d a b p g w => enc .sequencer 1 (encR 0x20 d.toNat a.toNat b.toNat p.toNat (g.toNat * 2 ^ 7 + w.toNat * 2 ^ 4))
  | .red a b p g w o => enc .sequencer 1 (encR 0x21 0 a.toNat b.toNat p.toNat (g.toNat * 2 ^ 7 + w.toNat * 2 ^ 4 + o.toNat))
  | .fenceT p => enc .sequencer 1 (encR 0x22 0 0 0 p.toNat 0x00)
  | .fenceC p => enc .sequencer 1 (encR 0x22 0 0 0 p.toNat 0x01)
  | .fenceP p => enc .sequencer 1 (encR 0x22 0 0 0 p.toNat 0x02)
  | .fenceS p => enc .sequencer 1 (encR 0x22 0 0 0 p.toNat 0x03)
  | .drain p => enc .sequencer 1 (encR 0x22 0 0 0 p.toNat 0x04)
  | .send a b p q => enc .sequencer 1 (encR 0x23 0 a.toNat b.toNat p.toNat (q.toNat * 2 ^ 6))
  | .sendp a b p q => enc .sequencer 1 (encR 0x23 0 a.toNat b.toNat p.toNat (q.toNat * 2 ^ 6 + 1))
  | .qpoll d p q => enc .sequencer 1 (encR 0x23 d.toNat 0 0 p.toNat (q.toNat * 2 ^ 6 + 2))
  | .qwait d p q => enc .sequencer 1 (encR 0x23 d.toNat 0 0 p.toNat (q.toNat * 2 ^ 6 + 3))
  | .strmBind a b p => enc .sequencer 1 (encR 0x24 0 a.toNat b.toNat p.toNat 0x00)
  | .strmStart a p => enc .sequencer 1 (encR 0x24 0 a.toNat 0 p.toNat 0x01)
  | .strmCancel a p => enc .sequencer 1 (encR 0x24 0 a.toNat 0 p.toNat 0x02)
  | .strmStat d a p => enc .sequencer 1 (encR 0x24 d.toNat a.toNat 0 p.toNat 0x03)
  | .scopy d a b p => enc .sequencer 1 (encR 0x24 d.toNat a.toNat b.toNat p.toNat 0x04)
  | .vxfer a b p => enc .sequencer 1 (encR 0x24 0 a.toNat b.toNat p.toNat 0x05)
  | .ltdef a b p => enc .sequencer 1 (encR 0x25 0 a.toNat b.toNat p.toNat 0x00)
  | .ltld d a b p => enc .sequencer 1 (encR 0x25 d.toNat a.toNat b.toNat p.toNat 0x01)
  | .ltst d a b p => enc .sequencer 1 (encR 0x25 d.toNat a.toNat b.toNat p.toNat 0x02)
  | .ltpf a b p => enc .sequencer 1 (encR 0x25 0 a.toNat b.toNat p.toNat 0x03)
  | .lthalo a b p => enc .sequencer 1 (encR 0x25 0 a.toNat b.toNat p.toNat 0x04)
  | .ltinv a p => enc .sequencer 1 (encR 0x25 0 a.toNat 0 p.toNat 0x05)
  | .ltwb a p => enc .sequencer 1 (encR 0x25 0 a.toNat 0 p.toNat 0x06)
  | .ltq d a b p => enc .sequencer 1 (encR 0x25 d.toNat a.toNat b.toNat p.toNat 0x07)
  | .bar a p => enc .sequencer 1 (encR 0x26 0 a.toNat 0 p.toNat 0x00)
  | .bara a p => enc .sequencer 1 (encR 0x26 0 a.toNat 0 p.toNat 0x01)
  | .barw a p => enc .sequencer 1 (encR 0x26 0 a.toNat 0 p.toNat 0x02)
  | .cstep a p => enc .sequencer 1 (encR 0x26 0 a.toNat 0 p.toNat 0x03)
  | .rndk d a b p => enc .sequencer 1 (encR 0x27 d.toNat a.toNat b.toNat p.toNat 0)
  | .fload a b p => enc .sequencer 1 (encR 0x28 0 a.toNat b.toNat p.toNat 0x00)
  | .fgo a b p => enc .sequencer 1 (encR 0x28 0 a.toNat b.toNat p.toNat 0x01)
  | .fphase a b p => enc .sequencer 1 (encR 0x28 0 a.toNat b.toNat p.toNat 0x02)
  | .fstop a p => enc .sequencer 1 (encR 0x28 0 a.toNat 0 p.toNat 0x03)
  | .fstat d a p => enc .sequencer 1 (encR 0x28 d.toNat a.toNat 0 p.toNat 0x04)
  | .mxload a b p => enc .sequencer 1 (encR 0x29 0 a.toNat b.toNat p.toNat 0x00)
  | .mxgo a p => enc .sequencer 1 (encR 0x29 0 a.toNat 0 p.toNat 0x01)
  | .mxdrain a b p => enc .sequencer 1 (encR 0x29 0 a.toNat b.toNat p.toNat 0x02)
  | .mxclr a p => enc .sequencer 1 (encR 0x29 0 a.toNat 0 p.toNat 0x03)
  | .mxstat d a p => enc .sequencer 1 (encR 0x29 d.toNat a.toNat 0 p.toNat 0x04)
  | .lnch d a b p => enc .sequencer 1 (encR 0x2a d.toNat a.toNat b.toNat p.toNat 0x00)
  | .evsig a p => enc .sequencer 1 (encR 0x2a 0 a.toNat 0 p.toNat 0x01)
  | .evwait a p => enc .sequencer 1 (encR 0x2a 0 a.toNat 0 p.toNat 0x02)
  | .csrr d c p => enc .sequencer 1 (0x30 * 2 ^ 26 + d.toNat * 2 ^ 21 + c.toNat * 2 ^ 11 + p.toNat * 2 ^ 8)
  | .csrw d c p => enc .sequencer 1 (0x30 * 2 ^ 26 + d.toNat * 2 ^ 21 + c.toNat * 2 ^ 11 + p.toNat * 2 ^ 8 + 1)
  | .tret p => enc .sequencer 1 (encR 0x30 0 0 0 p.toNat 2)
  | .tlbinv a b p => enc .sequencer 1 (encR 0x30 0 a.toNat b.toNat p.toNat 3)
  | .cutm a p => enc .sequencer 1 (encR 0x30 0 a.toNat 0 p.toNat 4)
  | .cfgld a b p => enc .sequencer 1 (encR 0x30 0 a.toNat b.toNat p.toNat 5)
  | .haltc p => enc .sequencer 1 (encR 0x30 0 0 0 p.toNat 6)
  | .trap p i => enc .sequencer 1 (encU 0x31 0 p.toNat i.toNat)
  | .rpt c x y z r w => 
    enc .sequencer (if r then 3 else 2)
      (0x3C * 2 ^ 26 + c.toNat * 2 ^ 16 + x.toNat * 2 ^ 13 + y.toNat * 2 ^ 10 + z.toNat * 2 ^ 7 +
        (if r then 0x3D * 2 ^ 26 * 2 ^ 32 + w.toNat * 2 ^ 64 else w.toNat * 2 ^ 32))
  | .rlx w => enc .sequencer 2 (0x3D * 2 ^ 26 + w.toNat * 2 ^ 32)
  | .rptRepetition => none
  | .debugStop _ _ => none
  | .nop s d => enc .fabric 0 (encF 0x00 s.toNat 31 31 d.toNat 0)
  | .mov s a d w => enc .fabric 0 (encF 0x01 s.toNat a.toNat 31 d.toNat w.toNat)
  | .selp s a b d w => enc .fabric 0 (encF 0x02 s.toNat a.toNat b.toNat d.toNat w.toNat)
  | .fadd s a b d w => enc .fabric 0 (encF 0x04 s.toNat a.toNat b.toNat d.toNat w.toNat)
  | .fsub s a b d w => enc .fabric 0 (encF 0x05 s.toNat a.toNat b.toNat d.toNat w.toNat)
  | .fmul s a b d w => enc .fabric 0 (encF 0x06 s.toNat a.toNat b.toNat d.toNat w.toNat)
  | .ffma s a b d w => enc .fabric 0 (encF 0x07 s.toNat a.toNat b.toNat d.toNat w.toNat)
  | .fmin s a b d w => enc .fabric 0 (encF 0x08 s.toNat a.toNat b.toNat d.toNat w.toNat)
  | .fmax s a b d w => enc .fabric 0 (encF 0x09 s.toNat a.toNat b.toNat d.toNat w.toNat)
  | .fabs s a d w => enc .fabric 0 (encF 0x0a s.toNat a.toNat 31 d.toNat w.toNat)
  | .fneg s a d w => enc .fabric 0 (encF 0x0b s.toNat a.toNat 31 d.toNat w.toNat)
  | .fcmplt s a b d w => enc .fabric 0 (encF 0x0c s.toNat a.toNat b.toNat d.toNat w.toNat)
  | .fcmpeq s a b d w => enc .fabric 0 (encF 0x0d s.toNat a.toNat b.toNat d.toNat w.toNat)
  | .hadd2 s a b d w => enc .fabric 0 (encF 0x10 s.toNat a.toNat b.toNat d.toNat w.toNat)
  | .hmul2 s a b d w => enc .fabric 0 (encF 0x11 s.toNat a.toNat b.toNat d.toNat w.toNat)
  | .hfma2 s a b d w => enc .fabric 0 (encF 0x12 s.toNat a.toNat b.toNat d.toNat w.toNat)
  | .hmax2 s a b d w => enc .fabric 0 (encF 0x13 s.toNat a.toNat b.toNat d.toNat w.toNat)
  | .iadd s a b d w => enc .fabric 0 (encF 0x18 s.toNat a.toNat b.toNat d.toNat w.toNat)
  | .isub s a b d w => enc .fabric 0 (encF 0x19 s.toNat a.toNat b.toNat d.toNat w.toNat)
  | .imul s a b d w => enc .fabric 0 (encF 0x1a s.toNat a.toNat b.toNat d.toNat w.toNat)
  | .imad s a b d w => enc .fabric 0 (encF 0x1b s.toNat a.toNat b.toNat d.toNat w.toNat)
  | .iand s a b d w => enc .fabric 0 (encF 0x1c s.toNat a.toNat b.toNat d.toNat w.toNat)
  | .ior s a b d w => enc .fabric 0 (encF 0x1d s.toNat a.toNat b.toNat d.toNat w.toNat)
  | .ixor s a b d w => enc .fabric 0 (encF 0x1e s.toNat a.toNat b.toNat d.toNat w.toNat)
  | .ishl s a b d w => enc .fabric 0 (encF 0x1f s.toNat a.toNat b.toNat d.toNat w.toNat)
  | .ishr s a b d w => enc .fabric 0 (encF 0x20 s.toNat a.toNat b.toNat d.toNat w.toNat)
  | .isar s a b d w => enc .fabric 0 (encF 0x21 s.toNat a.toNat b.toNat d.toNat w.toNat)
  | .imin s a b d w => enc .fabric 0 (encF 0x22 s.toNat a.toNat b.toNat d.toNat w.toNat)
  | .imax s a b d w => enc .fabric 0 (encF 0x23 s.toNat a.toNat b.toNat d.toNat w.toNat)
  | .icmplt s a b d w => enc .fabric 0 (encF 0x24 s.toNat a.toNat b.toNat d.toNat w.toNat)
  | .icmpeq s a b d w => enc .fabric 0 (encF 0x25 s.toNat a.toNat b.toNat d.toNat w.toNat)
  | .cvtif s a d w => enc .fabric 0 (encF 0x28 s.toNat a.toNat 31 d.toNat w.toNat)
  | .cvtfi s a d w => enc .fabric 0 (encF 0x29 s.toNat a.toNat 31 d.toNat w.toNat)
  | .cvtbf s a d w => enc .fabric 0 (encF 0x2a s.toNat a.toNat 31 d.toNat w.toNat)
  | .cvtbfs s a b d w => enc .fabric 0 (encF 0x2b s.toNat a.toNat b.toNat d.toNat w.toNat)
  | .cvte4 s a d w => enc .fabric 0 (encF 0x2c s.toNat a.toNat 31 d.toNat w.toNat)
  | .cvte5 s a d w => enc .fabric 0 (encF 0x2d s.toNat a.toNat 31 d.toNat w.toNat)
  | .cvte4s s a b d w => enc .fabric 0 (encF 0x2e s.toNat a.toNat b.toNat d.toNat w.toNat)
  | .pack2 s a b d w => enc .fabric 0 (encF 0x2f s.toNat a.toNat b.toNat d.toNat w.toNat)
  | .unpk s a d w => enc .fabric 0 (encF 0x30 s.toNat a.toNat 31 d.toNat w.toNat)
  | .frcp s a d w => enc .fabric 0 (encF 0x34 s.toNat a.toNat 31 d.toNat w.toNat)
  | .frsq s a d w => enc .fabric 0 (encF 0x35 s.toNat a.toNat 31 d.toNat w.toNat)
  | .fexp2 s a d w => enc .fabric 0 (encF 0x36 s.toNat a.toNat 31 d.toNat w.toNat)
  | .flog2 s a d w => enc .fabric 0 (encF 0x37 s.toNat a.toNat 31 d.toNat w.toNat)
  | .prnd s a b d w => enc .fabric 0 (encF 0x38 s.toNat a.toNat b.toNat d.toNat w.toNat)
  | .pld s a d w => enc .fabric 0 (encF 0x3a s.toNat a.toNat 31 d.toNat w.toNat)
  | .pst s a b d => enc .fabric 0 (encF 0x3b s.toNat a.toNat b.toNat d.toNat 0)
  | .pred s a d => enc .fabric 0 (encF 0x3c s.toNat a.toNat 31 d.toNat 0)
  | .jnx s a b d w => enc .fabric 0 (encF 0x3e s.toNat a.toNat b.toNat d.toNat w.toNat)
  | .jnu s a b d w => enc .fabric 0 (encF 0x3f s.toNat a.toNat b.toNat d.toNat w.toNat)
  | .route n e s w => enc .route 0 (n.toNat * 2 ^ 12 + e.toNat * 2 ^ 8 + s.toNat * 2 ^ 4 + w.toNat)
  | .mnop s => enc .matrix 0 (encX 0 s.toNat 0 0 0 0 0 0 0 0 0 0)
  | .mma s a b t v f r => enc .matrix 0 (encX 1 s.toNat a.toNat b.toNat t.toNat v.toNat f.toNat 0 0 0 r.toNat 0)
  | .mmas s a b t v f r => enc .matrix 0 (encX 2 s.toNat a.toNat b.toNat t.toNat v.toNat f.toNat 0 0 0 r.toNat 0)
  | .mzero s t => enc .matrix 0 (encX 3 s.toNat 0 0 t.toNat 0 0 0 0 0 0 0)
  | .msig s g => enc .matrix 0 (encX 4 s.toNat 0 0 0 0 0 0 0 0 0 g.toNat)
  | .mwait s g => enc .matrix 0 (encX 5 s.toNat 0 0 0 0 0 0 0 0 0 g.toNat)
  | .mdrain s t u o r => enc .matrix 0 (encX 6 s.toNat 0 0 t.toNat 0 0 u.toNat o.toNat r.toNat 0 0)
  | .mend s => enc .matrix 0 (encX 7 s.toNat 0 0 0 0 0 0 0 0 0 0)
  | .dnop t ch => enc .command 0 (encD 0x00 t.toNat ch.toNat 0 0 0 0 0 0 0 0)
  | .dact t ch pc bg ba row => enc .command 0 (encD 0x01 t.toNat ch.toNat pc.toNat bg.toNat ba.toNat row.toNat 0 0 0 0)
  | .dpre t ch pc bg ba => enc .command 0 (encD 0x02 t.toNat ch.toNat pc.toNat bg.toNat ba.toNat 0 0 0 0 0)
  | .dprea t ch pc => enc .command 0 (encD 0x03 t.toNat ch.toNat pc.toNat 0 0 0 0 0 0 0)
  | .drd t ch pc bg ba row col lk li fl => enc .command 0 (encD 0x04 t.toNat ch.toNat pc.toNat bg.toNat ba.toNat row.toNat col.toNat lk.toNat li.toNat fl.toNat)
  | .drda t ch pc bg ba row col lk li fl => enc .command 0 (encD 0x05 t.toNat ch.toNat pc.toNat bg.toNat ba.toNat row.toNat col.toNat lk.toNat li.toNat fl.toNat)
  | .dwr t ch pc bg ba row col lk li => enc .command 0 (encD 0x06 t.toNat ch.toNat pc.toNat bg.toNat ba.toNat row.toNat col.toNat lk.toNat li.toNat 0)
  | .dwra t ch pc bg ba row col lk li => enc .command 0 (encD 0x07 t.toNat ch.toNat pc.toNat bg.toNat ba.toNat row.toNat col.toNat lk.toNat li.toNat 0)
  | .drefab t ch pc => enc .command 0 (encD 0x08 t.toNat ch.toNat pc.toNat 0 0 0 0 0 0 0)
  | .drefpb t ch pc bg ba => enc .command 0 (encD 0x09 t.toNat ch.toNat pc.toNat bg.toNat ba.toNat 0 0 0 0 0)
  | .drfm t ch pc bg ba => enc .command 0 (encD 0x0a t.toNat ch.toNat pc.toNat bg.toNat ba.toNat 0 0 0 0 0)
  | .dsre t ch => enc .command 0 (encD 0x0b t.toNat ch.toNat 0 0 0 0 0 0 0 0)
  | .dsrx t ch => enc .command 0 (encD 0x0c t.toNat ch.toNat 0 0 0 0 0 0 0 0)
  | .dframe t ch fl => enc .command 0 (encD 0x0d t.toNat ch.toNat 0 0 0 0 0 0 0 fl.toNat)
  | .ddem t ch col => enc .command 0 (encD 0x0e t.toNat ch.toNat 0 0 0 0 col.toNat 0 0 0)
  | .dloop t ch row => enc .command 0 (encD 0x0f t.toNat ch.toNat 0 0 0 row.toNat 0 0 0 0)
  | .dend t ch => enc .command 0 (encD 0x10 t.toNat ch.toNat 0 0 0 0 0 0 0 0)
  | .dmrs t ch pc reg v => enc .command 0 (encD 0x11 t.toNat ch.toNat pc.toNat 0 0 (reg.toNat * 2 ^ 8 + v.toNat) 0 0 0 0)
  | .refreshDebtRise _ => none
  | .idleFrameRun _ => none
  | .refreshKeeperRefresh _ _ => none
  | .laneDataEntry _ _ _ _ _ => none
  | .demandSlot _ => none
  | .threadWake _ _ => none
  | .waittExpiry _ _ => none
  | .launchStart _ _ => none
  | .regionCycle _ => none
  | .regionBoundary _ => none
  | .regionResume _ => none
  | .regionStart _ => none
  | .phaseRewrite _ => none
  | .regionDrainTokens _ => none
  | .latchArrival _ _ _ => none
  | .storeOpPerform _ _ => none
  | .predFlitSend _ _ _ => none
  | .matrixStart _ => none
  | .mslotAdvance _ => none
  | .matrixResume _ => none
  | .matrixEntryComplete _ _ => none
  | .signalWrite _ => none
  | .matrixRunEnd _ => none
  | .streamElement _ _ => none
  | .streamComplete _ _ => none
  | .copyComplete _ => none
  | .vxferComplete _ _ => none
  | .tensorLineComplete _ _ => none
  | .generationWalkEnd _ _ => none
  | .homeSliceAccess _ => none
  | .llcFillComplete _ _ => none
  | .llcWriteback _ _ => none
  | .blockExpansion _ _ => none
  | .expansionComplete _ _ => none
  | .transmitterSlot _ => none
  | .zwiluFlitReceive _ _ _ => none
  | .refusalReceive _ _ _ => none
  | .haltNotice _ => none
  | .domainHaltStart => none
  | .haltResend _ => none
  | .haltClear => none
  | .domainStallTimeout => none
  | .edgeTokenArrival _ _ _ _ => none
  | .sweep _ _ => none
  | .routerForward _ => none
  | .meshFlitArrival _ _ => none
  | .meshReplay _ _ _ _ => none
  | .meshAcknowledgement _ _ _ _ => none
  | .treeNodeCombine _ _ => none
  | .scatterReduceApply _ _ => none
  | .messageDelivery _ _ => none
  | .remoteWrite _ _ => none
  | .drainToken _ _ => none
  | .barrierArrival _ _ _ _ _ _ => none
  | .barrierCompletion _ _ _ _ => none
  | .collectiveCallComplete _ _ _ _ _ => none
  | .queueWriteError _ _ => none
  | .launchPacket _ _ _ _ => none
  | .patchPacket _ _ _ _ => none
  | .bindPacket _ _ _ _ => none
  | .bindComplete _ _ _ => none
  | .unbindPacket _ _ _ _ => none
  | .qrelResume _ _ => none
  | .qrelAbort _ _ => none
  | .dispatch _ => none
  | .agingStep _ _ => none
  | .configurationComplete _ _ => none
  | .launchEnd _ _ => none
  | .powerWindow _ => none
  | .operatingPointStep _ => none
  | .pageWalkComplete _ => none
  | .registerWrite _ _ => none
  | .tstatWrite _ _ _ => none
  | .tvecWrite _ _ _ => none
  | .ptrootWrite _ _ => none
  | .evlogWrite _ _ => none
  | .pclkWrite _ _ => none
  | .cselWrite _ _ _ => none
  | .lbwWrite _ _ _ => none
  | .gateWrite _ _ => none
  | .unitWakeComplete _ _ => none
  | .cutSlot _ _ => none
  | .elementCut _ _ _ => none
  | .picotArrival _ _ _ _ => none
  | .cutComplete _ _ => none
  | .snapshotInterval _ _ => none
  | .restore _ _ => none
  | .rollback _ _ _ => none
  | .scrubPass _ _ => none
  | .verticalBusTest _ _ _ => none
  | .tileRetirement _ => none
  | .eyeletFlitReceive _ _ _ => none
  | .eyeletAcknowledgement _ _ => none
  | .replayRequest _ _ => none
  | .replayTimeout _ => none
  | .laneMarginal _ _ _ => none
  | .laneChangeNotice _ _ => none
  | .resumeSlotZ _ _ => none
  | .lossOfLight _ _ => none
  | .laneTrained _ _ => none
  | .lightReturn _ _ => none
  | .spareLock _ => none
  | .spareLockTimeout _ => none
  | .spareBarExpiry _ => none
  | .laserFault _ => none
  | .edgeSwitchSlot _ => none
  | .syncFrame _ _ _ => none
  | .copyHeader _ _ _ _ _ _ _ => none
  | .copyData _ _ _ _ => none
  | .copyDone _ _ _ _ _ => none
  | .partset _ => none
  | .palloc _ _ => none
  | .suspend => none
  | .suspendDeadline _ _ => none
  | .resume => none
  | .fwstage _ _ _ => none
  | .fwact _ => none
  | .firmwareActivation _ _ => none
  | .tretire _ => none
  | .sretire _ => none
  | .laser _ _ => none
  | .ereg _ _ => none
  | .llog _ _ => none
  | .spdmRequest _ => none
  | .bringUp _ => none
  | .illegalInstruction _ => none
  | .undefinedDWord _ => none
  | .suspendHaltTimeout => none
  | .suspendComplete => none

end Sys2Proof
end

