-- ==== Sys2Proof/Config.lean ====
section
/-! DEFINITION. What the specification leaves open as a value: opaque constants (nothing can be proved of them but
their type), and the sizes the specification fixes. Each opaque constant has a log entry. -/

namespace Sys2Proof.Config

/-- Free choice: whether the n-th RLX store is performed after later accesses (R96). Log 6. -/
opaque relaxDeferred : Nat → Bool
/-- Free value: the first thread of a disagreeing barrier phase that traps (R251): true = the newcomer. Log 7. -/
opaque barrierNewcomerTraps : Nat → Bool
/-- SHA-384 of a byte string (R336, R417): the specification names it and does not give it. Log 8. -/
opaque sha384 : List Byte → BitVec 384
/-- Whether an image's signature verifies against the Glodel key (R416, R417). Log 8. -/
opaque signatureVerifies : List Byte → Bool
/-- The identity key's signature over SPDM measurements and a nonce (R417). Log 8. -/
opaque spdmSignature : List (BitVec 384) → Nat → BitVec 768
/-- Whether the write-backs of a paired core and its shadow differ in a comparison (R381): only a failing core makes them
differ. Log 29. -/
opaque pairMismatch : Nat → Bool
/-- Power drawn by a partition over the window with that number (R328), in units of 10 W. Log 9. -/
opaque windowPower : Nat → Nat → Nat
/-- TEMP, VOLT and ROSC of a tile in a slot (R407): sampled, no value given. Log 9. -/
opaque monitorSample : Nat → Nat → BitVec 48
/-- The failure code of a bind record for a check that has no code (R337), and what LNCH writes for a bind or an unbind
(R253). Log 12. -/
opaque bindFailure : Nat → BitVec 16
opaque lnchResult : Nat → Word
/-- SRC, location and detail of an uncorrectable-data record (Table 17-3), and the discarded state of a cut record that
discards state. Log 13. -/
opaque softError : Nat → BitVec 144
opaque discardedState : Nat → Word
/-- Whether an undo log has no room for its next entry (R375): the log's size is not stated. Log 13. -/
opaque undoFull : Nat → Bool
/-- The SHA-384 of the module identity record with a set of unavailable tiles, those of them whose router does not forward, a
set of retired stacks and the bring-up step that failed (R18, R417 to R419): its bytes are not stated. Log 8. -/
opaque identityDigest : List Nat → List Nat → List Nat → Option Nat → BitVec 384
/-- The payload of a suspend notice sent at a slot (R413): Table 18-3 gives it no code. Log 14. -/
opaque suspendNotice : Nat → BitVec 256
/-- The payload of a notice of a cut's slot (R368): Table 18-3 gives it no code. Log 14. -/
opaque cutNotice : Nat → BitVec 256
/-- The lane whose bits the spare takes by a lane change notice with a mask, if any, and whether the notice answers a loss of
light: Table 18-3 gives the flit no field for either. Log 14. -/
opaque noticeSpare : Nat → Nat → Option Nat
opaque noticeResends : Nat → Bool
/-- The skew of an edge switch entry and of its ALT that a retrain measures, in UI (R400, R401), by eyelet, entry and a
number, and the error of a sync frame in 1/1,024 slot (R402). Log 14. -/
opaque measuredSkew : Nat → Nat → Nat → Nat × Nat
opaque syncError : Nat → Int
/-- The delay of an eyelet that a resume measures, in UI (R386, R415). Log 14. -/
opaque measuredDelay : Nat → Nat → Nat
/-- The words of tokens that reach a collective node other than from a PE port, by arc and number: where it finds them is not
stated. Log 24. -/
opaque arcWord : Nat → Nat → BitVec 32
/-- Whether an access of the consumer of a memory-ordering arc depends on it (R46, R100): the accesses are numbered by the address
of their instruction, chain, context, slot or word. Log 37. -/
opaque arcOrders : Nat → Nat → Bool
/-- CRC-32 of the ring words of a region (R379), whose polynomial is not stated. Log 8. -/
opaque crc32 : List Nat → BitVec 32
/-- How long the device takes to write a configuration store again from the image (R379), in core cycles. Log 36. -/
opaque reloadCycles : Nat → Nat
/-- The lines of the save area that a cut writes, by their number in its half and with their bytes (R374): the layout of the
area is not stated. Log 34. -/
opaque saveLines : Nat → List (Nat × List Byte)
/-- The byte a HBM4 cell holds that a retired or failing channel returns; also unstated bytes. Log 10. -/
opaque unstatedByte : Nat → Byte
/-- A trap value that the specification does not name (R322). Log 10. -/
opaque unstatedWord : Nat → Word

/-- Activation-store size of a tile in bytes (R75). -/
def storeSize : Nat := 0x1800000
/-- Instruction memory of a tile in bytes (R132), and where the handler area begins (R316). -/
def imemSize : Nat := 0x10000
def handlerBase : Nat := 0xE000
/-- Tiles, memory sequencers, eyelets and laser slots of a module (R25, R26, R30, R385). -/
def numTiles : Nat := 4096
def numSequencers : Nat := 1536
def numEyelets : Nat := 512
def numLaserSlots : Nat := 2176
/-- The sweep window and the power window (R52, R328). -/
def sweepCycles : Nat := 4096
def powerWindowSlots : Nat := 4096

end Sys2Proof.Config
end

