-- ==== Sys2Proof/Event.lean ====
section
/-! DEFINITION. The events of the AW1 as they stand in the module's agenda: one for each row of spec/opcode_table.json
that has no word, with the data of the instruction of that name (log 1). -/

namespace Sys2Proof

/-- An operation or event without a word; `Instr` has a constructor of the same name and data for each. -/
inductive Event where
  | refreshDebtRise (ch : Nat)
  | idleFrameRun (ch : Nat)
  | refreshKeeperRefresh (ch pc : Nat)
  | laneDataEntry (ch kind idx : Nat) (data : List Byte) (close : Bool)
  | demandSlot (ch : Nat)
  | threadWake (tile thread : Nat)
  | waittExpiry (tile thread : Nat)
  | launchStart (pid lnum : Nat)
  | regionCycle (r : Nat)
  | regionBoundary (r : Nat)
  | regionResume (r : Nat)
  | regionStart (r : Nat)
  | phaseRewrite (r : Nat)
  | regionDrainTokens (r : Nat)
  | latchArrival (pe : Nat) (port : Port) (value : Word32)
  | storeOpPerform (tile chn : Nat)
  | predFlitSend (tile rid q : Nat)
  | matrixStart (tile : Nat)
  | mslotAdvance (tile : Nat)
  | matrixResume (tile : Nat)
  | matrixEntryComplete (tile entry : Nat)
  | signalWrite (tile : Nat)
  | matrixRunEnd (tile : Nat)
  | streamElement (tile ctx : Nat)
  | streamComplete (tile ctx : Nat)
  | copyComplete (tile : Nat)
  | vxferComplete (tile idx : Nat)
  | tensorLineComplete (tile cnum : Nat)
  | generationWalkEnd (pid tid : Nat)
  | homeSliceAccess (req : GlobalReq)
  | llcFillComplete (pid : Nat) (tag : BitVec 60)
  | llcWriteback (pid : Nat) (tag : BitVec 60)
  | blockExpansion (tile vc : Nat)
  | expansionComplete (tile vc : Nat)
  | transmitterSlot (tx : Nat)
  | zwiluFlitReceive (tile : Nat) (flit : ZwiluFlit) (damage : List LightError)
  | refusalReceive (tx group seq : Nat)
  | haltNotice (h : Nat)
  | domainHaltStart
  | haltResend (tx : Nat)
  | haltClear
  | domainStallTimeout
  | edgeTokenArrival (eyelet tag : Nat) (sender : Nat) (token : List Byte)
  | sweep (pid lnum : Nat)
  | routerForward (flit : Nat)
  | meshFlitArrival (flit : Nat) (check : Secded)
  | meshReplay (src dst vc seq : Nat)
  | meshAcknowledgement (src dst vc seq : Nat)
  | treeNodeCombine (tile : Nat) (flit : MeshFlit)
  | scatterReduceApply (tile unit : Nat)
  | messageDelivery (tile : Nat) (flit : MeshFlit)
  | remoteWrite (tile : Nat) (flit : MeshFlit)
  | drainToken (tile channel : Nat)
  | barrierArrival (pid lnum bar parties tile thread : Nat)
  | barrierCompletion (pid lnum bar tile : Nat)
  | collectiveCallComplete (pid lnum tile node call : Nat)
  | queueWriteError (pid q : Nat)
  | launchPacket (pid q : Nat) (src : PacketSource) (bytes : List Byte)
  | patchPacket (pid q : Nat) (src : PacketSource) (bytes : List Byte)
  | bindPacket (pid q : Nat) (src : PacketSource) (bytes : List Byte)
  | bindComplete (pid handle : Nat) (img : Image)
  | unbindPacket (pid q : Nat) (src : PacketSource) (bytes : List Byte)
  | qrelResume (pid q : Nat)
  | qrelAbort (pid q : Nat)
  | dispatch (pid : Nat)
  | agingStep (pid q : Nat)
  | configurationComplete (pid lnum : Nat)
  | launchEnd (pid lnum : Nat)
  | powerWindow (pid : Nat)
  | operatingPointStep (tile : Nat)
  | pageWalkComplete (walk : Nat)
  | registerWrite (reg : PlainReg) (value : Word)
  | tstatWrite (tile thread : Nat) (value : Word)
  | tvecWrite (tile : Nat) (machine : Bool) (value : Word)
  | ptrootWrite (pid : Nat) (value : Word)
  | evlogWrite (pid : Nat) (value : Word)
  | pclkWrite (pid : Nat) (value : Word)
  | cselWrite (tile : Nat) (sel : Selector) (value : Word)
  | lbwWrite (tile path : Nat) (value : Word)
  | gateWrite (tile : Nat) (value : Word)
  | unitWakeComplete (tile : Nat) (unit : GatedUnit)
  | cutSlot (pid lnum : Nat)
  | elementCut (pid lnum : Nat) (elem : Element)
  | picotArrival (pid lnum : Nat) (elem : Element) (input : Nat)
  | cutComplete (pid lnum : Nat)
  | snapshotInterval (pid lnum : Nat)
  | restore (pid lnum : Nat)
  | rollback (pid lnum : Nat) (sub : Nat)
  | scrubPass (store : ConfigStore) (damage : Damage)
  | verticalBusTest (tile bus : Nat) (ev : BusTestEvent)
  | tileRetirement (tile : Nat)
  | eyeletFlitReceive (e : Nat) (flit : EyeletFlit) (damage : List Nat)
  | eyeletAcknowledgement (e seq : Nat)
  | replayRequest (e seq : Nat)
  | replayTimeout (e : Nat)
  | laneMarginal (e lane margin : Nat)
  | laneChangeNotice (e : Nat) (change : LaneChange)
  | resumeSlotZ (e : Nat) (dir : Direction)
  | lossOfLight (e : Nat) (dark : List Nat)
  | laneTrained (e lane : Nat)
  | lightReturn (e lane : Nat)
  | spareLock (e : Nat)
  | spareLockTimeout (e : Nat)
  | spareBarExpiry (e : Nat)
  | laserFault (slot : Nat)
  | edgeSwitchSlot (e : Nat)
  | syncFrame (sender : Nat) (count : Nat) (err : Int)
  | copyHeader (e tag sender : Nat) (off tile len id : Nat)
  | copyData (e tag sender : Nat) (data : List Byte)
  | copyDone (e tag sender : Nat) (id status : Nat)
  | partset (r : PartRecord)
  | palloc (pid alloc : Nat)
  | suspend
  | suspendDeadline (pid lnum : Nat)
  | resume
  | fwstage (block : FwBlock) (image : List Byte) (svn : Nat)
  | fwact (block : FwBlock)
  | firmwareActivation (block : FwBlock) (ok : Bool)
  | tretire (tile : Nat)
  | sretire (stack : Nat)
  | laser (slot : Nat) (into : Bool)
  | ereg (e : Nat) (op : EregOp)
  | llog (first count : Nat)
  | spdmRequest (nonce : Nat)
  | bringUp (report : BringUpReport)
  | illegalInstruction (w : Word32)
  | undefinedDWord (w : BitVec 64)
  | suspendHaltTimeout
  | suspendComplete
  /-- A debug stop is requested (R361). -/
  | debugStop (tile thread : Nat)
  /-- A word of a memory loses bits (R380): an input of the module, not a row of the table. -/
  | wordFlaw (flaw : Flaw)
  deriving DecidableEq, Repr

end Sys2Proof
end

