-- ==== Sys2Proof/Machine/CoreState.lean ====
section
/-! DEFINITION. The state of a tile's sequencer core, its activation store, its streams, copies and transfers
(spec 02 R33 to R50, 04 R74 to R82, 06 R138, 08, 09 R217 to R232, 14 Tables 14-2 to 14-4). -/

namespace Sys2Proof.Machine

/-- Why a thread is Waiting or Parked (Table 02-1). -/
inductive Reason where
  /-- The instruction at the pc is issued again in the thread's next own cycle: a resource is not available. -/
  | retry
  /-- YIELD waits through its next own cycle (R191). -/
  | yield
  /-- A global access or a page walk of the thread is on its way. -/
  | reply
  /-- A region or a walk of the LLC must finish first; woken by the event that ends it (R235, R255). -/
  | unit
  /-- Halted at a fence by its reduction fault log (R104, R366); QREL.RESUME releases it. -/
  | fault
  /-- PARK (R192). -/
  | park
  /-- LDF, LDFE or STEF on this store word (R77). -/
  | word (index : Nat)
  /-- QWAIT on receive queue 0 or 1 (R142); the destination register. -/
  | queue (q : BitVec 2) (rd : GReg)
  /-- WAITT until CCNT reaches the limit (R193). -/
  | waitt (limit : Word)
  /-- WAITE on a completion number (R194). -/
  | waite (number : BitVec 32)
  /-- EVWAIT on an event counter and target (R254). -/
  | event (counter : Nat) (target : BitVec 32)
  /-- BARW on a barrier (R251). -/
  | barrier (bar : Nat)
  deriving DecidableEq, Repr

/-- Thread states (Table 02-1). -/
inductive ThreadState where
  | halted
  | running
  | waiting (r : Reason)
  | parked (r : Reason)
  deriving DecidableEq, Repr

/-- A thread's arrival at a barrier (R251): sent from an instruction's address, counted in a phase, or its phase's
completion has reached the thread's tile. -/
inductive ArrivalState where
  | sent (ipc : Word)
  | counted (phase : Nat) (ipc : Word)
  | complete
  deriving DecidableEq, Repr

/-- One thread (R33, R138, R50, R147, R192, Tables 14-2 to 14-4). -/
structure Thread where
  st : ThreadState
  pc : Word
  /-- The program's range in instruction memory, first byte and the byte after the last (R133). -/
  lo : Nat
  hi : Nat
  g : Vector Word 32
  p : BitVec 8
  /-- RPS.NEXT (Table 06-8), and the address of an RPT pair in progress or just returned to by TRET (R145, R147). -/
  next : BitVec 10
  rptAt : Option Word
  fflags : BitVec 5
  paramv : Word
  pl : BitVec 2
  ppl : BitVec 2
  inh : Bool
  cause : BitVec 8
  sub : BitVec 8
  tepc : Word
  tval : Word
  tscr : Word
  /-- The wake-pending bit W (R192). -/
  wake : Bool
  /-- The last completion number the thread took, 0 for none (R225). -/
  lastCnum : BitVec 32
  /-- Relaxed stores not yet performed: offset and bytes (R96). -/
  relaxed : List (Nat × List Byte)
  /-- Messages and remote writes, global accesses, REDs and LTWB write-backs issued and not yet performed (R104). -/
  remoteOut : Nat
  globalOut : Nat
  redOut : Nat
  writebackOut : Nat
  /-- Flags of applied REDs, delivered at DRAIN or HALTT (R203). -/
  redFlags : BitVec 5
  /-- Last RED sequence number, under key 0: it numbers all REDs of the thread (R205, R367). -/
  redSeq : Tab Nat
  /-- Reduction fault count of the thread's context (R366). -/
  faults : Nat
  /-- Pending arrivals by barrier number (R251). -/
  arrivals : Tab ArrivalState
  /-- Causes, subcodes and addresses that page walks for the instruction at the pc reported (R354). -/
  walkFault : List (BitVec 8 × BitVec 8 × Word)
  /-- A debug stop is requested (R361). -/
  debug : Bool
  /-- Messages and remote writes above that are remote writes (R102). -/
  writesOut : Nat
  /-- Registers whose last result is not ready, with the cycle from which it can be used (Table 08-1, R176). -/
  slow : Tab Nat
  /-- The cycle from which the thread has no unmarked activation-store access outstanding (R176, Table 02-1). -/
  storeUntil : Nat
  /-- The instruction at the pc has been issued and waits for a page walk (R323, R355). -/
  issued : Bool
  /-- The thread's write-back and its shadow's have differed once at the instruction at the pc (R381). -/
  mismatch : Bool
  deriving DecidableEq, Repr

/-- A full/empty operation that waits at a word's bank (R77). -/
inductive WaiterKind where
  | ldf (thread : Nat) (rd : GReg)
  | ldfe (thread : Nat) (rd : GReg)
  | stef (thread : Nat) (data : Word)
  /-- A remote STEF (SENDP KIND 2, R209): its data, channel and source tile and thread. -/
  | remote (data : Word) (vc src thread : Nat)
  deriving DecidableEq, Repr

/-- A waiter entry: the store word and the operation, in arrival order (R77). -/
structure Waiter where
  word : Nat
  kind : WaiterKind
  deriving DecidableEq, Repr

/-- The activation store of a tile: its bytes, the indices of its full store words, waiter entries in arrival order,
and remote synchronising deliveries held for a free entry (R74 to R77). -/
structure Store where
  mem : Mem
  full : List Nat
  waiters : List Waiter
  held : List Waiter
  /-- The first cycle in which a bank is free (R176): banks that have taken an access. -/
  busy : Tab Nat
  deriving DecidableEq, Repr

/-- One path of a collective call (R125, R131): its first block and their number, the blocks finished, whether the flits of
the next ones are under way, and the result lanes so far: a word and its flags from bit 32. -/
structure PathRun where
  first : Nat
  count : Nat
  past : Nat
  asked : Bool
  results : List Word
  deriving DecidableEq, Repr

/-- A call of a collective node at a tile (R252): the words that it took, once they have arrived, its paths, and how many
output words each outgoing arc has been given. -/
structure CollRun where
  node : Nat
  call : Nat
  input : Option (List Word32)
  paths : List PathRun
  given : Tab Nat
  deriving DecidableEq, Repr

/-- A piece of a collective copy at a tile, and whether the tile has still to send it on round the ring (R128). -/
structure Piece where
  node : Nat
  call : Nat
  path : Nat
  rank : Nat
  index : Nat
  data : BitVec 1024
  onward : Bool
  deriving DecidableEq, Repr

/-- The sequencer core (R32, R138, R208, R316, Table 05-9, R381). -/
structure Core where
  threads : Vector Thread 8
  imem : Mem
  shared : Vector Word 16
  /-- Receive queues q0 and q1, send queues q2 and q3 (R208). -/
  recv : Vector (List Word) 2
  send : Vector (List MeshFlit) 2
  /-- Messages held at the router for a full receive queue (R208). -/
  heldMsgs : List MeshFlit
  tvec : Word
  mtvec : Word
  csel : BitVec 12
  gsel : BitVec 12
  esel : BitVec 5
  /-- WEIGHT of LBWj, keyed by 8 times the collective plus the path (R130). -/
  weights : Tab (BitVec 8)
  /-- RATE of LBWj (Table 05-8). -/
  rates : Tab (BitVec 32)
  /-- Calls of the tile's collective nodes: node to (calls made, calls completed) (R252). -/
  calls : Tab (Nat × Nat)
  /-- Bytes that each path has accepted in the current sweep window, keyed as WEIGHT (R129). -/
  accepted : Tab Nat
  /-- Words that the input arcs of collective nodes have brought, by arc (R252). -/
  gathered : Tab (List Word32)
  /-- Calls under way, oldest first (R252), and the pieces of copies that have come for them. -/
  runs : List CollRun
  pieces : List Piece
  /-- The tile whose threads this core shadows, and which of them (R381). -/
  shadowOf : Option Nat
  shadowMask : BitVec 8
  /-- HALTC has issued: every thread does what HALTT does in place of its next instruction (R323). -/
  haltc : Bool
  deriving DecidableEq, Repr

/-- A stream descriptor as BIND read it (Table 09-3). -/
structure Descriptor where
  src : Word
  dst : Word
  cnt : Vector Nat 4
  sstr : Vector Int 4
  dstr : Vector Int 4
  esz : Nat
  lastf : Bool
  deriving DecidableEq, Repr

/-- A page as BIND or a TLB keeps it (R356, Table 16-2): virtual base, physical base, size, permissions. -/
structure Page where
  va : Nat
  pa : Nat
  size : Nat
  read : Bool
  write : Bool
  user : Bool
  deriving DecidableEq, Repr

/-- A stream context (Table 09-4, R220 to R224). -/
structure Stream where
  st : BitVec 2
  can : Bool
  done : BitVec 28
  cnum : BitVec 32
  desc : Option Descriptor
  /-- Translations made at BIND (R320, R357). -/
  pages : List Page
  thread : Nat
  node : Option Nat
  /-- Elements sent and not yet performed at their destination; the next element's number (R221). -/
  out : Nat
  next : Nat
  /-- Absolute tiles of the source and destination endpoints, as they stood at BIND (R20). -/
  srcTile : Nat
  dstTile : Nat
  /-- An HBM4 read of the next element is asked for, and its bytes once they are back (R218 kind 5). -/
  asked : Bool
  fetched : Option (List Byte)
  /-- The engine's 128 bytes of the last cycle were gone before the context's turn (R221). -/
  short : Bool
  deriving DecidableEq, Repr

/-- A copy of the copy channel (R226, R227). -/
structure Copy where
  cnum : BitVec 32
  thread : Nat
  src : Word
  dst : Word
  len : Nat
  promise : Word
  /-- A peer copy's data have been sent and its done flit is awaited (R405). -/
  sent : Bool
  /-- The identifier of a peer copy on its eyelet (Table 18-3). -/
  ident : Nat
  /-- Absolute tiles of the source and destination, as they stood at issue (R20). -/
  srcTile : Nat
  dstTile : Nat
  /-- Remote writes of the copy not yet performed. -/
  out : Nat
  /-- Bytes that have been read and sent or written. -/
  moved : Nat
  deriving DecidableEq, Repr

/-- A vertical bulk transfer in progress (Table 09-6). -/
structure Vxfer where
  off : Nat
  acc : Bool
  unit : Nat
  uoff : Nat
  toStore : Bool
  len : Nat
  ctr : BitVec 2
  eng : BitVec 1
  setf : Bool
  /-- Bytes moved so far. -/
  done : Nat
  deriving DecidableEq, Repr

/-- An LTLD or LTST whose completion is not posted (R231, R232). -/
structure LineOp where
  cnum : BitVec 32
  thread : Nat
  store : Bool
  tag : BitVec 60
  off : Nat
  /-- The line's 1,040 bytes once they are on their way to the store. -/
  bytes : List Byte
  deriving DecidableEq, Repr

/-- Completion numbers, vertical counters and the engines of a tile (R217, R225 to R232). -/
structure Engines where
  cnum : BitVec 32
  /-- Numbers assigned and not yet posted. -/
  pending : List (BitVec 32)
  vcnt : Vector Word32 4
  csdiv : Nat
  streams : Vector Stream 16
  copies : List Copy
  /-- Promises of the tile's copies: number, thread and promise, until posted (R193, R227). -/
  promises : List (BitVec 32 × Nat × Word)
  vxfers : Tab Vxfer
  /-- Per engine the cycle in which it last moved bytes, and how many it moved in it (R221). -/
  moved : Vector (Nat × Nat) 2
  lines : List LineOp
  deriving DecidableEq, Repr

end Sys2Proof.Machine
end

