-- ==== Sys2Proof/Machine/FabricState.lean ====
section
/-! DEFINITION. The state of processing elements, regions, the tile memory interface and scatter-reduce units
(spec 02 R36 to R42, 10, 05 R127). -/

namespace Sys2Proof.Machine

/-- A result on its way to landing (R258, R259, R283): unfrozen cycles left, physical destination, WE, value, flags. -/
structure InFlight where
  left : Nat
  dst : BitVec 4
  we : Bool
  value : Word32
  flags : BitVec 5
  deriving DecidableEq, Repr

/-- A port latch: its value and its full bit (R40). -/
structure Latch where
  value : Word32
  full : Bool
  deriving DecidableEq, Repr

/-- A ring window: start entry and length (R36). -/
structure Ring where
  start : Nat
  length : Nat
  deriving DecidableEq, Repr

/-- A processing element (R27, R36, R40, R262, R274, R283). The head of `replies` is the V latch. -/
structure PE where
  k : Vector Word32 16
  c : Vector Word32 8
  scratch : Mem
  n : Latch
  e : Latch
  s : Latch
  w : Latch
  m : Latch
  replies : List Word32
  /-- Store-form PLDs fired and not yet delivered to `replies` (R275). -/
  awaited : Nat
  ops : Vector (BitVec 24) 32
  routes : Vector (BitVec 16) 32
  ras : Vector (BitVec 16) 32
  opRing : Ring
  routeRing : Ring
  raRing : Ring
  region : Option Nat
  inflight : List InFlight
  /-- Within one cycle: latches read, latches a join keeps, values driven (R40, R261, R281). -/
  reads : List Port
  keeps : List Port
  drives : List (Port × Word32)
  /-- Scratch write of this cycle (R272). -/
  scratchWrite : Option (Nat × Word32)
  deriving DecidableEq, Repr

/-- A fabric region with its loop context (Table 02-2, R37, R38, R255, R262, R366). -/
structure Region where
  pid : Nat
  lnum : Nat
  /-- Graph number; the placement-relative rectangle of its PEs and the absolute fabric origin of the placement. -/
  number : Nat
  x : Nat
  y : Nat
  w : Nat
  h : Nat
  fx : Nat
  fy : Nat
  slot : BitVec 8
  pm1 : BitVec 8
  sv : BitVec 8
  rbase : BitVec 4
  st : BitVec 2
  iter : Word32
  trip : Word32
  smax : BitVec 3
  flags : BitVec 5
  /-- Boundaries since the start (R274), and starts so far. -/
  period : Nat
  runs : Nat
  loaded : Bool
  phases : List PhaseImage
  stop : Bool
  /-- TRIP of a start that waits for its slot (R255). -/
  go : Option Word32
  /-- A phase rewrite that waits for ST = 3 and the drain tokens: phase, GO, TRIP, thread (R255). -/
  rewrite : Option (BitVec 3 × Bool × Word32 × Nat × Nat)
  /-- Output arcs' drain tokens have been sent (R262). -/
  drained : Bool
  faults : Nat
  /-- Halted at a boundary by its fault log (R366), or stopped where it stands (R54). -/
  held : Bool
  /-- CRC-32 of the ring words, taken when a phase is loaded (R379). -/
  signature : Word32
  deriving DecidableEq, Repr

/-- A store op of a chain (R273, R274). -/
structure StoreOp where
  /-- The start of its region that it belongs to, counted from 1, and its sequence number. -/
  run : Nat
  seq : Nat
  pe : Nat
  load : Bool
  off : Word32
  data : Word32
  fem : BitVec 2
  own : Nat
  iter : Nat
  region : Nat
  deriving DecidableEq, Repr

/-- A chain of a tile: its request queue of 16, the region start it performs and its next sequence number there, and
whether its head has faulted (R274 to R277). -/
structure Chain where
  queue : List StoreOp
  run : Nat
  next : Nat
  faulted : Bool
  deriving DecidableEq, Repr

/-- The contributions a tile has combined for flit q of a reduction tree (R279). -/
structure PredFlit where
  rid : Nat
  q : Nat
  op : BitVec 4
  vc : Nat
  lanes : List Word32
  made : Nat
  region : Nat
  deriving DecidableEq, Repr

/-- A reduction token at a scatter-reduce unit (R127): byte offset, operation, width, operand, source triple, context. -/
structure RedToken where
  off : Nat
  op : BitVec 4
  w : BitVec 1
  operand : Word
  src : Nat
  vc : Nat
  seq : Nat
  /-- 0 thread, 1 region; and its number (Table 17-4). -/
  ctxKind : Nat
  ctx : Nat
  deriving DecidableEq, Repr

/-- A scatter-reduce unit: its window of 64 tokens and its filter (source, VC, last SEQ applied) (R126, R127). -/
structure ScatterUnit where
  window : List RedToken
  filter : List (Nat × Nat × Nat)
  deriving DecidableEq, Repr

/-- The memory interface of a tile for its PEs (R27, R273 to R279). -/
structure MemInterface where
  chainTable : Tab Word32
  chains : Tab Chain
  preds : Tab (BitVec 64)
  predFlits : List PredFlit
  units : Vector ScatterUnit 8
  deriving DecidableEq, Repr

end Sys2Proof.Machine
end

