-- ==== Sys2Proof/Machine/MatrixState.lean ====
section
/-! DEFINITION. The state of a tile's matrix engine and bobbin (spec 11, 05 R114). -/

namespace Sys2Proof.Machine

/-- A bobbin channel entry (Table 11-3). -/
structure ChannelEntry where
  v : Bool
  wfmt : BitVec 5
  obf : BitVec 4
  nobm1 : BitVec 4
  deriving DecidableEq, Repr

/-- A table entry in progress (R292): its index, the number of its firing, the unfrozen cycles done, and ROUNDS at the
firing (R296). -/
structure Progress where
  entry : Nat
  fired : Nat
  done : Nat
  rounds : Word32
  deriving DecidableEq, Repr

/-- A queued signal (R297): signal number, the value to write, and the firings that must have completed. -/
structure Signal where
  sig : BitVec 4
  value : Word
  after : List Nat
  deriving DecidableEq, Repr

/-- An operand buffer: its 18 KiB and its full bit (Table 11-1). -/
structure OperandBuffer where
  mem : Mem
  full : Bool
  deriving DecidableEq, Repr

/-- The matrix engine (Table 11-1, Table 09-13). -/
structure Matrix where
  table : Vector (BitVec 64) 64
  em1 : BitVec 6
  qm1 : BitVec 8
  ts : Vector Word32 16
  skey : Word32
  sctr : Word32
  sigbase : Word32
  channels : Vector ChannelEntry 32
  mslot : BitVec 8
  cyc : BitVec 3
  rounds : Word32
  limit : Word32
  st : BitVec 3
  flags : BitVec 5
  acc : Vector Mem 16
  ob : Vector OperandBuffer 16
  signals : List Signal
  /-- Entries of the current slot that have not fired, in table order (R291). -/
  due : List Nat
  /-- Entries in progress, by firing number (R292), and the number of firings made. -/
  progress : List Progress
  firings : Nat
  /-- MEND has fired or the rounds are done; the engine runs its work to completion (R298). -/
  ending : Bool
  /-- The slot at which a start is due, and its rounds (R256). -/
  go : Option Word32
  /-- The engine stands still with its launch (R54). -/
  held : Bool
  /-- The store word that a frozen MWAIT waits for, and whether its bank has given it since (R297). -/
  waits : Option Nat
  taken : Bool
  /-- Channels whose entry an MXLOAD that waits for their expansions is to change (R287). -/
  reload : List Nat
  deriving DecidableEq, Repr

/-- An expansion in progress: channel, block and the cycle count at which it ends (R287). -/
structure Expansion where
  vc : Nat
  blk : Nat
  buffer : BitVec 4
  deriving DecidableEq, Repr

/-- The bobbin: per channel staging in SEQ order, next expected SEQ and next BLK; expansions in progress (R114, R287). -/
structure Bobbin where
  staging : Tab (List ZwiluFlit)
  expected : Tab Nat
  nextBlk : Tab Nat
  expanding : List Expansion
  deriving DecidableEq, Repr

end Sys2Proof.Machine
end

