-- ==== Sys2Proof/Machine/NetState.lean ====
section
/-! DEFINITION. The state of the Zwilu layer, the mesh, and memory sequencers with their channels
(spec 05, 09 R238 to R250, 04 R91 to R93). -/

namespace Sys2Proof.Machine

/-- A multicast group of a placement (Table 05-1) with its drop tiles, absolute; `split` is SPLIT (R109). -/
structure Group where
  wg : Nat
  wmask : BitVec 16
  vc : Nat
  port : Nat
  drops : List Nat
  dlist : Nat
  split : Nat
  deriving DecidableEq, Repr

/-- The state of a group at its transmitter: send queue, next SEQ, block number and open block bytes of the lane that
fills it, refused SEQs not yet resent with the slot from which each may be resent (R113, R115, R243). -/
structure GroupSend where
  queue : List ZwiluFlit
  seq : Nat
  refused : List (Nat × Nat)
  /-- Turns that the group has had in the halt in effect (R117). -/
  turns : Nat
  deriving DecidableEq, Repr

/-- A transmitter (R111, R113): timetable, S0 and PHI, the launch, its groups, retained flits newest first, whether it
sends nothing until a halt (R116), stands still with its launch, and the run in progress per quad. -/
structure Transmitter where
  entries : List (BitVec 64)
  s0 : Nat
  phi : Nat
  launch : Option (Nat × Nat)
  origin : Nat
  sends : Tab GroupSend
  retained : List ZwiluFlit
  blocked : Bool
  held : Bool
  /-- The first slot after its cut's last run, whose entry it would use next (R111, R369). -/
  next : Nat
  /-- Wavelength runs in progress: group, slots left, the flit sent (R112). -/
  runs : List (Nat × Nat × Option ZwiluFlit)
  /-- Groups that resend in a halt, with the cycle at which their wavelengths are free (R117). -/
  resends : List (Nat × Nat)
  deriving DecidableEq, Repr

/-- A mesh flit on its way (R119 to R123): the router where it stands or is about to arrive, its class of buffer, the input it
stands in (0 the tile's own, 1 to 4 the links to the north, east, south and west), the cycle from which it stands there,
and the error it has picked up. -/
structure Travel where
  flit : MeshFlit
  tile : Nat
  reply : Bool
  input : Nat
  since : Nat
  error : Secded
  deriving DecidableEq, Repr

/-- A router output (R120, R121, R227): the cycle after its last flit, the cycle after its last transit flit, and the source of
its last copy flit. -/
structure Link where
  used : Nat
  transit : Nat
  copier : Nat
  deriving DecidableEq, Repr

/-- The two ends of a (source, destination, VC) triple (R122, R123): next SEQ and replay buffer at the source, next
expected SEQ at the destination. -/
structure Triple where
  next : Nat
  replay : List MeshFlit
  expected : Nat
  deriving DecidableEq, Repr

/-- A couching tree node for one reduction identifier (R124, R126): children, parent, VC, the operation in use, per child
the contributions that wait for those of the other children, oldest first (exponent pass or not, payload), and the last
SEQ per child. -/
structure TreeNode where
  children : List Nat
  parent : Option Nat
  vc : Nat
  op : BitVec 4
  waiting : Tab (List (Bool × BitVec 1024))
  last : Tab Nat
  /-- Results the root has delivered, oldest first. -/
  results : List (BitVec 1024)
  /-- The exponent maxima of the A64 reduction under way at the root and the data-pass flits since (R125), the declared
  contributors, and whether the output is BF16 (R72). -/
  maxima : Option (BitVec 1024)
  passed : Nat
  /-- The tree is a collective's, whose results go down it (R125, R128); what the node has sent up under a tag and has no
  answer for, each an exponent pass or not. -/
  down : Bool
  asked : List Bool
  declared : Nat
  half : Bool
  /-- Flags of the node's combinations and of the final roundings of its results (R69, R72). -/
  flags : BitVec 5
  deriving DecidableEq, Repr

/-- A token arc of a live launch (R46, R47, R306): tokens sent and received, tokens taken by the consumer, tokens in the
buffer of the consumer's router, and whether its drain token has passed (R103). -/
structure ArcState where
  sent : Nat
  received : Nat
  taken : Nat
  buffer : List Word32
  drained : Bool
  deriving DecidableEq, Repr

/-- A command in a channel's history (R239): kind by its OP code, pseudo-channel, bank (16 for all), MCK. -/
structure Command where
  op : Nat
  pc : Nat
  bank : Nat
  at_ : Nat
  deriving DecidableEq, Repr

/-- A bank of a pseudo-channel (R240, R241, R244): its open row, the MCK of its last ACT, its precharge time (of a PRE, or of
an auto-precharge, which may lie ahead), and its refresh debt. -/
structure Bank where
  row : Option (BitVec 15)
  act : Option Nat
  precharged : Option Nat
  debt : Int
  deriving DecidableEq, Repr

/-- A lane of a sequencer (R243): the target group, tile or LLC line, offset and channel, bytes waiting, the open block's
bytes, BLK and flits closed. -/
structure Lane where
  kind : Nat
  target : Nat
  off : Nat
  vc : Nat
  bytes : List Byte
  block : List Byte
  /-- Payload bytes of the open block already packed into flits. -/
  packed : Nat
  blk : Nat
  deriving DecidableEq, Repr

/-- A demand request at a channel (R92, R249): the bytes of a write
by channel offset, or the pieces of a read: position in the line, channel offset and length. -/
inductive DemandKind where
  | read (pieces : List (Nat × Nat × Nat))
  | write (bytes : List (Nat × Byte))
  /-- A stream's element of kind 5: tile, context, channel offset and length (R218). -/
  | stream (tile ctx off len : Nat)
  /-- The entry that a page walk reads, at a channel offset (R354). -/
  | walk (key off : Nat)
  /-- A line of the save area written by a cut, or read by a restore, of a launch (R374): the bytes by channel offset. -/
  | save (pid lnum : Nat) (bytes : List (Nat × Byte))
  deriving DecidableEq, Repr

/-- The request of a line or of one HBM4 line of it: partition, LLC tag, 1,024-byte line number in the channel. -/
structure Demand where
  pid : Nat
  tag : BitVec 60
  line : Nat
  kind : DemandKind
  thread : Option (Nat × Nat)
  deriving DecidableEq, Repr

/-- A memory sequencer, its channel and its refresh keeper (R238 to R250). MCK are counted from power-up. -/
structure Chan where
  mem : Mem
  banks : Vector Bank 32
  history : List Command
  selfRefresh : Bool
  modes : Tab (BitVec 8)
  words : List (BitVec 64)
  loadedAtM : Bool
  launch : Option (Nat × Nat)
  /-- First MCK of S0, or of the restored S0 (R238). -/
  start : Nat
  index : Nat
  /-- The MCK of the previous word. -/
  last : Nat
  /-- The next word takes DELTA 0 (R246), or issues at `last` after an idle run (R247). -/
  noDelta : Bool
  loop : Option Nat
  frameStart : Option (Nat × Nat)
  /-- Index of the idle frame's DFRAME, and the position within a repeated idle run, if one is running (R247). -/
  idle : Option Nat
  idlePos : Option Nat
  /-- The boundary word that waits for a stall, halt or stop to end (R247, R93). -/
  waiting : Option Nat
  ended : Bool
  halted : Bool
  /-- Bank closing after a halt is still due (R250). -/
  closing : Bool
  held : Bool
  keeper : Bool
  /-- Start of the refresh interval, and whether R248 holds it. -/
  interval : Nat
  intervalHeld : Bool
  lanes : Tab Lane
  demands : List Demand
  /-- The launches for which the demand slot that ends at `windowAt` serves a home slice (R52). -/
  serving : List (Nat × Nat)
  /-- Slots left of the open demand window and the MCK of the next slot (R249). -/
  window : Nat
  windowAt : Nat
  /-- MCK of the keeper's last command, or of the end of its last service slot (R248, R343). -/
  kept : Nat
  deriving DecidableEq, Repr

end Sys2Proof.Machine
end

