-- ==== Sys2Proof/Machine/LaunchState.lean ====
section
/-! DEFINITION. The state of partitions, launch queues, bindings, launches, cuts, the LLC and translation
(spec 04 R83 to R90, 14, 15, 16, 17). -/

namespace Sys2Proof.Machine

/-- An LLC line (R83): data, sidecar, generation, dirty. A listed line is valid. `home` is its slice (absolute tile). -/
structure Line where
  data : List Byte
  sidecar : List Byte
  gen : BitVec 16
  dirty : Bool
  home : Nat
  deriving DecidableEq, Repr

/-- A tensor descriptor (Table 04-4). -/
structure Tensor where
  base : Word
  fmt : BitVec 8
  rank : BitVec 8
  halo : BitVec 8
  gen : Word32
  dims : Vector Word32 4
  strides : Vector Word 3
  ts : Vector (BitVec 8) 4
  hseed : Word32
  deriving DecidableEq, Repr

/-- What a translation answers: a page, or a failure with its subcode, or cause 0x06 (R354). -/
inductive Translation where
  | page (p : Page)
  | fail (sub : Nat)
  | access
  deriving DecidableEq, Repr

/-- What a walk serves: a thread's access at an address, with its kind and whether it is at U; a line's fill; a line's
write-back (R354, R359). -/
inductive WalkFor where
  | thread (tile thread va : Nat) (write user : Bool)
  | fill (tag : BitVec 60)
  | back (tag : BitVec 60)
  deriving DecidableEq, Repr

/-- A page walk (R354, R356): an address of its page, the field, the next level and the address of its table, what the last
entry read ended it with, and what has joined it. -/
structure Walk where
  va : Nat
  field : Nat
  level : Nat
  table : Nat
  result : Option Translation
  waiting : List WalkFor
  /-- One of the field's 32 walkers walks it. -/
  started : Bool
  /-- TLBINV covers the walk: its result is discarded (R320). -/
  discard : Bool
  deriving DecidableEq, Repr

/-- A fill in progress (R88, R309, R359): the generation in which it began, the bytes so far, whether its requests are sent
and how many are not served, and the 64 KiB page numbers whose translation has failed. -/
structure Fill where
  gen : BitVec 16
  bytes : List Byte
  asked : Bool
  left : Nat
  failed : List Nat
  deriving DecidableEq, Repr

/-- A write-back that waits for walks (R359): the threads whose fences wait for it, and the page numbers that have failed. -/
structure Back where
  threads : List (Nat × Nat)
  failed : List Nat
  deriving DecidableEq, Repr

/-- QCFG and QSTAT of a queue (Tables 15-2 and 15-3). -/
structure Queue where
  en : Bool
  prio : BitVec 3
  agep : BitVec 4
  host : Bool
  held : Bool
  ovf : Bool
  perr : Bool
  pkterr : Bool
  last : Word32
  /-- The cycles in which OVF, PERR and PKTERR were last set (R10). -/
  ovfAt : Nat
  perrAt : Nat
  pktAt : Nat
  /-- Launch numbers accepted and not ended, oldest first. -/
  packets : List Nat
  /-- AGE, sweep windows waited since its last rise, and the cycle since which the head is ready (R342). -/
  age : Nat
  windows : Nat
  ready : Option Nat
  deriving DecidableEq, Repr

/-- The binding of an image (R337, R339). -/
structure Binding where
  image : Option Image
  imageAt : Nat
  /-- The image's bytes, as the bind read them at its arrival (R337). -/
  read : List Byte
  x0 : Nat
  y0 : Nat
  pvbase : Nat
  psize : Nat
  current : Nat
  bound : Bool
  deriving DecidableEq, Repr

/-- Where a launch stands (R341 to R347). -/
inductive LaunchPhase where
  | queued | configuring | starting | live | held | ended
  deriving DecidableEq, Repr

/-- A placement barrier (R251): completed phases, N and the arrivals counted in the current phase, and per tile the number
of completions that have reached it. -/
structure Barrier where
  phase : Nat
  parties : Nat
  arrivals : Nat
  told : Tab Nat
  deriving DecidableEq, Repr

/-- Kinds of cut (R368). -/
inductive CutKind where
  | preemption | snapshot | suspend
  deriving DecidableEq, Repr

/-- The saved elements of a tile (Table 17-6). -/
structure TileCut where
  core : Core
  store : Store
  engines : Engines
  mem : MemInterface
  matrix : Matrix
  bobbin : Bobbin
  sent : Word
  received : Word
  ccnt : Word
  edge : List MeshFlit
  deriving DecidableEq, Repr

/-- An undo entry (R375): the tag, the line as it stood with its dirty bit, and the filters that guard it, by key of
`redFilter`. -/
structure Undo where
  tag : BitVec 60
  line : Line
  filters : Tab Nat
  /-- The line has been written back since: memory no longer holds what the entry does. -/
  stale : Bool
  deriving DecidableEq, Repr

/-- A cut of a launch (R368 to R376). -/
structure Cut where
  number : Nat
  slot : Nat
  kind : CutKind
  /-- The other launches of the module in its cut group: partition and number (R368). -/
  group : List (Nat × Nat)
  elements : List Element
  picots : List (Element × Nat)
  complete : Bool
  tiles : Tab TileCut
  regions : Tab Region
  pes : Tab PE
  txs : Tab Transmitter
  /-- Sequencer, boundary word index, loop count and lanes (Table 17-6, R243). -/
  chans : List (Nat × Nat × Option Nat × Tab Lane)
  nodes : Tab TreeNode
  triples : Tab Triple
  barriers : Vector Barrier 16
  filters : Tab Nat
  arcs : Tab ArcState
  calls : Tab (List Nat × Nat)
  /-- Undo entries of the interval that follows the cut, newest first, and whether the log has filled (R375). -/
  undo : List Undo
  full : Bool
  deriving DecidableEq, Repr

/-- A sweep's sums (R52). -/
structure Sweep where
  quiescent : Bool
  sent : Word
  received : Word
  deriving DecidableEq, Repr

/-- A launch (R334, R343 to R347). -/
structure Launch where
  queue : Nat
  tag : Word32
  flags : BitVec 8
  wctr : BitVec 12
  wval : Word32
  sctr : BitVec 12
  bind : Nat
  version : Nat
  /-- The bind of its handle failed after its acceptance (R335). -/
  failed : Bool
  s0 : Nat
  phase : LaunchPhase
  mattr : Bool
  elastic : Bool
  /-- The cause that holds it, 0 for none (R365). -/
  cause : Nat
  lastSweep : Option Sweep
  /-- The graph's arcs by number. -/
  arcs : Tab ArcState
  /-- Calls of collective nodes under way, by 4,096 times the call plus the node: the blocks per path that the call latched,
  and the tiles at which it is complete (R131, R252). -/
  calls : Tab (List Nat × Nat)
  barriers : Vector Barrier 16
  cuts : List Cut
  cutting : Option Cut
  nextCut : Nat
  /-- The slot of the next snapshot cut (R374). -/
  snapAt : Nat
  /-- EVSIG counters and LNCH packets held until the next cut completes (R377); a packet with its queue and number. -/
  heldEvents : List Nat
  heldPackets : List (Nat × Nat × List Byte)
  /-- Restored from its last cut; the start waits for tiles (R373). -/
  restoring : Bool
  /-- Requests of save or restore traffic that are not served yet (R374). -/
  saveOut : Nat
  deriving DecidableEq, Repr

/-- An event record (Table 17-2) before its log slot is written. -/
structure Record where
  typ : Nat
  cause : Nat
  sub : Nat
  skind : Nat
  src : Nat
  queue : Nat
  lnum : Nat
  seq : Nat
  stamp : Nat
  data : List Byte
  deriving DecidableEq, Repr

/-- A partition (Tables 14-5 to 14-7, 16-1, 17-5, R325 to R328, R363). -/
structure Partition where
  present : Bool
  x0 : Nat
  y0 : Nat
  w : Nat
  h : Nat
  channels : List Nat
  eyelets : List Nat
  snapi : Nat
  saveArea : Nat
  elastic : Bool
  alloc : Nat
  /-- ALLOC from the next window (R411). -/
  allocNext : Nat
  lastPower : Nat
  windowStart : Nat
  windows : Nat
  ptroot : Word
  evlog : Word
  seq : Nat
  /-- Records posted, newest first, and those held while EN = 0 (R364). -/
  records : List Record
  buffer : List Record
  /-- MSI-X messages sent (Table 17-5 IE). -/
  messages : Nat
  tensors : Tab Tensor
  lines : Tab Line
  /-- Accesses that wait for a fill, per tag, and lines whose fill is requested with lines outstanding (R90). -/
  waitingFills : List GlobalReq
  fills : Tab Fill
  /-- Write-backs that wait for a walk, per tag (R359). -/
  backs : Tab Back
  /-- A walk that removes the lines of a TID (R88), and threads that wait for it. -/
  genWalks : List (Nat × Nat × Nat)
  counters : Tab Word32
  edges : Tab (BitVec 64)
  edgeMisses : Nat
  /-- Last global RED applied per line, source and channel: 32 (4,096 line tag + source) + channel (R126). -/
  redFilter : Tab Nat
  queues : Vector Queue 64
  bindings : Tab Binding
  nextLaunch : Nat
  /-- The first cycle in which the launch unit may take another arrival of the partition (R331). -/
  nextArrival : Nat
  launches : Tab Launch
  dispatching : Option Nat
  /-- The partition's entries of the last-level TLB of each field (Table 16-5). -/
  tlb : Tab (List Page)
  /-- Walks by 2^47 times the partition, plus 2^41 times the field, plus VA[56:16]. -/
  walks : Tab Walk
  deriving DecidableEq, Repr

end Sys2Proof.Machine
end

