-- ==== Sys2Proof/Machine/LinkState.lean ====
section
/-! DEFINITION. The state of eyelets, lasers, the edge switch, tile control blocks, and the module controller
(spec 01, 18, 19). -/

namespace Sys2Proof.Machine

/-- A direction of an eyelet (Table 18-6, R391 to R398). -/
structure LinkDir where
  act : BitVec 16
  spon : Bool
  spfor : BitVec 4
  spblk : Bool
  lst : BitVec 3
  ft : BitVec 9
  nfm1 : BitVec 4
  smarg : BitVec 8
  /-- Transmitter: next SEQ, held flits oldest first, flits waiting to be sent (R391, R401). -/
  seq : BitVec 24
  heldFlits : List EyeletFlit
  queue : List EyeletFlit
  /-- Sequenced flits that are sent again, in order (R391, R395); what has been sent, newest first; the cycle of the last
  acknowledgement or request, or of the first flit held (R391). -/
  resend : List EyeletFlit
  out : List EyeletFlit
  heard : Nat
  /-- Sending of sequenced flits is stopped until the resume slot (R395). -/
  stopped : Bool
  /-- Receiver: next expected SEQ, accepted since the last acknowledgement, a replay request is out (R391). -/
  expected : BitVec 24
  sinceAck : Nat
  requested : Bool
  /-- Pending lane change (R394, R395): new mask, lane the spare takes, SEQ, Z; dark, training and marginal lanes. -/
  pending : Option LaneChange
  dark : List Nat
  training : List Nat
  marginal : List (Nat × Nat)
  /-- Partial tokens per tag (R388). -/
  partialTokens : Tab (List Byte)
  /-- The copy being received under a tag: tile (4,096 where nothing is written), next offset, flits left, identifier (R405). -/
  copies : Tab (Nat × Nat × Nat × Nat)
  deriving DecidableEq, Repr

/-- An eyelet (R386, R399 to R401): ECFG, its two directions, edge switch timetable with RET bits, copy being sent. -/
structure Eyelet where
  /-- The module that the eyelet reaches, once bring-up has found it. -/
  peer : Option Nat
  mthr : BitVec 8
  spen : Bool
  tx : LinkDir
  rx : LinkDir
  entries : List Word32
  s0 : Nat
  phi : Nat
  /-- Skew of an entry and of its ALT in UI as bring-up and retrains measured them (R400, R401). -/
  skews : Tab (Nat × Nat)
  barUntil : Nat
  delay : Nat
  lastCopy : Nat
  /-- An eyelet of the tree that carries sync frames toward the leaves (R402). -/
  tree : Bool
  /-- Tokens and picots that have arrived for the collective paths of a tag, newest first (R118, log 14). -/
  arrived : List (Nat × List Byte)
  deriving DecidableEq, Repr

/-- The tile's control block (Table 19-1) and retirement (R18, R19). -/
structure Control where
  temp : BitVec 16
  volt : BitVec 16
  rosc : BitVec 16
  opnt : BitVec 2
  gateBank : BitVec 32
  gateWay : BitVec 16
  bwake : BitVec 32
  wwake : BitVec 16
  ton : Bool
  /-- Banks and ways without power: gated and not woken since (R79, R408). -/
  bankOff : BitVec 32
  wayOff : BitVec 16
  /-- Both conditions of R410 have been clear since the window began. -/
  clear : Bool
  retire : Bool
  unavailable : Bool
  /-- The router forwards (R18). -/
  forwards : Bool
  /-- Single-bit errors of mesh flits and of store words that have been corrected (R123, R380). -/
  corrected : Nat
  /-- Vertical buses under test (R383): bus number and whether the window was aborted. -/
  busTests : List (Nat × Bool)
  deriving DecidableEq, Repr

/-- The placement a tile belongs to (R48): partition, launch, absolute origin and size, binding. -/
structure Place where
  pid : Nat
  lnum : Nat
  x0 : Nat
  y0 : Nat
  w : Nat
  h : Nat
  bind : Nat
  deriving DecidableEq, Repr

/-- A logical tile (Table 01-3). -/
structure Tile where
  core : Core
  store : Store
  eng : Engines
  mem : MemInterface
  matrix : Matrix
  bobbin : Bobbin
  ctl : Control
  /-- CCNT is the module's cycle count plus this offset (R187). -/
  ccntOff : Word
  sent : Word
  received : Word
  active : Bool
  place : Option Place
  /-- The elements of the tile stand where they stand (R54). -/
  stopped : Bool
  /-- The binding whose configuration the tile holds (R338), and drain tokens still awaited (R103). -/
  configured : Option Nat
  drains : List Nat
  tlb : List Page
  edge : List MeshFlit
  deriving DecidableEq, Repr

/-- Suspend (R413 to R415). -/
inductive Suspend where
  | running
  | suspending (resumePending : Bool) (noticeSlot : Nat)
  | suspended (noticeSlot : Nat)
  deriving DecidableEq, Repr

/-- A domain halt (R116, R117): declared slot, in effect, slots it has lasted, clear reports. -/
structure DomainHalt where
  declared : Option Nat
  active : Bool
  since : Nat
  /-- What declared it: SKIND, source, group and VC (R117). -/
  who : Nat × Nat × Nat × Nat
  timedOut : Bool
  /-- This module has reported clear; the other modules that have, and the last cycle of a report (R117). -/
  reported : Bool
  reports : List Nat
  lastReport : Nat
  deriving DecidableEq, Repr

/-- A bring-up step's flash record: boot count, step, attempt, outcome (R418). -/
structure StepRecord where
  boot : Nat
  step : Nat
  attempt : Nat
  done : Option Bool
  deriving DecidableEq, Repr

/-- A firmware block (R416): active bank, image of each bank with its SVN, staged, minimum SVN. -/
structure Firmware where
  bankB : Bool
  imageA : List Byte
  imageB : List Byte
  svnA : Nat
  svnB : Nat
  staged : Bool
  minSvn : Nat
  deriving DecidableEq, Repr

/-- The module controller (R412 to R419). -/
structure Controller where
  blocks : Vector Firmware 5
  measurements : Vector (BitVec 384) 8
  flash : List StepRecord
  boot : Nat
  outOfService : Option Nat
  retiredStacks : List Nat
  failedWaveguides : List Nat
  /-- Responses sent, newest first: command code, status, data (R412). -/
  responses : List (Nat × Nat × List Nat)
  /-- SPDM answers, newest first: the measurements reported and the signature (R417). -/
  signatures : List (List (BitVec 384) × BitVec 768)
  linkLog : List Record
  lasersOut : List Nat
  /-- Activations requested and waiting for their quiet point (Table 19-4). -/
  activating : List FwBlock
  /-- The eyelet out of service for the activation of its image, with the LST of its two directions before it. -/
  downEyelet : Option (Nat × BitVec 3 × BitVec 3)
  deriving DecidableEq, Repr

end Sys2Proof.Machine
end

