-- ==== Sys2Proof/Machine/State.lean ====
section
/-! DEFINITION. The whole state of a module as plain data, its state right after reset, and the ways a step can stop.
The parts are in CoreState, FabricState, MatrixState, NetState, LaunchState and LinkState. In a table `Tab` a key that
is not listed stands for the reset value of its kind. -/

namespace Sys2Proof.Machine

/-- One thing the module does next (log 1): a unit issues its next word, an event happens, the results of a region's cycle
take effect, or the units begin a cycle. -/
inductive Work where
  | thread (tile t : Nat)
  | peOp (r pe : Nat)
  | peRoute (r pe : Nat)
  | commit (r : Nat)
  | matrix (tile entry : Nat)
  | matrixWork (tile : Nat)
  | command (ch : Nat)
  | event (e : Event)
  | units
  deriving DecidableEq, Repr

/-- The unit whose word is being performed (log 1): set by the step before each instruction. -/
structure Cur where
  tile : Nat
  thread : Nat
  /-- Address of the instruction's first word, of the word after it, and the first word itself (R316). -/
  ipc : Word
  npc : Word
  word : Word32
  region : Nat
  pe : Nat
  /-- The register-address word of the PE's slot (R154). -/
  ra : BitVec 16
  entry : Nat
  chan : Nat
  /-- The D-word at the sequencer's index (Table 09-9). -/
  dword : BitVec 64
  deriving DecidableEq, Repr

/-- An AW1 module (spec 01 to 19). The last block of fields is the model's own (log 1, log 2). -/
structure State where
  /-- Core cycles since power-up; CCNT of a tile is this plus the tile's offset (R187). MCK run 6 to 8 of these (R4). -/
  cycle : Nat
  /-- The global slot counter (R187, R116). -/
  gslot : Nat
  /-- The module's number in its synchronous domain (R118). -/
  number : Nat
  /-- Error of the slot clock being slewed away, in 1/1,024 slot (R402). -/
  slotError : Int
  halt : DomainHalt
  suspend : Suspend
  tiles : Tab Tile
  /-- PEs by absolute fabric coordinate, 512 Y + X (R21). -/
  pes : Tab PE
  /-- Regions by 4,096 times the placement's origin tile plus the graph number (R255). -/
  regions : Tab Region
  chans : Tab Chan
  txs : Tab Transmitter
  /-- Groups by 4,096 times the placement's origin tile plus the group number (R109). -/
  groups : Tab Group
  travels : Tab Travel
  nextTravel : Nat
  /-- Router outputs by 8 times the tile plus the output: 0 to the tile, 1 to 4 to the north, east, south and west (R119). -/
  links : Tab Link
  /-- Mesh triples by 32 times (4,096 times the source plus the destination) plus the VC (R122). -/
  triples : Tab Triple
  /-- Tree nodes by 4,096 times the tile plus the reduction identifier (R124). -/
  nodes : Tab TreeNode
  parts : Tab Partition
  eyelets : Tab Eyelet
  ctl : Controller
  /-- Host memory (R91), by host offset. -/
  host : Mem
  /-- Words of the memories that have lost bits (R380), and configuration stores being written again (R379). -/
  flaws : List Flaw
  reloading : List ConfigStore
  /-- Host arrivals at the launch units that have not been taken, in the order in which they are (R331, R348). -/
  arrivals : List Work
  agenda : List Work
  timers : List (Nat × Work)
  sched : List Nat
  free : Nat
  cur : Cur
  deriving DecidableEq, Repr

/-- Why a step stops for good. -/
inductive Fault where
  /-- Raised by no step and by no instruction: work that names a tile, sequencer, thread or other unit outside the module
  (R25, R27) is dropped. Safe: the hardware has no such unit, so nothing happens there. -/
  | noSuchUnit
  deriving DecidableEq, Repr

/-- Why a step declines an instruction. -/
inductive Refusal where
  /-- Raised by the dispatch for an instruction without a meaning. Safe: nothing can be proved of a run through it. -/
  | notModelled (mnemonic : String)
  deriving DecidableEq, Repr

/-! ### The state right after reset (spec; values that the spec does not give are those of log 3) -/

def Thread.reset : Thread where
  st := .halted
  pc := 0
  lo := 0
  hi := 0
  g := Vector.replicate 32 0
  p := 0
  next := 0
  rptAt := none
  fflags := 0
  paramv := 0
  pl := 0
  ppl := 0
  inh := false
  cause := 0
  sub := 0
  tepc := 0
  tval := 0
  tscr := 0
  wake := false
  lastCnum := 0
  relaxed := []
  remoteOut := 0
  globalOut := 0
  redOut := 0
  writebackOut := 0
  redFlags := 0
  redSeq := []
  faults := 0
  arrivals := []
  walkFault := []
  debug := false
  writesOut := 0
  slow := []
  storeUntil := 0
  issued := false
  mismatch := false

def Store.reset : Store where
  mem := []
  full := []
  waiters := []
  held := []
  busy := []

def Core.reset : Core where
  threads := Vector.replicate 8 Thread.reset
  imem := []
  shared := Vector.replicate 16 0
  recv := Vector.replicate 2 []
  send := Vector.replicate 2 []
  heldMsgs := []
  tvec := 0xE000
  mtvec := 0xE000
  csel := 0
  gsel := 0
  esel := 0
  weights := []
  rates := []
  calls := []
  accepted := []
  gathered := []
  runs := []
  pieces := []
  shadowOf := none
  shadowMask := 0
  haltc := false

def Stream.reset : Stream where
  st := 0
  can := false
  done := 0
  cnum := 0
  desc := none
  pages := []
  thread := 0
  node := none
  out := 0
  next := 0
  srcTile := 0
  dstTile := 0
  asked := false
  fetched := none
  short := false

def Engines.reset : Engines where
  cnum := 0
  pending := []
  vcnt := Vector.replicate 4 0
  csdiv := 1
  streams := Vector.replicate 16 Stream.reset
  copies := []
  promises := []
  vxfers := []
  moved := Vector.replicate 2 (0, 0)
  lines := []

def Latch.reset : Latch where
  value := 0
  full := false

def PE.reset : PE where
  k := Vector.replicate 16 0
  c := Vector.replicate 8 0
  scratch := []
  n := Latch.reset
  e := Latch.reset
  s := Latch.reset
  w := Latch.reset
  m := Latch.reset
  replies := []
  awaited := 0
  ops := Vector.replicate 32 0
  routes := Vector.replicate 32 0
  ras := Vector.replicate 32 0
  opRing := ⟨0, 0⟩
  routeRing := ⟨0, 0⟩
  raRing := ⟨0, 0⟩
  region := none
  inflight := []
  reads := []
  keeps := []
  drives := []
  scratchWrite := none

def Region.reset : Region where
  pid := 0
  lnum := 0
  number := 0
  x := 0
  y := 0
  w := 0
  h := 0
  fx := 0
  fy := 0
  slot := 0
  pm1 := 0
  sv := 0
  rbase := 0
  st := 0
  iter := 0
  trip := 0
  smax := 0
  flags := 0
  period := 0
  runs := 0
  loaded := false
  phases := []
  stop := false
  go := none
  rewrite := none
  drained := false
  faults := 0
  held := false
  signature := 0

def Chain.reset : Chain where
  queue := []
  run := 0
  next := 0
  faulted := false

def ScatterUnit.reset : ScatterUnit where
  window := []
  filter := []

def MemInterface.reset : MemInterface where
  chainTable := []
  chains := []
  preds := []
  predFlits := []
  units := Vector.replicate 8 ScatterUnit.reset

def Matrix.reset : Matrix where
  table := Vector.replicate 64 0
  em1 := 0
  qm1 := 0
  ts := Vector.replicate 16 0
  skey := 0
  sctr := 0
  sigbase := 0
  channels := Vector.replicate 32 ⟨false, 0, 0, 0⟩
  mslot := 0
  cyc := 0
  rounds := 0
  limit := 0
  st := 0
  flags := 0
  acc := Vector.replicate 16 []
  ob := Vector.replicate 16 ⟨[], false⟩
  signals := []
  due := []
  progress := []
  firings := 0
  ending := false
  go := none
  held := false
  waits := none
  taken := false
  reload := []

def Bobbin.reset : Bobbin where
  staging := []
  expected := []
  nextBlk := []
  expanding := []

def Control.reset : Control where
  temp := 0
  volt := 0
  rosc := 0
  opnt := 0
  gateBank := 0
  gateWay := 0
  bwake := 0
  wwake := 0
  ton := true
  bankOff := 0
  wayOff := 0
  clear := false
  retire := false
  unavailable := false
  forwards := true
  corrected := 0
  busTests := []

def Tile.reset : Tile where
  core := Core.reset
  store := Store.reset
  eng := Engines.reset
  mem := MemInterface.reset
  matrix := Matrix.reset
  bobbin := Bobbin.reset
  ctl := Control.reset
  ccntOff := 0
  sent := 0
  received := 0
  active := false
  place := none
  stopped := false
  configured := none
  drains := []
  tlb := []
  edge := []

def Bank.reset : Bank where
  row := none
  act := none
  precharged := none
  debt := 0

def Lane.reset : Lane where
  kind := 0
  target := 0
  off := 0
  vc := 0
  bytes := []
  block := []
  packed := 0
  blk := 0

def Chan.reset : Chan where
  mem := []
  banks := Vector.replicate 32 Bank.reset
  history := []
  selfRefresh := false
  modes := []
  words := []
  loadedAtM := false
  launch := none
  start := 0
  index := 0
  last := 0
  noDelta := false
  loop := none
  frameStart := none
  idle := none
  idlePos := none
  waiting := none
  ended := false
  halted := false
  closing := false
  kept := 0
  held := false
  keeper := true
  interval := 0
  intervalHeld := false
  lanes := []
  demands := []
  serving := []
  window := 0
  windowAt := 0

def GroupSend.reset : GroupSend where
  queue := []
  seq := 0
  refused := []
  turns := 0

def Transmitter.reset : Transmitter where
  entries := []
  s0 := 0
  phi := 0
  launch := none
  origin := 0
  sends := []
  retained := []
  blocked := false
  held := false
  next := 0
  runs := []
  resends := []

def Group.reset : Group where
  wg := 0
  wmask := 0
  vc := 0
  port := 0
  drops := []
  dlist := 0
  split := 0

def Link.reset : Link where
  used := 0
  transit := 0
  copier := 0

def Triple.reset : Triple where
  next := 1
  replay := []
  expected := 1

def TreeNode.reset : TreeNode where
  children := []
  parent := none
  vc := 0
  op := 0
  waiting := []
  last := []
  results := []
  maxima := none
  passed := 0
  down := false
  asked := []
  declared := 0
  half := false
  flags := 0

def ArcState.reset : ArcState where
  sent := 0
  received := 0
  taken := 0
  buffer := []
  drained := false

def Tensor.reset : Tensor where
  base := 0
  fmt := 0
  rank := 0
  halo := 0
  gen := 0
  dims := Vector.replicate 4 0
  strides := Vector.replicate 3 0
  ts := Vector.replicate 4 0
  hseed := 0

def Queue.reset : Queue where
  en := false
  prio := 0
  agep := 0
  host := true
  held := false
  ovf := false
  perr := false
  pkterr := false
  last := 0
  ovfAt := 0
  perrAt := 0
  pktAt := 0
  packets := []
  age := 0
  windows := 0
  ready := none

def Binding.reset : Binding where
  image := none
  imageAt := 0
  read := []
  x0 := 0
  y0 := 0
  pvbase := 0
  psize := 0
  current := 0
  bound := false

def Barrier.reset : Barrier where
  phase := 0
  parties := 0
  arrivals := 0
  told := []

def Launch.reset : Launch where
  queue := 0
  tag := 0
  flags := 0
  wctr := 0
  wval := 0
  sctr := 0
  bind := 0
  version := 0
  failed := false
  s0 := 0
  phase := .ended
  mattr := false
  elastic := false
  cause := 0
  lastSweep := none
  arcs := []
  calls := []
  barriers := Vector.replicate 16 Barrier.reset
  cuts := []
  cutting := none
  nextCut := 1
  snapAt := 0
  heldEvents := []
  heldPackets := []
  restoring := false
  saveOut := 0

def Partition.reset : Partition where
  present := false
  x0 := 0
  y0 := 0
  w := 0
  h := 0
  channels := []
  eyelets := []
  snapi := 0
  saveArea := 0
  elastic := false
  alloc := 0
  allocNext := 0
  lastPower := 0
  windowStart := 0
  windows := 0
  ptroot := 0
  evlog := 0
  seq := 0
  records := []
  buffer := []
  messages := 0
  tensors := []
  lines := []
  waitingFills := []
  fills := []
  backs := []
  genWalks := []
  counters := []
  edges := []
  edgeMisses := 0
  redFilter := []
  queues := Vector.replicate 64 Queue.reset
  bindings := []
  nextLaunch := 1
  nextArrival := 0
  launches := []
  dispatching := none
  tlb := []
  walks := []

def LinkDir.reset : LinkDir where
  act := 0
  spon := false
  spfor := 0
  spblk := false
  lst := 0
  ft := 0
  nfm1 := 0
  smarg := 0
  seq := 0
  heldFlits := []
  queue := []
  resend := []
  out := []
  heard := 0
  stopped := false
  expected := 0
  sinceAck := 0
  requested := false
  pending := none
  dark := []
  training := []
  marginal := []
  partialTokens := []
  copies := []

def Eyelet.reset : Eyelet where
  peer := none
  mthr := 0
  spen := true
  tx := LinkDir.reset
  rx := LinkDir.reset
  entries := []
  s0 := 0
  phi := 0
  skews := []
  barUntil := 0
  delay := 0
  lastCopy := 0
  tree := false
  arrived := []

def Firmware.reset : Firmware where
  bankB := false
  imageA := []
  imageB := []
  svnA := 0
  svnB := 0
  staged := false
  minSvn := 0

def Controller.reset : Controller where
  blocks := Vector.replicate 5 Firmware.reset
  measurements := Vector.replicate 8 0
  flash := []
  boot := 0
  outOfService := none
  retiredStacks := []
  failedWaveguides := []
  responses := []
  signatures := []
  linkLog := []
  lasersOut := []
  activating := []
  downEyelet := none

def Cur.reset : Cur where
  tile := 0
  thread := 0
  ipc := 0
  npc := 0
  word := 0
  region := 0
  pe := 0
  ra := 0
  entry := 0
  chan := 0
  dword := 0

/-- The module right after reset: every thread Halted (Table 02-1), memories as after a cold start (R76, log 4),
no partition, no launch, nothing in flight. -/
def State.reset : State where
  cycle := 0
  gslot := 0
  number := 0
  slotError := 0
  halt := ⟨none, false, 0, (0, 0, 0, 0), false, false, [], 0⟩
  suspend := .running
  tiles := []
  pes := []
  regions := []
  chans := []
  txs := []
  groups := []
  travels := []
  nextTravel := 0
  links := []
  triples := []
  nodes := []
  parts := []
  eyelets := []
  ctl := Controller.reset
  host := []
  flaws := []
  reloading := []
  arrivals := []
  agenda := []
  timers := []
  sched := []
  free := 0
  cur := Cur.reset

end Sys2Proof.Machine
end

