-- ==== Sys2Proof/Machine/Flags.lean ====
section
/-! DEFINITION. Arithmetic of spec 03 with its flags: formats, rounding, conversions, minimum and maximum, the keyed
generator, stochastic rounding, A64 and the matrix block term. A finite value is `(-1)^s * m * 2^e`, exactly. -/

namespace Sys2Proof.Machine

/-! ### Flags (Table 03-6) -/

abbrev Flags := BitVec 5

def flagNX : Flags := 1
def flagUF : Flags := 2
def flagOF : Flags := 4
def flagDZ : Flags := 8
def flagNV : Flags := 16

/-- A result pattern with the flags it sets. -/
abbrev Rounded := Nat × Flags

def flagIf (c : Bool) (f : Flags) : Flags := if c then f else 0

/-! ### Formats (R57) -/

/-- A binary format with IEEE infinities: fraction width, bias, the exponent field of all ones. -/
structure Format where
  frac : Nat
  bias : Nat
  top : Nat
  deriving DecidableEq, Repr

def fp32 : Format := ⟨23, 127, 255⟩
def bf16 : Format := ⟨7, 127, 255⟩
def e5m2 : Format := ⟨2, 15, 31⟩

/-- The value of a pattern (R57, R58). -/
inductive Value where
  | nan (signalling : Bool)
  | inf (s : Bool)
  | fin (s : Bool) (m : Nat) (e : Int)
  deriving DecidableEq, Repr

/-- The pattern of width `1 + exponent + frac` read as a value (R57, R58). -/
def valueOf (f : Format) (bits : Nat) : Value :=
  let exp := bits / 2 ^ f.frac % (f.top + 1)
  let fr := bits % 2 ^ f.frac
  let s := bits / 2 ^ f.frac / (f.top + 1) % 2 == 1
  if exp = f.top then
    if fr = 0 then .inf s else .nan (fr < 2 ^ (f.frac - 1))
  else if exp = 0 then .fin s fr (1 - f.bias - f.frac)
  else .fin s (2 ^ f.frac + fr) (exp - f.bias - f.frac)

/-- The sign bit of a format, in place. -/
def signBit (f : Format) (s : Bool) : Nat := if s then 2 ^ f.frac * (f.top + 1) else 0
def infOf (f : Format) (s : Bool) : Nat := signBit f s + f.top * 2 ^ f.frac
/-- The canonical NaN (R59). -/
def nanOf (f : Format) : Nat := f.top * 2 ^ f.frac + 2 ^ (f.frac - 1)

/-- `m * 2^e` as a multiple of `2^q`, rounded to nearest, ties to even; and whether it is inexact. -/
def roundTo (m : Nat) (e q : Int) : Nat × Bool :=
  if q ≤ e then (m * 2 ^ (e - q).toNat, false)
  else
    let d := (q - e).toNat
    let n := m / 2 ^ d
    let r := m % 2 ^ d
    let half := 2 ^ (d - 1)
    (if r > half ∨ (r = half ∧ n % 2 = 1) then n + 1 else n, r != 0)

/-- RNE of `(-1)^s * m * 2^e` in a format with its flags (R61; E5M2 by R62). A zero keeps the sign given. -/
def roundValue (f : Format) (s : Bool) (m : Nat) (e : Int) : Rounded :=
  if m = 0 then (signBit f s, 0)
  else
    let top := e + Nat.log2 m
    let emin : Int := 1 - f.bias
    let ex := if top < emin then emin else top
    let (n, inexact) := roundTo m e (ex - f.frac)
    let mag := (ex - emin).toNat * 2 ^ f.frac + n
    if mag ≥ f.top * 2 ^ f.frac then (infOf f s, flagOF ||| flagNX)
    else (signBit f s + mag, flagIf inexact flagNX ||| flagIf (inexact && decide (top < emin)) flagUF)

/-- Flags of operands that are signalling NaNs. -/
def signalling (v : Value) : Flags :=
  match v with
  | .nan s => flagIf s flagNV
  | _ => 0

def isNan (v : Value) : Bool :=
  match v with
  | .nan _ => true
  | _ => false

def isZero (v : Value) : Bool :=
  match v with
  | .fin _ m _ => m == 0
  | _ => false

def isInf (v : Value) : Bool :=
  match v with
  | .inf _ => true
  | _ => false

def signOf (v : Value) : Bool :=
  match v with
  | .nan _ => false
  | .inf s => s
  | .fin s _ _ => s

/-- `(-1)^s * m` as an integer. -/
def signed (s : Bool) (m : Nat) : Int := if s then -(m : Int) else m

/-- The exact sum of two finite values as an integer at the smaller exponent. -/
def exactSum (s1 : Bool) (m1 : Nat) (e1 : Int) (s2 : Bool) (m2 : Nat) (e2 : Int) : Int × Int :=
  let e := min e1 e2
  (signed s1 (m1 * 2 ^ (e1 - e).toNat) + signed s2 (m2 * 2 ^ (e2 - e).toNat), e)

/-- RNE of an exact integer times `2^e`; an exact zero takes the sign given (R60). -/
def roundInt (f : Format) (i : Int) (e : Int) (zeroSign : Bool) : Rounded :=
  if i = 0 then (signBit f zeroSign, 0) else roundValue f (decide (i < 0)) i.natAbs e

/-- The rounded sum of two values that are not both finite, or are (R60, R61, R265). -/
def addValues (f : Format) (a b : Value) : Rounded :=
  match a, b with
  | .fin s1 m1 e1, .fin s2 m2 e2 =>
    let (i, e) := exactSum s1 m1 e1 s2 m2 e2
    roundInt f i e (m1 == 0 && m2 == 0 && s1 && s2)
  | .inf s1, .inf s2 => if s1 = s2 then (infOf f s1, 0) else (nanOf f, flagNV)
  | .inf s, .fin _ _ _ => (infOf f s, 0)
  | .fin _ _ _, .inf s => (infOf f s, 0)
  | x, y => (nanOf f, signalling x ||| signalling y)

def negate (v : Value) : Value :=
  match v with
  | .nan s => .nan s
  | .inf s => .inf (!s)
  | .fin s m e => .fin (!s) m e

/-- FADD, HADD2 lanes (R265, R267). -/
def fpAdd (f : Format) (a b : Nat) : Rounded := addValues f (valueOf f a) (valueOf f b)
/-- FSUB (R265). -/
def fpSub (f : Format) (a b : Nat) : Rounded := addValues f (valueOf f a) (negate (valueOf f b))

/-- 0 times infinity in either order (R265). -/
def invalidProduct (a b : Value) : Bool := (isZero a && isInf b) || (isInf a && isZero b)

/-- FMUL, HMUL2 lanes (R60, R265). -/
def fpMul (f : Format) (a b : Nat) : Rounded :=
  let x := valueOf f a
  let y := valueOf f b
  if invalidProduct x y then (nanOf f, flagNV)
  else if isNan x || isNan y then (nanOf f, signalling x ||| signalling y)
  else
    let s := signOf x != signOf y
    match x, y with
    | .fin _ m1 e1, .fin _ m2 e2 => roundValue f s (m1 * m2) (e1 + e2)
    | _, _ => (infOf f s, 0)

/-- FFMA, HFMA2 lanes: one rounding of `a * b + c` (R265). -/
def fpFma (f : Format) (a b c : Nat) : Rounded :=
  let x := valueOf f a
  let y := valueOf f b
  let z := valueOf f c
  if invalidProduct x y then (nanOf f, flagNV)
  else if isNan x || isNan y || isNan z then (nanOf f, signalling x ||| signalling y ||| signalling z)
  else
    let s := signOf x != signOf y
    match x, y with
    | .fin _ m1 e1, .fin _ m2 e2 => addValues f (.fin s (m1 * m2) (e1 + e2)) z
    | _, _ => addValues f (.inf s) z

/-- Order key of a pattern that is no NaN: -infinity below every finite value, -0 below +0 (R69). -/
def orderKey (f : Format) (bits : Nat) : Int :=
  let mag := bits % (2 ^ f.frac * (f.top + 1))
  if bits = mag then (mag : Int) else -(mag : Int) - 1

/-- The minimum or maximum of R69. -/
def fpMinMax (f : Format) (maximum : Bool) (a b : Nat) : Rounded :=
  let x := valueOf f a
  let y := valueOf f b
  let fl := signalling x ||| signalling y
  if isNan x && isNan y then (nanOf f, fl)
  else if isNan x then (b, fl)
  else if isNan y then (a, fl)
  else if (decide (orderKey f a < orderKey f b)) != maximum then (a, fl) else (b, fl)

/-- FCMPLT (R266): 1 or 0, NV for any NaN. -/
def fpLt (f : Format) (a b : Nat) : Rounded :=
  let x := valueOf f a
  let y := valueOf f b
  if isNan x || isNan y then (0, flagNV)
  else if isZero x && isZero y then (0, 0)
  else (if orderKey f a < orderKey f b then 1 else 0, 0)

/-- FCMPEQ (R266): NV only for a signalling NaN. -/
def fpEq (f : Format) (a b : Nat) : Rounded :=
  let x := valueOf f a
  let y := valueOf f b
  if isNan x || isNan y then (0, signalling x ||| signalling y)
  else (if (isZero x && isZero y) || a = b then 1 else 0, 0)

/-! ### Conversions (R62, R63, R71, Table 03-2) -/

/-- INT to FP32 (Table 03-2). -/
def intToFp32 (i : Int) : Rounded := roundInt fp32 i 0 false

/-- FP32 to INT32 toward zero, saturated; the 32-bit pattern (Table 03-2). -/
def fp32ToInt (a : Nat) : Rounded :=
  match valueOf fp32 a with
  | .nan _ => (0, flagNV)
  | .inf s => (if s then 2 ^ 31 else 2 ^ 31 - 1, flagNV)
  | .fin s m e =>
    let n := if 0 ≤ e then m * 2 ^ e.toNat else m / 2 ^ (-e).toNat
    let dropped := decide (e < 0) && m % 2 ^ (-e).toNat != 0
    if s then
      if n > 2 ^ 31 then (2 ^ 31, flagNV) else ((2 ^ 32 - n) % 2 ^ 32, flagIf dropped flagNX)
    else if n ≥ 2 ^ 31 then (2 ^ 31 - 1, flagNV)
    else (n, flagIf dropped flagNX)

/-- FP32 to BF16 or E5M2, RNE (Table 03-2). -/
def fp32Narrow (f : Format) (a : Nat) : Rounded :=
  match valueOf fp32 a with
  | .nan s => (nanOf f, flagIf s flagNV)
  | .inf s => (infOf f s, 0)
  | .fin s m e => roundValue f s m e

/-- Grid exponent of E4M3 at a magnitude whose leading bit has weight `2^top` (R62). -/
def e4m3Grid (top : Int) : Int := if top < -6 then -9 else top - 3

/-- A multiple `n` of `2^q` as an E4M3 pattern, saturated to 448 (R62); whether it saturated. -/
def e4m3Pattern (s : Bool) (n : Nat) (q : Int) : Nat × Bool :=
  let sg := if s then 0x80 else 0
  let units := n * 2 ^ (q + 9).toNat
  if units > 448 * 512 then (sg + 0x7E, true)
  else if units < 8 then (sg + units, false)
  else
    let l := Nat.log2 units
    (sg + (l - 2) * 8 + (units / 2 ^ (l - 3) - 8), false)

/-- FP32 to E4M3, RNE with saturation (R62). Tiny is below 2^-6, the smallest normal (log 11). -/
def fp32ToE4m3 (a : Nat) : Rounded :=
  match valueOf fp32 a with
  | .nan _ => (0x7F, flagNV)
  | .inf s => ((if s then 0xFE else 0x7E), flagOF ||| flagNX)
  | .fin s m e =>
    if m = 0 then ((if s then 0x80 else 0), 0)
    else
      let top := e + Nat.log2 m
      let q := e4m3Grid top
      let (n, inexact) := roundTo m e q
      let (p, sat) := e4m3Pattern s n q
      if sat then (p, flagOF ||| flagNX)
      else (p, flagIf inexact flagNX ||| flagIf (inexact && decide (top < -6)) flagUF)

/-- FP32 to BF16 by stochastic rounding with the generator value `x` (R71). -/
def fp32ToBf16Stochastic (a x : Nat) : Rounded :=
  match valueOf fp32 a with
  | .nan s => (nanOf bf16, flagIf s flagNV)
  | .inf s => (infOf bf16 s, 0)
  | .fin s m e =>
    let r := (a + x % 2 ^ 16) / 2 ^ 16
    let inexact := a % 2 ^ 16 != 0
    let tiny := m != 0 && decide (e + Nat.log2 m < -126)
    let tooBig := r % 2 ^ 15 ≥ 0x7F80
    (if tooBig then infOf bf16 s else r,
      flagIf inexact flagNX ||| flagIf (inexact && tiny) flagUF ||| flagIf tooBig flagOF)

/-- FP32 to E4M3 by stochastic rounding (R71). -/
def fp32ToE4m3Stochastic (a x : Nat) : Rounded :=
  match valueOf fp32 a with
  | .nan _ => (0x7F, flagNV)
  | .inf s => ((if s then 0xFE else 0x7E), flagOF ||| flagNX)
  | .fin s m e =>
    if m = 0 then ((if s then 0x80 else 0), 0)
    else
      let top := e + Nat.log2 m
      let q := e4m3Grid top
      -- |v| / q + u as a multiple of 2^-d
      let d := max (q - e).toNat 16
      let sum := m * 2 ^ ((e - q) + d).toNat + x % 2 ^ 16 * 2 ^ (d - 16)
      let n := sum / 2 ^ d
      let inexact := decide (e < q) && m % 2 ^ (q - e).toNat != 0
      let (p, sat) := e4m3Pattern s n q
      if sat then (p, flagOF ||| flagNX)
      else (p, flagIf inexact flagNX ||| flagIf (inexact && decide (top < -6)) flagUF)

/-- BF16 to FP32 (Table 03-2). -/
def bf16ToFp32 (a : Nat) : Rounded :=
  match valueOf bf16 a with
  | .nan s => (nanOf fp32, flagIf s flagNV)
  | _ => (a * 2 ^ 16, 0)

/-! ### Special functions (R270): the real value to enough bits, with a sticky bit, rounded once -/

/-- `(2 n + sticky) * 2^(e - 1)` rounds as the real value between `n * 2^e` and the next multiple. -/
def roundSticky (n : Nat) (exact : Bool) (e : Int) : Rounded :=
  roundValue fp32 false (2 * n + if exact then 0 else 1) (e - 1)

/-- FRCP (Table 10-4). -/
def fpRcp (a : Nat) : Rounded :=
  match valueOf fp32 a with
  | .nan s => (nanOf fp32, flagIf s flagNV)
  | .inf s => (signBit fp32 s, 0)
  | .fin s m e =>
    if m = 0 then (infOf fp32 s, flagDZ)
    else
      let r := roundSticky (2 ^ 64 / m) (2 ^ 64 % m == 0) (-e - 64)
      (r.1 + signBit fp32 s, r.2)

/-- The integer square root by bits, `2^fuel` at most. -/
def isqrt (n fuel acc : Nat) : Nat :=
  match fuel with
  | 0 => acc
  | k + 1 => if (acc + 2 ^ k) * (acc + 2 ^ k) ≤ n then isqrt n k (acc + 2 ^ k) else isqrt n k acc

/-- FRSQ (Table 10-4). -/
def fpRsq (a : Nat) : Rounded :=
  match valueOf fp32 a with
  | .nan s => (nanOf fp32, flagIf s flagNV)
  | .inf s => if s then (nanOf fp32, flagNV) else (0, 0)
  | .fin s m e =>
    if m = 0 then (infOf fp32 s, flagDZ)
    else if s then (nanOf fp32, flagNV)
    else
      let (m2, e2) := if e % 2 = 0 then (m, e) else (2 * m, e - 1)
      let r := isqrt (2 ^ 160 / m2) 82 0
      roundSticky r (r * r * m2 == 2 ^ 160) (-(e2 / 2) - 80)

/-- Bits after the point in the series below. -/
def seriesBits : Nat := 320

/-- `z + z^3/3 + z^5/5 + …`, the inverse hyperbolic tangent, in units of `2^-seriesBits`; `z2` is z squared. -/
def atanhSeries (fuel : Nat) (term z2 k acc : Nat) : Nat :=
  match fuel with
  | 0 => acc
  | n + 1 => atanhSeries n (term * z2 / 2 ^ seriesBits) z2 (k + 2) (acc + term / k)

/-- atanh of `p / q`, which is at most 1/3. -/
def atanhOf (p q : Nat) : Nat :=
  let z := p * 2 ^ seriesBits / q
  atanhSeries 110 z (z * z / 2 ^ seriesBits) 1 0

/-- `1 + y + y^2/2 + …`. -/
def expSeries (fuel : Nat) (term y k acc : Nat) : Nat :=
  match fuel with
  | 0 => acc
  | n + 1 => expSeries n (term * y / 2 ^ seriesBits / k) y (k + 1) (acc + term)

/-- FEXP2 (Table 10-4): an integer argument is exact; any other has an irrational value. -/
def fpExp2 (a : Nat) : Rounded :=
  match valueOf fp32 a with
  | .nan s => (nanOf fp32, flagIf s flagNV)
  | .inf s => if s then (0, 0) else (infOf fp32 false, 0)
  | .fin s m e =>
    let i := signed s (m * 2 ^ (e + 149).toNat)
    let n := i / 2 ^ 149
    let fr := (i % 2 ^ 149).toNat
    if n > 200 then roundValue fp32 false 1 200
    else if n < -200 then roundValue fp32 false 3 (-400)
    else if fr = 0 then roundValue fp32 false 1 n
    else
      let y := fr * (2 * atanhOf 1 3) / 2 ^ 149
      roundSticky (expSeries 100 (2 ^ seriesBits) y 1 0) false (n - seriesBits)

/-- FLOG2 (Table 10-4): a power of two is exact; any other argument has an irrational value. -/
def fpLog2 (a : Nat) : Rounded :=
  match valueOf fp32 a with
  | .nan s => (nanOf fp32, flagIf s flagNV)
  | .inf s => if s then (nanOf fp32, flagNV) else (infOf fp32 false, 0)
  | .fin s m e =>
    if m = 0 then (infOf fp32 true, flagDZ)
    else if s then (nanOf fp32, flagNV)
    else
      let l := Nat.log2 m
      let n := e + l
      if m = 2 ^ l then roundInt fp32 n 0 false
      else
        let fr := atanhOf (m - 2 ^ l) (m + 2 ^ l) * 2 ^ seriesBits / atanhOf 1 3
        let i := n * 2 ^ seriesBits + fr
        roundValue fp32 (decide (i < 0)) (2 * i.natAbs + 1) (-(seriesBits : Int) - 1)

/-! ### The keyed counter generator (R70) -/

def kcgRound (x : Word32) : Word32 := ((x >>> 16) ^^^ x) * 0x045D9F3B
def kcg (ctr key : Word32) : Word32 :=
  let x := kcgRound (kcgRound (ctr ^^^ key))
  (x >>> 16) ^^^ x

/-! ### Operand expansion and the block term (R65, R66) -/

/-- An expanded element: finite with sign, significand and exponent, or a class (R65). -/
inductive Elem where
  | fin (s : Bool) (m : Nat) (x : Int)
  | inf (s : Bool)
  | nan
  deriving DecidableEq, Repr

/-- Table 03-4 for E4M3. -/
def expandE4m3 (b : Nat) : Elem :=
  let s := b / 128 % 2 == 1
  let e := b / 8 % 16
  let f := b % 8
  if b % 128 = 127 then .nan
  else if e = 0 then .fin s f (-9) else .fin s (8 + f) (e - 10)

/-- Table 03-4 for E5M2. -/
def expandE5m2 (b : Nat) : Elem :=
  let s := b / 128 % 2 == 1
  let e := b / 4 % 32
  let f := b % 4
  if e = 31 then (if f = 0 then .inf s else .nan)
  else if e = 0 then .fin s f (-16) else .fin s (4 + f) (e - 17)

/-- Table 03-4 for BF16 activations. -/
def expandBf16 (b : Nat) : Elem :=
  let s := b / 2 ^ 15 % 2 == 1
  let e := b / 128 % 256
  let f := b % 128
  if e = 255 then (if f = 0 then .inf s else .nan)
  else if e = 0 then .fin s f (-133) else .fin s (128 + f) (e - 134)

/-- Table 03-4 for two's complement weights of `w` bits. -/
def expandInt (w b : Nat) : Elem :=
  if b < 2 ^ (w - 1) then .fin false b 0 else .fin true (2 ^ w - b) 0

/-- What the pairs of a block come to (R66): NaN, infinities of either sign, and the finite products. -/
structure Pairs where
  nan : Bool
  pos : Bool
  neg : Bool
  /-- Sign, significand product and exponent of each finite pair. -/
  prods : List (Bool × Nat × Int)
  deriving DecidableEq, Repr

def pairUp (a w : Elem) (p : Pairs) : Pairs :=
  match a, w with
  | .nan, _ => { p with nan := true }
  | _, .nan => { p with nan := true }
  | .inf s, .inf t => if s = t then { p with pos := true } else { p with neg := true }
  | .inf s, .fin t m _ =>
    if m = 0 then { p with nan := true } else if s = t then { p with pos := true } else { p with neg := true }
  | .fin s m _, .inf t =>
    if m = 0 then { p with nan := true } else if s = t then { p with pos := true } else { p with neg := true }
  | .fin s m x, .fin t n y => { p with prods := (s != t, m * n, x + y) :: p.prods }

def allPairs (as ws : List Elem) : Pairs :=
  match as, ws with
  | a :: as, w :: ws => pairUp a w (allPairs as ws)
  | _, _ => ⟨false, false, false, []⟩

/-- The exact sum of FP8 products in units of 2^-32 (R66). -/
def sumExact (ps : List (Bool × Nat × Int)) : Int :=
  match ps with
  | [] => 0
  | (s, m, x) :: ps => signed s (m * 2 ^ (x + 32).toNat) + sumExact ps

/-- The 48-bit window of BF16 products: the largest exponent plus 12 over non-zero products (R66). -/
def windowTop (ps : List (Bool × Nat × Int)) : Option Int :=
  match ps with
  | [] => none
  | (_, m, x) :: ps =>
    match windowTop ps with
    | none => if m = 0 then none else some (x + 12)
    | some t => if m = 0 then some t else some (max t (x + 12))

/-- Each product truncated to a multiple of 2^(t - 48), and whether a part was dropped (R66). -/
def sumWindow (t : Int) (ps : List (Bool × Nat × Int)) : Int × Bool :=
  match ps with
  | [] => (0, false)
  | (s, m, x) :: ps =>
    let (i, d) := sumWindow t ps
    let sh := x - t + 48
    let n := if 0 ≤ sh then m * 2 ^ sh.toNat else m / 2 ^ (-sh).toNat
    (i + signed s n, d || (decide (sh < 0) && m % 2 ^ (-sh).toNat != 0))

/-- The block term b of R66 as an FP32 pattern with its flags. `fp8` tells the activation path. -/
def blockTerm (fp8 : Bool) (sa sb : Nat) (as ws : List Elem) : Rounded :=
  let p := allPairs as ws
  if sa = 255 || sb = 255 || p.nan || (p.pos && p.neg) then (nanOf fp32, flagNV)
  else if p.pos || p.neg then (infOf fp32 p.neg, 0)
  else if fp8 then roundInt fp32 (sumExact p.prods) ((sa : Int) + sb - 254 - 32) false
  else
    match windowTop p.prods with
    | none => (0, 0)
    | some t =>
      let (i, d) := sumWindow t p.prods
      let r := roundInt fp32 i (t - 48 + (sa : Int) + sb - 254) false
      (r.1, r.2 ||| flagIf d flagNX)

/-! ### The drain (R67) and A64 (R72) -/

/-- Drain output formats of Table 06-13. -/
def drainConv (ofmt : BitVec 2) (srnd : Bool) (x : Nat) (v : Nat) : Rounded :=
  match ofmt.toNat with
  | 0 => (v, 0)
  | 1 => if srnd then fp32ToBf16Stochastic v x else fp32Narrow bf16 v
  | _ => if srnd then fp32ToE4m3Stochastic v x else fp32ToE4m3 v

/-- CONV(RNE_FP32(acc * ts)) (R67): a NaN product gives the canonical NaN of the output format. -/
def drainValue (acc ts : Nat) (ofmt : BitVec 2) (srnd : Bool) (x : Nat) : Rounded :=
  let p := fpMul fp32 acc ts
  let q := drainConv ofmt srnd x p.1
  (q.1, p.2 ||| q.2 ||| flagIf (isNan (valueOf fp32 ts)) flagNV)

/-- ceil(log2 n) (R72). -/
def clog2 (n : Nat) : Nat := if n ≤ 1 then 0 else Nat.log2 (n - 1) + 1

/-- A contributor's integer for the anchor `eb` of its block (R72); with eb = 0xFF the count fields. -/
def a64Contribution (eb n : Nat) (x : Nat) : Word :=
  if eb = 255 then
    match valueOf fp32 x with
    | .nan _ => 1
    | .inf s => if s then BitVec.ofNat 64 (2 ^ 40) else BitVec.ofNat 64 (2 ^ 20)
    | .fin _ _ _ => 0
  else
    match valueOf fp32 x with
    | .fin s m e =>
      let sh : Int := e + 62 - ((max eb 1 : Nat) - 126 + clog2 n : Int)
      Word.ofInt (signed s (if 0 ≤ sh then m * 2 ^ sh.toNat else m / 2 ^ (-sh).toNat))
    | _ => 0

/-- The root's conversion of a lane's sum (R72). -/
def a64Result (eb n : Nat) (sum : Word) : Rounded :=
  if eb = 255 then
    let nans := sum.toNat % 2 ^ 20
    let pos := sum.toNat / 2 ^ 20 % 2 ^ 20
    let neg := sum.toNat / 2 ^ 40 % 2 ^ 20
    if nans > 0 || (pos > 0 && neg > 0) then (nanOf fp32, flagNV)
    else (infOf fp32 (pos == 0), 0)
  else roundInt fp32 sum.toInt (((max eb 1 : Nat) - 126 + clog2 n : Int) - 62) false

/-- The operations of atomics and reductions on `bits`-wide words (Tables 06-7 and 08-4). -/
def atomInt (o : Nat) (bits : Nat) (old b : Nat) : Nat :=
  let sgn (v : Nat) : Int := if v < 2 ^ (bits - 1) then v else (v : Int) - 2 ^ bits
  match o with
  | 0 => (old + b) % 2 ^ bits
  | 1 => old &&& b
  | 2 => old ||| b
  | 3 => old ^^^ b
  | 4 => if sgn old < sgn b then old else b
  | 5 => if sgn old > sgn b then old else b
  | 6 => if old < b then old else b
  | 7 => if old > b then old else b
  | _ => b

/-- f(OP, old, b) of Table 08-4 with its flags; `n` is the access size in bytes. -/
def atomOpResult (o : BitVec 4) (n : Nat) (old b : Nat) : Rounded :=
  match o.toNat with
  | 9 => fpAdd fp32 old b
  | 10 => fpMinMax fp32 false old b
  | 11 => fpMinMax fp32 true old b
  | 12 =>
    let lo := fpAdd bf16 (old % 2 ^ 16) (b % 2 ^ 16)
    let hi := fpAdd bf16 (old / 2 ^ 16) (b / 2 ^ 16)
    (hi.1 * 2 ^ 16 + lo.1, lo.2 ||| hi.2)
  | o => (atomInt o (8 * n) old b, 0)

end Sys2Proof.Machine
end

