-- ==== Sys2Proof/Machine/Ops.lean ====
section
/-! DEFINITION. The named operations over tables, memories, registers and the parts of the state; records and posting
(spec 17 R362 to R364); taking a trap and returning from one (spec 14 R315 to R319). -/

namespace Sys2Proof.Machine

/-- The only way an instruction's meaning ends here: a next state. -/
abbrev Out := Host.Outcome State Fault Refusal

/-! ### Tables -/

def tabFind {α : Type} (t : Tab α) (k : Nat) : Option α :=
  match t with
  | [] => none
  | (j, v) :: r => if j = k then some v else tabFind r k

/-- The value at a key; `d` where the key is not listed. -/
def tabGet {α : Type} (d : α) (t : Tab α) (k : Nat) : α := (tabFind t k).getD d

/-- The table with `v` at `k`, keys strictly rising. -/
def tabPut {α : Type} (t : Tab α) (k : Nat) (v : α) : Tab α :=
  match t with
  | [] => [(k, v)]
  | (j, w) :: r => if j < k then (j, w) :: tabPut r k v else if j = k then (k, v) :: r else (k, v) :: (j, w) :: r

def tabDel {α : Type} (t : Tab α) (k : Nat) : Tab α :=
  match t with
  | [] => []
  | (j, w) :: r => if j = k then r else (j, w) :: tabDel r k

/-! ### Memories: bytes that differ from 0, addresses strictly rising (log 4) -/

/-- The byte at an address; 0 where none is listed. -/
def memGet (m : Mem) (a : Nat) : Byte :=
  match m with
  | [] => 0
  | (b, v) :: r => if b = a then v else memGet r a

/-- A byte other than 0 at an address, in its place. -/
def memInsert (m : Mem) (a : Nat) (v : Byte) : Mem :=
  match m with
  | [] => [(a, v)]
  | (b, w) :: r => if b < a then (b, w) :: memInsert r a v else if b = a then (a, v) :: r else (a, v) :: (b, w) :: r

/-- Writing 0 removes the entry; anything else stands in its place. -/
def memPut (m : Mem) (a : Nat) (v : Byte) : Mem := if v = 0 then m.filter (fun c => c.1 != a) else memInsert m a v

/-- The canonical form: addresses strictly rising, no byte 0. -/
def memSorted (m : Mem) : Bool :=
  match m with
  | [] => true
  | [_] => true
  | (a, _) :: (b, w) :: r => decide (a < b) && memSorted ((b, w) :: r)

def Memory.wf (m : Mem) : Bool := memSorted m && m.all (fun c => c.2 != 0)

/-- `n` bytes from `a` upward. -/
def memBytes (m : Mem) (a n : Nat) : List Byte :=
  match n with
  | 0 => []
  | k + 1 => memGet m a :: memBytes m (a + 1) k

/-- Bytes written from `a` upward. -/
def memWrite (m : Mem) (a : Nat) (bs : List Byte) : Mem :=
  match bs with
  | [] => m
  | b :: r => memWrite (memPut m a b) (a + 1) r

/-- Little-endian value of bytes (R5). -/
def bytesNat (bs : List Byte) : Nat :=
  match bs with
  | [] => 0
  | b :: r => b.toNat + 256 * bytesNat r

/-- The `n` little-endian bytes of a number (R5). -/
def natBytes (n v : Nat) : List Byte :=
  match n with
  | 0 => []
  | k + 1 => BitVec.ofNat 8 v :: natBytes k (v / 256)

def memLoad (m : Mem) (a n : Nat) : Nat := bytesNat (memBytes m a n)
def memStore (m : Mem) (a n v : Nat) : Mem := memWrite m a (natBytes n v)

/-- Every byte at or above `a` and below `a + n` as 0. -/
def memClear (m : Mem) (a n : Nat) : Mem := m.filter (fun c => !(decide (a ≤ c.1) && decide (c.1 < a + n)))

/-! ### Rising lists of numbers -/

def setInsert (l : List Nat) (k : Nat) : List Nat :=
  match l with
  | [] => [k]
  | j :: r => if j < k then j :: setInsert r k else if j = k then j :: r else k :: j :: r

def setErase (l : List Nat) (k : Nat) : List Nat := l.filter (fun j => j != k)

/-- Element `n` of a list, or a default. -/
def nth {α : Type} (l : List α) (n : Nat) (d : α) : α := (l.drop n).headD d

/-- The list with element `n` replaced. -/
def setNth {α : Type} (l : List α) (n : Nat) (v : α) : List α :=
  match l, n with
  | [], _ => []
  | _ :: r, 0 => v :: r
  | x :: r, k + 1 => x :: setNth r k v

/-! ### Parts of the state -/

def State.tile (s : State) (t : Nat) : Tile := tabGet Tile.reset s.tiles t
def State.setTile (s : State) (t : Nat) (x : Tile) : State := { s with tiles := tabPut s.tiles t x }
def State.modTile (s : State) (t : Nat) (f : Tile → Tile) : State := s.setTile t (f (s.tile t))
def State.pe (s : State) (n : Nat) : PE := tabGet PE.reset s.pes n
def State.setPe (s : State) (n : Nat) (x : PE) : State := { s with pes := tabPut s.pes n x }
def State.region (s : State) (r : Nat) : Region := tabGet Region.reset s.regions r
def State.setRegion (s : State) (r : Nat) (x : Region) : State := { s with regions := tabPut s.regions r x }
def State.chan (s : State) (c : Nat) : Chan := tabGet Chan.reset s.chans c
def State.setChan (s : State) (c : Nat) (x : Chan) : State := { s with chans := tabPut s.chans c x }
def State.tx (s : State) (n : Nat) : Transmitter := tabGet Transmitter.reset s.txs n
def State.setTx (s : State) (n : Nat) (x : Transmitter) : State := { s with txs := tabPut s.txs n x }
def State.part (s : State) (p : Nat) : Partition := tabGet Partition.reset s.parts p
def State.setPart (s : State) (p : Nat) (x : Partition) : State := { s with parts := tabPut s.parts p x }
def State.launch (s : State) (p l : Nat) : Launch := tabGet Launch.reset (s.part p).launches l
def State.setLaunch (s : State) (p l : Nat) (x : Launch) : State :=
  s.setPart p { s.part p with launches := tabPut (s.part p).launches l x }
def State.eyelet (s : State) (e : Nat) : Eyelet := tabGet Eyelet.reset s.eyelets e
def State.setEyelet (s : State) (e : Nat) (x : Eyelet) : State := { s with eyelets := tabPut s.eyelets e x }
def State.triple (s : State) (k : Nat) : Triple := tabGet Triple.reset s.triples k
def State.setTriple (s : State) (k : Nat) (x : Triple) : State := { s with triples := tabPut s.triples k x }
def State.node (s : State) (k : Nat) : TreeNode := tabGet TreeNode.reset s.nodes k
def State.setNode (s : State) (k : Nat) (x : TreeNode) : State := { s with nodes := tabPut s.nodes k x }

/-- A thread of a tile; the number is taken modulo 8. -/
def Tile.thread (x : Tile) (t : Nat) : Thread := x.core.threads[t % 8]'(Nat.mod_lt t (by decide))
def Tile.setThread (x : Tile) (t : Nat) (h : Thread) : Tile :=
  { x with core := { x.core with threads := x.core.threads.set (t % 8) h (Nat.mod_lt t (by decide)) } }
def State.thread (s : State) (tile t : Nat) : Thread := (s.tile tile).thread t
def State.setThread (s : State) (tile t : Nat) (h : Thread) : State := s.setTile tile ((s.tile tile).setThread t h)

/-- The thread whose instruction is being performed. -/
def State.me (s : State) : Thread := s.thread s.cur.tile s.cur.thread
def State.setMe (s : State) (h : Thread) : State := s.setThread s.cur.tile s.cur.thread h
def State.here (s : State) : Tile := s.tile s.cur.tile
def State.setHere (s : State) (x : Tile) : State := s.setTile s.cur.tile x

/-! ### Registers (R138) -/

/-- g[r]: g0 reads 0. -/
def Thread.reg (h : Thread) (r : GReg) : Word := if r = 0 then 0 else h.g[r.toNat]'r.isLt
/-- A write to g0 is discarded. -/
def Thread.setReg (h : Thread) (r : GReg) (v : Word) : Thread :=
  if r = 0 then h else { h with g := h.g.set r.toNat v r.isLt }
/-- p[r]: p0 reads 1. -/
def Thread.pred (h : Thread) (r : PReg) : Bool := if r = 0 then true else h.p.getLsbD r.toNat
/-- A write to p0 is discarded. -/
def Thread.setPred (h : Thread) (r : PReg) (v : Bool) : Thread :=
  if r = 0 then h
  else { h with p := (h.p &&& ~~~(1#8 <<< r.toNat)) ||| (if v then 1#8 <<< r.toNat else 0) }

/-! ### Agenda (log 1) -/

def State.enqueue (s : State) (w : Work) : State := { s with agenda := s.agenda ++ [w] }
def State.event (s : State) (i : Event) : State := s.enqueue (.event i)
/-- The event after `n` core cycles. -/
def State.after (s : State) (n : Nat) (i : Event) : State := { s with timers := s.timers ++ [(s.cycle + n, .event i)] }
/-- The next number of the free-value counter (log 2). -/
def State.nextFree (s : State) : State := { s with free := s.free + 1 }

/-! ### Clocks (R4, R187) -/

/-- CCNT of a tile (R187). -/
def State.ccnt (s : State) (tile : Nat) : Word := BitVec.ofNat 64 s.cycle + (s.tile tile).ccntOff
/-- MCK since power-up: 6 to 8 core cycles (R4). -/
def State.mck (s : State) : Nat := s.cycle * 6 / 8

/-! ### Event records (R362 to R364) -/

/-- The 64 bytes of a record (Table 17-2). -/
def recordBytes (r : Record) : List Byte :=
  natBytes 1 r.typ ++ natBytes 1 r.cause ++ natBytes 1 r.sub ++ natBytes 1 r.skind ++ natBytes 2 r.src ++
    natBytes 1 r.queue ++ natBytes 1 0 ++ natBytes 4 r.lnum ++ natBytes 4 r.seq ++ natBytes 8 r.stamp ++
    (r.data ++ List.replicate 40 0).take 40

def evlogEn (w : Word) : Bool := w.getLsbD 0
def evlogIe (w : Word) : Bool := w.getLsbD 1
def evlogLsz (w : Word) : Nat := (w.toNat / 4) % 32
/-- Host offset of slot 0: physical address bits [50:12] (R91, Table 17-5). -/
def evlogBase (w : Word) : Nat := w.toNat / 2 ^ 12 % 2 ^ 39 * 2 ^ 12

/-- Record n goes to slot (n - 1) mod 2^LSZ; a message follows when IE = 1 (R364, Table 17-5). -/
def writeRecord (s : State) (pid : Nat) (r : Record) : State :=
  let p := s.part pid
  let slot := (r.seq - 1) % 2 ^ evlogLsz p.evlog
  let s := { s with host := memWrite s.host (evlogBase p.evlog + 64 * slot) (recordBytes r) }
  if evlogIe p.evlog then s.setPart pid { p with messages := p.messages + 1 } else s

/-- Posts a record to a partition: it takes the next SEQ, and is written, or buffered while EN = 0, up to 256 (R364). -/
def post (s : State) (pid typ cause sub skind src queue lnum : Nat) (data : List Byte) : State :=
  let p := s.part pid
  let r : Record := ⟨typ, cause, sub, skind, src, queue, lnum, p.seq + 1, s.gslot, data⟩
  let p := { p with seq := p.seq + 1 }
  if evlogEn p.evlog then
    writeRecord (s.setPart pid { p with records := r :: p.records }) pid r
  else if p.buffer.length < 256 then
    s.setPart pid { p with records := r :: p.records, buffer := p.buffer ++ [r] }
  else s.setPart pid p

/-! ### Elements that have been cut (R369) -/

/-- The element of a tile's launch has taken its own cut, and the cut of its launch is not complete. -/
def elementIsCut (s : State) (tile : Nat) (e : Element) : Bool :=
  match (s.tile tile).place with
  | none => false
  | some pl =>
    match (s.launch pl.pid pl.lnum).cutting with
    | none => false
    | some c => c.elements.contains e

/-! ### Launches that stop where they stand (R54, R365) -/

/-- Absolute tile numbers of a rectangle. -/
def rectTiles (x0 y0 w h : Nat) : List Nat :=
  (List.range h).flatMap (fun j => (List.range w).map (fun i => 64 * (y0 + j) + x0 + i))

/-- Tiles of a partition's launch (R48). -/
def launchTiles (s : State) (pid lnum : Nat) : List Nat :=
  let p := s.part pid
  match (tabGet Binding.reset p.bindings (tabGet Launch.reset p.launches lnum).bind) with
  | b =>
    match b.image with
    | none => []
    | some i => rectTiles (p.x0 + b.x0) (p.y0 + b.y0) i.pw i.ph

def stopTile (s : State) (t : Nat) : State :=
  s.modTile t (fun x => { x with stopped := true, matrix := { x.matrix with held := true } })

def goTile (s : State) (t : Nat) : State :=
  s.modTile t (fun x => { x with stopped := false, matrix := { x.matrix with held := false } })

/-- Sets or clears the hold of a launch's regions, D-programs and transmitters (R54). -/
def holdUnits (s : State) (pid lnum : Nat) (on : Bool) : State :=
  { s with
    regions := s.regions.map (fun (k, r) =>
      (k, if r.pid = pid ∧ r.lnum = lnum then { r with held := on } else r))
    chans := s.chans.map (fun (k, c) => (k, if c.launch = some (pid, lnum) then { c with held := on } else c))
    txs := s.txs.map (fun (k, x) => (k, if x.launch = some (pid, lnum) then { x with held := on } else x)) }

/-- The launch's elements stop where they stand; its queue is HELD for the cause (R54, R365, R347). -/
def stopLaunch (s : State) (pid lnum cause : Nat) : State :=
  let s := (launchTiles s pid lnum).foldl stopTile s
  let s := holdUnits s pid lnum true
  let l := s.launch pid lnum
  let s := s.setLaunch pid lnum { l with phase := .held, cause := cause }
  let p := s.part pid
  if h : l.queue < 64 then
    s.setPart pid { p with queues := p.queues.set l.queue { p.queues[l.queue] with held := true } h }
  else s

/-! ### Words that have lost bits (R380) -/

/-- A word of some places has lost its data. -/
def lost (s : State) (f : FlawPlace → Bool) : Bool := s.flaws.any (fun x => !x.correctable && f x.place)

/-- The words of a tile's store that a range of bytes touches. -/
def inStore (tile off n : Nat) (p : FlawPlace) : Bool :=
  match p with
  | .store t w => t == tile && decide (8 * w < off + n) && decide (off < 8 * w + 8)
  | _ => false

/-- The words of a channel that a range of bytes touches. -/
def inChannel (ch off n : Nat) (p : FlawPlace) : Bool :=
  match p with
  | .hbm c w => c == ch && decide (8 * w < off + n) && decide (off < 8 * w + 8)
  | _ => false

/-- Cause 0x0E with a subcode strikes the launch of a tile. -/
def strikeTile (s : State) (tile sub : Nat) : State :=
  match (s.tile tile).place with
  | none => s
  | some pl => s.event (.rollback pl.pid pl.lnum sub)

/-- The errors that a read corrects are counted at a tile. -/
def countErrors (s : State) (tile : Nat) (f : FlawPlace → Bool) : State :=
  let n := (s.flaws.filter (fun x => x.correctable && f x.place)).length
  if n = 0 then s else s.modTile tile (fun x => { x with ctl := { x.ctl with corrected := x.ctl.corrected + n } })

/-- An agent of a tile reads words: lost ones strike the tile's launch with a subcode of cause 0x0E and are not delivered,
errors of the others are corrected and counted. -/
def readWords (s : State) (tile sub : Nat) (f : FlawPlace → Bool) : State × Bool :=
  if s.flaws.isEmpty then (s, false)
  else if lost s f then (strikeTile s tile sub, true)
  else (countErrors s tile f, false)

/-- WORD_FLAW: a word of a memory loses bits, from outside (log 36). -/
def putFlaw (s : State) (x : Flaw) : State := { s with flaws := x :: s.flaws }

/-- Queue number of a launch (Table 17-2 QUEUE). -/
def launchQueue (s : State) (pid lnum : Nat) : Nat := (s.launch pid lnum).queue

/-! ### Arcs of a launch (R46, R47, R51, R100) -/

/-- The image of a launch (R336). -/
def imageOf (s : State) (pid lnum : Nat) : Option Image :=
  (tabGet Binding.reset (s.part pid).bindings (s.launch pid lnum).bind).image

/-- The arcs of a launch with their numbers. -/
def launchArcs (s : State) (pid lnum : Nat) : List (Nat × ArcImage) :=
  match imageOf s pid lnum with
  | none => []
  | some i => List.zip (List.range i.arcs.length) i.arcs

/-- The edge entries of an image: its `.edge` lines, and the loader's for its collective paths (R118, R404). -/
def imageLinks (i : Image) : List (Nat × Nat × Nat) := i.edges ++ i.colls.flatMap (fun c => c.links)

/-- The partition's stacks in ascending module order (R326). -/
def stacksOf (p : Partition) : List Nat := (p.channels.map (· / 32)).eraseDups.mergeSort (fun a b => decide (a ≤ b))

/-- The sequencer number of a stack index and channel. -/
def sequencerOf (p : Partition) (stack c : Nat) : Option Nat := (stacksOf p)[stack]?.map (fun k => 32 * k + c)

/-- A node whose tokens travel under the VC tag of their arc: messages and lanes. -/
def taggedSource (i : Image) (n : Nat) : Bool :=
  match i.nodes[n]? with
  | some (.seq _) | some (.dprog _) => true
  | _ => false

/-- Words of an arc that ends at a collective node reach the tile (R252). -/
def gather (s : State) (tile arc : Nat) (ws : List Word32) : State :=
  s.modTile tile (fun x => { x with core := { x.core with gathered := tabPut x.core.gathered arc (tabGet [] x.core.gathered arc ++ ws) } })

/-- The words of tokens that no PE port carries: the specification does not say where a collective node finds them (log 24). -/
def openWords (a : ArcImage) (arc before tokens : Nat) : List Word32 :=
  (List.range (tokens * (a.width / 4))).map (fun j => Config.arcWord arc (before * (a.width / 4) + j))

/-- Tokens of an arc have reached a tile: they are received (R47), and a collective node gathers their words. -/
def arcTakes (s : State) (i : Image) (pid lnum tile n : Nat) (a : ArcImage) (tokens : Nat) : State :=
  let l := s.launch pid lnum
  let x := tabGet ArcState.reset l.arcs n
  let s := s.setLaunch pid lnum { l with arcs := tabPut l.arcs n { x with received := x.received + tokens } }
  match i.nodes[a.toNode]? with
  | some (.coll _) => gather s tile n (openWords a n x.received tokens)
  | _ => s

/-- Tokens under a VC tag arrive at a tile: they count into the launch's arcs of that tag which end at no PE port; `count` says
how many tokens of an arc's width they are (R47, R51; DEDUCED, log 24). -/
def arcReceives (s : State) (tile vc : Nat) (count : ArcImage → Nat) : State :=
  match (s.tile tile).place with
  | none => s
  | some pl =>
    match imageOf s pl.pid pl.lnum with
    | none => s
    | some i =>
      (launchArcs s pl.pid pl.lnum).foldl (fun s (n, a) =>
        if a.memoryOrder ∨ a.toPort.isSome ∨ a.vc ≠ vc ∨ taggedSource i a.fromNode = false then s
        else arcTakes s i pl.pid pl.lnum tile n a (count a)) s

/-- The tokens of an arc that `n` bytes from an offset complete. -/
def tokensIn (off n : Nat) (a : ArcImage) : Nat := (off + n) / a.width - off / a.width

/-- An access of a node waits: it depends on a memory-ordering arc whose completion token has not come (R46, R100). Which accesses
depend on an arc is not stated: a free value (log 37). -/
def orderWaits (s : State) (pid lnum : Nat) (consumer : Nat → NodeImage → Bool) (access : Nat) : Bool :=
  match imageOf s pid lnum with
  | none => false
  | some i =>
    (launchArcs s pid lnum).any (fun (n, a) =>
      a.memoryOrder && (match i.nodes[a.toNode]? with | some k => consumer a.toNode k | none => false) &&
        (tabGet ArcState.reset (s.launch pid lnum).arcs n).received == 0 && Config.arcOrders n access)

/-- An access of a unit of a tile waits for a memory-ordering arc. -/
def tileWaits (s : State) (tile : Nat) (consumer : Nat → NodeImage → Bool) (access : Nat) : Bool :=
  match (s.tile tile).place with
  | none => false
  | some pl => orderWaits s pl.pid pl.lnum consumer access

/-- The access of the instruction at hand waits for a memory-ordering arc into its thread's program. -/
def threadWaits (s : State) : Bool :=
  tileWaits s s.cur.tile (fun _ k => match k with | .seq m => m.getLsbD s.cur.thread | _ => false) s.cur.ipc.toNat

/-! ### Taking a trap, and TRET (R316, R317, R319) -/

/-- R317: the second trap's data and its instruction's address are posted (that of a TRAP lies before its return address,
R213), the first's registers stay, the thread is Halted, the launch is held. -/
def doubleTrap (s : State) (tile t : Nat) (c sub : BitVec 8) (v e : Word) : State :=
  let s := s.setThread tile t { s.thread tile t with st := .halted }
  match (s.tile tile).place with
  | none => s
  | some pl =>
    let s := post s pl.pid 0x0E c.toNat sub.toNat 0 tile (launchQueue s pl.pid pl.lnum) pl.lnum
      (natBytes 1 sub.toNat ++ List.replicate 7 0 ++ natBytes 8 v.toNat ++
        natBytes 8 (if c = 0x12 then e - 4 else e).toNat)
    stopLaunch s pl.pid pl.lnum c.toNat

/-- R316: cause, subcode, value, return address are saved, PPL and INH set, and the handler is entered at S or M. -/
def trapThread (h : Thread) (tvec mtvec : Word) (c sub : BitVec 8) (v e : Word) : Thread :=
  { h with
    cause := c, sub := sub, tval := v, tepc := e, ppl := h.pl, inh := true, st := .running, rptAt := none, walkFault := []
    pl := if h.pl = 3 then 3 else 1
    pc := if h.pl = 3 then mtvec else tvec }

/-- Trap entry of a thread (R316); a trap taken with INH = 1 is a double trap (R317). -/
def takeTrap (s : State) (tile t : Nat) (c sub : BitVec 8) (v e : Word) : State :=
  let x := s.tile tile
  if (x.thread t).inh then doubleTrap s tile t c sub v e
  else s.setThread tile t (trapThread (x.thread t) x.core.tvec x.core.mtvec c sub v e)

/-- R319: the return address, the level PPL, INH clear; an RPT pair at that address resumes at NEXT (R147). -/
def returnThread (h : Thread) (atRpt : Bool) : Thread :=
  let pc := h.tepc &&& ~~~3#64
  { h with
    pc := pc, pl := h.ppl, ppl := 0, inh := false
    next := if atRpt then h.next else 0
    rptAt := if atRpt then some pc else none }

end Sys2Proof.Machine
end

