-- ==== Sys2Proof/Machine/Operands.lean ====
section
/-! DEFINITION. How a sequencer instruction runs: the order of its checks (spec 06 R140), its outcome, and the operand
forms (Table 06-3, R136, R137). -/

namespace Sys2Proof.Machine

/-- What the body of a sequencer instruction does. -/
inductive Res where
  /-- Performed; the thread goes on behind the instruction. -/
  | done (s : State)
  /-- Performed; the thread goes on at an address. -/
  | jump (s : State) (pc : Word)
  /-- A thread trap with cause, subcode, value and return address; nothing else happens (R316). -/
  | trap (c sub : BitVec 8) (v e : Word)
  /-- Not performed yet: the thread stays at the instruction, in the state that `s` gives it. -/
  | hold (s : State)

/-- The thread's pc set. -/
def State.setPc (s : State) (pc : Word) : State := s.setMe { s.me with pc := pc }

/-- The state after a body's outcome. -/
def finish (s : State) (r : Res) : State :=
  match r with
  | .done s' => s'.setPc s'.cur.npc
  | .jump s' pc => s'.setPc pc
  | .trap c sub v e => takeTrap s s.cur.tile s.cur.thread c sub v e
  | .hold s' => s'

/-- A trap of the instruction being performed, with its own address (R316). -/
def trapHere (s : State) (c : BitVec 8) (v : Word) : Res := .trap c 0 v s.cur.ipc

/-- The first word of the instruction, as a trap value (R140, Table 17-1). -/
def wordValue (s : State) : Word := s.cur.word.zeroExtend 64

/-- The thread is Waiting and issues the instruction again in its next own cycle (R33). -/
def waitRetry (s : State) : Res := .hold (s.setMe { s.me with st := .waiting .retry })

/-- R140, steps 2 to 5: privilege, T7, guard, body. -/
def seqStep (need : Nat) (t7 : Bool) (pg : PReg) (body : State → Res) (s : State) : Out :=
  if s.me.pl.toNat < need then .next (finish s (trapHere s 0x02 (wordValue s)))
  else if t7 ∧ s.cur.thread ≠ 7 then .next (finish s (trapHere s 0x01 (wordValue s)))
  else if s.me.pred pg = false then .next (s.setPc s.cur.npc)
  else .next (finish s (body s))

/-- An instruction that any thread may run at any privilege. -/
def seq (pg : PReg) (body : State → Res) (s : State) : Out := seqStep 0 false pg body s

/-- Writes a general register. -/
def writeReg (s : State) (d : GReg) (v : Word) : State := s.setMe (s.me.setReg d v)
def writePred (s : State) (d : PReg) (v : Bool) : State := s.setMe (s.me.setPred d v)

/-- Body of an instruction that writes g[d] with a value of the state at issue (R175). -/
def putReg (d : GReg) (f : State → Word) (s : State) : Res := .done (writeReg s d (f s))
/-- Body of an instruction that writes p[d]. -/
def putPred (d : PReg) (f : State → Bool) (s : State) : Res := .done (writePred s d (f s))

/-- g[r] of the issuing thread. -/
def State.g (s : State) (r : GReg) : Word := s.me.reg r

/-! ### Operand forms -/

/-- sext of an immediate to 64 bits (Table 06-3). -/
def sx {n : Nat} (i : BitVec n) : Word := i.signExtend 64
/-- zext of an immediate to 64 bits. -/
def zx {n : Nat} (i : BitVec n) : Word := i.zeroExtend 64

/-- Effective address of the M format (R136): g[ra] + (sext(imm11) << sz). -/
def ea (s : State) (a : GReg) (sz : Nat) (i : BitVec 11) : Word := s.g a + (sx i <<< sz)

/-- Target of a B-format branch (R137). -/
def branchTarget (s : State) (d : BitVec 22) : Word := s.cur.ipc + sx d * 4

/-- Conditions of CMP and CMPI (R135, R181). -/
def condition (c : BitVec 3) (a b : Word) : Bool :=
  match c.toNat with
  | 0 => a == b
  | 1 => a != b
  | 2 => a.slt b
  | 3 => !a.slt b
  | 4 => a.ult b
  | _ => !a.ult b

/-- CMPI's operand: sext for EQ, NE, LT, GE, zext for LTU, GEU (Table 06-3). -/
def cmpiOperand (c : BitVec 3) (i : BitVec 10) : Word := if c.toNat < 4 then sx i else zx i

/-- A 32-bit word of instruction memory. -/
def imemWord (x : Tile) (a : Nat) : Word32 := BitVec.ofNat 32 (memLoad x.core.imem a 4)

/-- Length in bytes of the RPT pair at an address: with RLX it has three words (R145). -/
def rptLength (x : Tile) (pc : Word) : Word := if bits (imemWord x (pc.toNat + 4)).toNat 26 6 = 0x3D then 12 else 8

/-- The thread goes on behind the instruction at its pc, or to the next repetition of an RPT pair in progress (R145). -/
def advance (x : Tile) (h : Thread) : Thread :=
  if h.rptAt = some h.pc then
    if h.next.toNat + 1 < bits (imemWord x h.pc.toNat).toNat 16 10 then { h with next := h.next + 1 }
    else { h with next := 0, rptAt := none, pc := h.pc + rptLength x h.pc }
  else { h with pc := h.pc + 4 }

/-- Whether a thread may fetch a word at an address: at U within its program, else in instruction memory (R133, R316). -/
def mayFetch (h : Thread) (a : Word) : Bool :=
  a.toNat % 4 == 0 &&
    (if h.pl = 0 then decide (h.lo ≤ a.toNat) && decide (a.toNat + 4 ≤ h.hi)
     else decide (a.toNat + 4 ≤ Config.imemSize))

/-- The words a thread can fetch from an address, at most three. -/
def fetchWords (x : Tile) (h : Thread) (a : Word) : List Word32 :=
  if mayFetch h a then
    imemWord x a.toNat ::
      (if mayFetch h (a + 4) then
        imemWord x (a + 4).toNat :: (if mayFetch h (a + 8) then [imemWord x (a + 8).toNat] else [])
      else [])
  else []

end Sys2Proof.Machine
end

