-- ==== Sys2Proof/Machine/Alu.lean ====
section
/-! DEFINITION. Integer, immediate, compare, predicate, select, address and information instructions
(spec 08 R177 to R188, 06 R135, R140, R148). Each body is also what an RPT repeats (R145). -/

namespace Sys2Proof.Machine

/-! ### Bodies -/

/-- g[rd] := f(g[ra], g[rb]). -/
def bodyAlu2 (f : Word → Word → Word) (d a b : GReg) (s : State) : Res := putReg d (fun s => f (s.g a) (s.g b)) s
/-- g[rd] := f(g[ra]). -/
def bodyAlu1 (f : Word → Word) (d a : GReg) (s : State) : Res := putReg d (fun s => f (s.g a)) s

/-- A shift count is b[5:0] (R177). -/
def shiftCount (b : Word) : Nat := b.toNat % 64
def aluShl (a b : Word) : Word := a <<< shiftCount b
def aluShr (a b : Word) : Word := a >>> shiftCount b
def aluSar (a b : Word) : Word := a.sshiftRight (shiftCount b)
def aluRotl (a b : Word) : Word := a.rotateLeft (shiftCount b)
def aluAndn (a b : Word) : Word := a &&& ~~~b
def aluMin (a b : Word) : Word := if a.slt b then a else b
def aluMax (a b : Word) : Word := if b.slt a then a else b
def aluMinu (a b : Word) : Word := if a.ult b then a else b
def aluMaxu (a b : Word) : Word := if b.ult a then a else b

/-- Number of leading zero bits, 0 to 64 (Table 08-2). -/
def aluClz (a : Word) : Word := if a = 0 then 64 else BitVec.ofNat 64 (63 - Nat.log2 a.toNat)

/-- The number of 1 bits among the low `n`. -/
def onesBelow (a : Word) (n : Nat) : Nat :=
  match n with
  | 0 => 0
  | k + 1 => onesBelow a k + (a.getLsbD k).toNat

def aluPopc (a : Word) : Word := BitVec.ofNat 64 (onesBelow a 64)
def aluMulh (a b : Word) : Word := Word.ofInt (a.toInt * b.toInt / 2 ^ 64)
def aluMulhu (a b : Word) : Word := BitVec.ofNat 64 (a.toNat * b.toNat / 2 ^ 64)

/-- Signed quotient toward zero; all ones for b = 0; -2^63 by -1 wraps to -2^63 (R178). -/
def aluDiv (a b : Word) : Word := if b = 0 then BitVec.allOnes 64 else Word.ofInt (a.toInt.tdiv b.toInt)
def aluDivu (a b : Word) : Word := if b = 0 then BitVec.allOnes 64 else a / b
/-- Signed remainder with the dividend's sign; a for b = 0 (R178). -/
def aluRem (a b : Word) : Word := if b = 0 then a else Word.ofInt (a.toInt.tmod b.toInt)
def aluRemu (a b : Word) : Word := if b = 0 then a else a % b

/-- The field of BFX and BFI: low bit and width (R184). -/
def fieldLo (b : Word) : Nat := b.toNat % 64
def fieldWidth (b : Word) : Nat := min (b.toNat / 256 % 128) (64 - fieldLo b)
def fieldMask (b : Word) : Word := BitVec.ofNat 64 (2 ^ fieldWidth b - 1)
def aluBfx (a b : Word) : Word := (a >>> fieldLo b) &&& fieldMask b
def aluBfi (d a b : Word) : Word :=
  (d &&& ~~~(fieldMask b <<< fieldLo b)) ||| ((a &&& fieldMask b) <<< fieldLo b)

/-- PW and PH of CPACK: the placement's at U, 64 at S and M (R185). -/
def packWidth (s : State) : Nat :=
  if s.me.pl = 0 then (match s.here.place with | some p => p.w | none => 64) else 64
def packHeight (s : State) : Nat :=
  if s.me.pl = 0 then (match s.here.place with | some p => p.h | none => 64) else 64

/-- CPACK (R185). -/
def packTile (w h : Nat) (x y : Word) : Word :=
  if x.toInt < 0 ∨ (w : Int) ≤ x.toInt ∨ y.toInt < 0 ∨ (h : Int) ≤ y.toInt then BitVec.allOnes 64
  else BitVec.ofNat 64 (64 * (y.toNat % 64) + x.toNat % 64)

/-- CUNPK: y in the high half, x in the low (R185). -/
def unpackTile (a : Word) : Word := BitVec.ofNat 64 (a.toNat / 64 % 64 * 2 ^ 32 + a.toNat % 64)

/-- TILEID: relative at U, absolute at S and M (R20); the primary's on a shadow core (R381). -/
def tileIdentifier (s : State) : Nat :=
  let t := match s.here.core.shadowOf with | some p => p | none => s.cur.tile
  if s.me.pl = 0 then
    match s.here.place with
    | some p => 64 * (t / 64 - p.y0) + (t % 64 - p.x0)
    | none => t
  else t

/-- p7 to p1 and 1 (R182 PGET). -/
def predicates (h : Thread) : Word := zx ((h.p &&& 0xFE) ||| 1)

/-! ### ALU (Table 08-2) -/

def execAdd (d a b : GReg) (p : PReg) (s : State) : Out := seq p (bodyAlu2 (· + ·) d a b) s
def execSub (d a b : GReg) (p : PReg) (s : State) : Out := seq p (bodyAlu2 (· - ·) d a b) s
def execAnd (d a b : GReg) (p : PReg) (s : State) : Out := seq p (bodyAlu2 (· &&& ·) d a b) s
def execOr (d a b : GReg) (p : PReg) (s : State) : Out := seq p (bodyAlu2 (· ||| ·) d a b) s
def execXor (d a b : GReg) (p : PReg) (s : State) : Out := seq p (bodyAlu2 (· ^^^ ·) d a b) s
def execAndn (d a b : GReg) (p : PReg) (s : State) : Out := seq p (bodyAlu2 aluAndn d a b) s
def execShl (d a b : GReg) (p : PReg) (s : State) : Out := seq p (bodyAlu2 aluShl d a b) s
def execShr (d a b : GReg) (p : PReg) (s : State) : Out := seq p (bodyAlu2 aluShr d a b) s
def execSar (d a b : GReg) (p : PReg) (s : State) : Out := seq p (bodyAlu2 aluSar d a b) s
def execRotl (d a b : GReg) (p : PReg) (s : State) : Out := seq p (bodyAlu2 aluRotl d a b) s
def execMin (d a b : GReg) (p : PReg) (s : State) : Out := seq p (bodyAlu2 aluMin d a b) s
def execMax (d a b : GReg) (p : PReg) (s : State) : Out := seq p (bodyAlu2 aluMax d a b) s
def execMinu (d a b : GReg) (p : PReg) (s : State) : Out := seq p (bodyAlu2 aluMinu d a b) s
def execMaxu (d a b : GReg) (p : PReg) (s : State) : Out := seq p (bodyAlu2 aluMaxu d a b) s
def execClz (d a : GReg) (p : PReg) (s : State) : Out := seq p (bodyAlu1 aluClz d a) s
def execPopc (d a : GReg) (p : PReg) (s : State) : Out := seq p (bodyAlu1 aluPopc d a) s
def execMul (d a b : GReg) (p : PReg) (s : State) : Out := seq p (bodyAlu2 (· * ·) d a b) s
def execMulh (d a b : GReg) (p : PReg) (s : State) : Out := seq p (bodyAlu2 aluMulh d a b) s
def execMulhu (d a b : GReg) (p : PReg) (s : State) : Out := seq p (bodyAlu2 aluMulhu d a b) s
def execDiv (d a b : GReg) (p : PReg) (s : State) : Out := seq p (bodyAlu2 aluDiv d a b) s
def execDivu (d a b : GReg) (p : PReg) (s : State) : Out := seq p (bodyAlu2 aluDivu d a b) s
def execRem (d a b : GReg) (p : PReg) (s : State) : Out := seq p (bodyAlu2 aluRem d a b) s
def execRemu (d a b : GReg) (p : PReg) (s : State) : Out := seq p (bodyAlu2 aluRemu d a b) s

/-! ### Immediates, LUI, LIX (R179, R180, R148) -/

def execAddi (d a : GReg) (p : PReg) (i : BitVec 13) (s : State) : Out := seq p (bodyAlu1 (· + sx i) d a) s
def execAndi (d a : GReg) (p : PReg) (i : BitVec 13) (s : State) : Out := seq p (bodyAlu1 (· &&& zx i) d a) s
def execOri (d a : GReg) (p : PReg) (i : BitVec 13) (s : State) : Out := seq p (bodyAlu1 (· ||| zx i) d a) s
def execXori (d a : GReg) (p : PReg) (i : BitVec 13) (s : State) : Out := seq p (bodyAlu1 (· ^^^ zx i) d a) s
def execShli (d a : GReg) (p : PReg) (i : BitVec 6) (s : State) : Out := seq p (bodyAlu1 (aluShl · (zx i)) d a) s
def execShri (d a : GReg) (p : PReg) (i : BitVec 6) (s : State) : Out := seq p (bodyAlu1 (aluShr · (zx i)) d a) s
def execSari (d a : GReg) (p : PReg) (i : BitVec 6) (s : State) : Out := seq p (bodyAlu1 (aluSar · (zx i)) d a) s
def execLui (d : GReg) (p : PReg) (i : BitVec 18) (s : State) : Out := seq p (putReg d (fun _ => sx i <<< 14)) s
def execLix (d : GReg) (p : PReg) (i : BitVec 32) (s : State) : Out := seq p (putReg d (fun _ => sx i)) s

/-! ### Compares and predicates (R181, R182), SEL (R140) -/

def execCmp (d : PReg) (a b : GReg) (p : PReg) (c : BitVec 3) (s : State) : Out :=
  seq p (putPred d (fun s => condition c (s.g a) (s.g b))) s
def execCmpi (d : PReg) (a : GReg) (p : PReg) (c : BitVec 3) (i : BitVec 10) (s : State) : Out :=
  seq p (putPred d (fun s => condition c (s.g a) (cmpiOperand c i))) s
def execPand (d a b p : PReg) (s : State) : Out := seq p (putPred d (fun s => s.me.pred a && s.me.pred b)) s
def execPor (d a b p : PReg) (s : State) : Out := seq p (putPred d (fun s => s.me.pred a || s.me.pred b)) s
def execPxor (d a b p : PReg) (s : State) : Out := seq p (putPred d (fun s => s.me.pred a != s.me.pred b)) s
def execPnot (d a p : PReg) (s : State) : Out := seq p (putPred d (fun s => !s.me.pred a)) s
def execPmov (d a p : PReg) (s : State) : Out := seq p (putPred d (fun s => s.me.pred a)) s
def execPget (d : GReg) (p : PReg) (s : State) : Out := seq p (putReg d (fun s => predicates s.me)) s

/-- pg selects; there is no guard (R140). -/
def bodySel (d a b : GReg) (p : PReg) (s : State) : Res := putReg d (fun s => if s.me.pred p then s.g a else s.g b) s
def execSel (d a b : GReg) (p : PReg) (s : State) : Out := seq 0 (bodySel d a b p) s

/-! ### Addresses and coordinates (R183 to R185) -/

def execAddr1 (d a b : GReg) (p : PReg) (s : State) : Out := seq p (bodyAlu2 (fun x y => x + y) d a b) s
def execAddr2 (d a b : GReg) (p : PReg) (s : State) : Out := seq p (bodyAlu2 (fun x y => x + (y <<< 1)) d a b) s
def execAddr4 (d a b : GReg) (p : PReg) (s : State) : Out := seq p (bodyAlu2 (fun x y => x + (y <<< 2)) d a b) s
def execAddr8 (d a b : GReg) (p : PReg) (s : State) : Out := seq p (bodyAlu2 (fun x y => x + (y <<< 3)) d a b) s
def execBfx (d a b : GReg) (p : PReg) (s : State) : Out := seq p (bodyAlu2 aluBfx d a b) s
/-- BFI reads rd as held at issue (R175). -/
def bodyBfi (d a b : GReg) (s : State) : Res := putReg d (fun s => aluBfi (s.g d) (s.g a) (s.g b)) s
def execBfi (d a b : GReg) (p : PReg) (s : State) : Out := seq p (bodyBfi d a b) s
def bodyCpack (d a b : GReg) (s : State) : Res :=
  putReg d (fun s => packTile (packWidth s) (packHeight s) (s.g a) (s.g b)) s
def execCpack (d a b : GReg) (p : PReg) (s : State) : Out := seq p (bodyCpack d a b) s
def execCunpk (d a : GReg) (p : PReg) (s : State) : Out := seq p (bodyAlu1 unpackTile d a) s

/-! ### Information (R187) and the generator (R212) -/

def execTileid (d : GReg) (p : PReg) (s : State) : Out :=
  seq p (putReg d (fun s => BitVec.ofNat 64 (tileIdentifier s))) s
def execThid (d : GReg) (p : PReg) (s : State) : Out := seq p (putReg d (fun s => BitVec.ofNat 64 s.cur.thread)) s
def execCcnt (d : GReg) (p : PReg) (s : State) : Out := seq p (putReg d (fun s => s.ccnt s.cur.tile)) s
def execScnt (d : GReg) (p : PReg) (s : State) : Out := seq p (putReg d (fun s => BitVec.ofNat 64 s.gslot)) s
/-- KCG of the low halves, zero-extended. -/
def keyed (a b : Word) : Word := zx (kcg (a.truncate 32) (b.truncate 32))
def execRndk (d a b : GReg) (p : PReg) (s : State) : Out := seq p (bodyAlu2 keyed d a b) s

end Sys2Proof.Machine
end

