-- ==== Sys2Proof/Machine/Bank.lean ====
section
/-! DEFINITION. Operations of the activation store: bytes, full/empty bits, waiter entries, gated banks, relaxed stores
(spec 04 R74 to R80, R94 to R96, 19 R408, R409). -/

namespace Sys2Proof.Machine

/-- Bank of a byte offset: a[7:3] (R74). -/
def bankOf (a : Nat) : Nat := a / 8 % 32

/-- Whether a store word is full (R74, R76). -/
def isFull (x : Tile) (w : Nat) : Bool := x.store.full.contains w

/-- Sets or clears the full/empty bit of a store word. -/
def setFull (x : Tile) (w : Nat) (b : Bool) : Tile :=
  { x with store := { x.store with full := if b then setInsert x.store.full w else setErase x.store.full w } }

def storeLoad (x : Tile) (a n : Nat) : Nat := memLoad x.store.mem a n
def storeBytes (x : Tile) (a n : Nat) : List Byte := memBytes x.store.mem a n
def storeWrite (x : Tile) (a : Nat) (bs : List Byte) : Tile :=
  { x with store := { x.store with mem := memWrite x.store.mem a bs } }
def storePut (x : Tile) (a n v : Nat) : Tile := storeWrite x a (natBytes n v)

/-- The wake time of a unit of a tile in core cycles, by its distance from the field's power entry (R409). -/
def wakeCycles (tile : Nat) : Nat :=
  let x := tile % 64
  3200 + 400 * (if x / 8 ≤ 3 then x % 8 else 7 - x % 8)

/-- A bank without power, or waking (R79). -/
def bankHeld (x : Tile) (b : Nat) : Bool := x.ctl.bankOff.getLsbD b || x.ctl.bwake.getLsbD b

/-- A bank without power among those that a range of bytes touches (R79). -/
def heldIn (x : Tile) (off n : Nat) : Option Nat :=
  ((List.range (min 32 ((off + n + 7) / 8 - off / 8))).map (fun i => bankOf (off + 8 * i))).find? (bankHeld x)

/-- Starts the wake of a bank that has not started (R79, R409). -/
def wakeBank (s : State) (tile b : Nat) : State :=
  let x := s.tile tile
  if x.ctl.bankOff.getLsbD b && !x.ctl.bwake.getLsbD b then
    (s.setTile tile { x with ctl := { x.ctl with bwake := x.ctl.bwake ||| (1#32 <<< b) } }).after (wakeCycles tile)
      (.unitWakeComplete tile (.bank b))
  else s

/-! ### Bank cycles (R176) -/

/-- The cycle in which a bank takes an access that reaches it now: one access a cycle, in the order of arrival. -/
def bankCycle (x : Tile) (now b : Nat) : Nat := max now (tabGet 0 x.store.busy b)

/-- A bank takes an access that reaches it now. -/
def takeBank (now : Nat) (x : Tile) (b : Nat) : Tile :=
  { x with store := { x.store with busy := tabPut x.store.busy b (bankCycle x now b + 1) } }

/-- The banks that a range of bytes touches, one for each of its store words, at most all 32 (R74). -/
def banksOf (off n : Nat) : List Nat :=
  (List.range (min 32 ((off + n + 7) / 8 - off / 8))).map (fun i => bankOf (off + 8 * i))

/-- Every bank of a range is free now. -/
def banksFree (x : Tile) (now off n : Nat) : Bool := (banksOf off n).all (fun b => bankCycle x now b == now)

/-- The banks of a range take an access each. -/
def takeBanks (x : Tile) (now off n : Nat) : Tile := (banksOf off n).foldl (takeBank now) x

/-- An engine or a delivery reaches the banks of a range of a tile's store (R176). -/
def reachBanks (s : State) (tile off n : Nat) : State := s.modTile tile (fun x => takeBanks x s.cycle off n)

/-! ### Waiter entries (R77) -/

def waiterReady (full : Bool) (k : WaiterKind) : Bool :=
  match k with
  | .ldf _ _ | .ldfe _ _ => full
  | .stef _ _ | .remote _ _ _ _ => !full

/-- The first entry of a word whose condition holds, in arrival order. -/
def firstReady (ws : List Waiter) (w : Nat) (full : Bool) : Option Waiter :=
  ws.find? (fun e => e.word == w && waiterReady full e.kind)

/-- A thread whose access is answered goes on behind its instruction once it wakes (R33, R200). -/
def grantThread (s : State) (tile t : Nat) (rd : GReg) (v : Word) : State :=
  (s.setThread tile t (advance (s.tile tile) ((s.thread tile t).setReg rd v))).event (.threadWake tile t)

/-- A granted thread goes on behind its instruction once it wakes, in the bank cycle that its grant has taken (R33, R77,
R197, Table 08-3). -/
def grantWaiter (s : State) (tile w t : Nat) (rd : GReg) (v : Word) : State :=
  let x := s.tile tile
  (s.setThread tile t (advance x ((s.thread tile t).setReg rd v))).after (bankCycle x s.cycle (w % 32) - 1 - s.cycle)
    (.threadWake tile t)

/-- A message or remote write of a thread, stream or copy is delivered (R102, R104, R222, R226). -/
def ownerDone (s : State) (tile owner : Nat) : State :=
  let x := s.tile tile
  if owner < 8 then
    let h := x.thread owner
    s.setThread tile owner { h with remoteOut := h.remoteOut - 1 }
  else if 32 ≤ owner ∧ owner < 48 then
    let h := x.thread owner
    s.setThread tile owner { h with remoteOut := h.remoteOut - 1, writesOut := h.writesOut - 1 }
  else if h : owner - 8 < 16 then
    let c := x.eng.streams[owner - 8]
    let c' := { c with out := c.out - 1, done := c.done + 1 }
    let s := s.setTile tile { x with eng := { x.eng with streams := x.eng.streams.set (owner - 8) c' h } }
    if c'.out = 0 then s.event (.streamComplete tile (owner - 8)) else s
  else if owner = 24 then
    match x.eng.copies with
    | [] => s
    | c :: r =>
      let s := s.setTile tile { x with eng := { x.eng with copies := { c with out := c.out - 1 } :: r } }
      if c.out ≤ 1 ∧ c.moved = c.len then s.event (.copyComplete tile) else s
  else s

/-- The operation reads its word. -/
def waiterReads (k : WaiterKind) : Bool :=
  match k with
  | .ldf _ _ | .ldfe _ _ => true
  | .stef _ _ | .remote _ _ _ _ => false

/-- The effect of a granted entry (Table 04-2); a lost word is not delivered (R380). -/
def grant (s : State) (tile : Nat) (e : Waiter) : State :=
  let x := s.tile tile
  let v := BitVec.ofNat 64 (storeLoad x (8 * e.word) 8)
  if waiterReads e.kind && lost s (inStore tile (8 * e.word) 8) then strikeTile s tile 1
  else match e.kind with
  | .ldf t rd => grantWaiter s tile e.word t rd v
  | .ldfe t rd => grantWaiter (s.setTile tile (setFull x e.word false)) tile e.word t rd v
  | .stef t d => grantWaiter (s.setTile tile (setFull (storePut x (8 * e.word) 8 d.toNat) e.word true)) tile e.word t 0 0
  | .remote d _ src t =>
    ownerDone (s.setTile tile (setFull (storePut x (8 * e.word) 8 d.toNat) e.word true)) src t

/-- Entries of a bank that remote deliveries hold (R77). -/
def remoteEntries (x : Tile) (b : Nat) : Nat :=
  (x.store.waiters.filter (fun e => e.word % 32 == b &&
    match e.kind with | .remote _ _ _ _ => true | _ => false)).length

/-- Whether an entry is a token sent with SENDP: its owner is a thread; other remote writes are no tokens (R47, R210). -/
def entryIsToken (e : Waiter) : Bool :=
  match e.kind with | .remote _ _ _ owner => decide (40 ≤ owner ∧ owner < 48) | _ => false

/-- The held delivery that takes a free entry of a bank next (R77). -/
def nextHeld (x : Tile) (b : Nat) : Option Waiter :=
  if remoteEntries x b < 8 then x.store.held.find? (fun e => e.word % 32 == b) else none

/-- A held delivery takes an entry of its bank that has become free, and is received by it (R47, R77). -/
def admitHeld (x : Tile) (b : Nat) : Tile :=
  match nextHeld x b with
  | none => x
  | some e =>
    { x with store := { x.store with held := x.store.held.erase e, waiters := x.store.waiters ++ [e] }
             received := x.received + (if entryIsToken e then 1 else 0) }

/-- A held delivery that takes an entry counts into its arc (R51). -/
def admittedToken (s : State) (tile : Nat) (e : Option Waiter) : State :=
  match e with
  | some ⟨_, .remote v vc src owner⟩ =>
    if entryIsToken ⟨0, .remote v vc src owner⟩ then arcReceives s tile vc (fun _ => 1) else s
  | _ => s

/-- The scan of words of one bank: of the first word with an entry whose condition holds, the first such entry is granted in a
bank cycle, until no word has one; the word of a held delivery that takes the free entry is scanned too (R77). -/
def scanWords (s : State) (tile : Nat) (ws : List Nat) (fuel : Nat) : State :=
  match fuel with
  | 0 => s
  | k + 1 =>
    match ws with
    | [] => s
    | w :: r =>
      let x := s.tile tile
      match firstReady x.store.waiters w (isFull x w) with
      | none => scanWords s tile r k
      | some e =>
        let x := { x with store := { x.store with waiters := x.store.waiters.erase e } }
        let more := ((nextHeld x (w % 32)).map Waiter.word).toList
        let s := admittedToken s tile (nextHeld x (w % 32))
        scanWords (grant (s.setTile tile (takeBank s.cycle (admitHeld x (w % 32)) (w % 32))) tile e) tile (w :: r ++ more) k

/-- A frozen MWAIT takes its signal word, once the word's entries are granted, if the word is full (R297). -/
def takeSignal (s : State) (tile w : Nat) : State :=
  let x := s.tile tile
  if x.matrix.waits = some w ∧ isFull x w then
    s.setTile tile (setFull { x with matrix := { x.matrix with waits := none, taken := true } } w false)
  else s

/-- Scans a word of a tile: its entries, then the matrix engine (R77, R297). -/
def scan (s : State) (tile w : Nat) : State :=
  takeSignal (scanWords s tile [w] (3 * ((s.tile tile).store.waiters.length + (s.tile tile).store.held.length + 1))) tile w

/-- Sets the bit of a word and scans it if the bit changed (R77). -/
def changeBit (s : State) (tile w : Nat) (b : Bool) : State :=
  let x := s.tile tile
  if isFull x w = b then s else scan (s.setTile tile (setFull x w b)) tile w

/-- STF at a bank: the word is written and full (Table 04-2). -/
def performStf (s : State) (tile w : Nat) (v : Word) : State :=
  changeBit (s.modTile tile (fun x => storePut x (8 * w) 8 v.toNat)) tile w true

/-! ### Relaxed stores (R94, R96) -/

/-- The deferred stores of a thread that wait for a bank without power, and those behind them (R79). -/
def relaxedHeld (x : Tile) (l : List (Nat × List Byte)) : List (Nat × List Byte) :=
  l.dropWhile (fun (a, bs) => (heldIn x a bs.length).isNone)

/-- Performs the deferred stores of a thread, oldest first, up to one that waits for a bank (R79, R96). -/
def performRelaxed (x : Tile) (l : List (Nat × List Byte)) : Tile :=
  match l with
  | [] => x
  | (a, bs) :: r => if (heldIn x a bs.length).isNone then performRelaxed (storeWrite x a bs) r else x

/-- The wake of the bank that the first of some stores waits for begins (R79). -/
def wakeFor (s : State) (tile : Nat) (l : List (Nat × List Byte)) : State :=
  match l with
  | [] => s
  | (a, bs) :: _ => match heldIn (s.tile tile) a bs.length with | some b => wakeBank s tile b | none => s

/-- Every RLX store of the thread is performed, but for those that a bank without power holds (R79, R96). -/
def drainRelaxed (s : State) (tile t : Nat) : State :=
  let x := s.tile tile
  let h := x.thread t
  let l := relaxedHeld x h.relaxed
  if h.relaxed.isEmpty then s
  else wakeFor (s.setTile tile (performRelaxed (x.setThread t { h with relaxed := l }) h.relaxed)) tile l

/-- The thread has a deferred store to one of some bytes. -/
def owesStore (h : Thread) (a n : Nat) : Bool :=
  h.relaxed.any (fun (b, bs) => decide (b < a + n) && decide (a < b + bs.length))

/-- Deferred stores are performed before the thread's own access of one of their words (R94). -/
def ownLocation (s : State) (a n : Nat) : State :=
  if owesStore s.me a n then drainRelaxed s s.cur.tile s.cur.thread else s

/-! ### Checks (R75) -/

/-- Runs `f` with a checked byte offset: cause 0x03 if misaligned, 0x06 if outside the store; a gated bank is woken and
the thread waits (R75, R79). -/
def withOffset (s : State) (a : Word) (n : Nat) (f : State → Nat → Res) : Res :=
  if a.toNat % n ≠ 0 then trapHere s 0x03 a
  else if a.toNat + n > Config.storeSize then trapHere s 0x06 a
  else if bankHeld s.here (bankOf a.toNat) then waitRetry (wakeBank s s.cur.tile (bankOf a.toNat))
  else if owesStore (ownLocation s a.toNat n).me a.toNat n then waitRetry (ownLocation s a.toNat n)
  else if threadWaits s then waitRetry s
  else f (ownLocation s a.toNat n) a.toNat

/-- The thread reads words of another memory of its tile, whose loss has a subcode. -/
def readingUnit (s : State) (sub : Nat) (places : FlawPlace → Bool) (f : State → Res) : Res :=
  match readWords s s.cur.tile sub places with
  | (s, true) => waitRetry s
  | (s, false) => f s

/-- The thread reads a range of its store; a lost word is not delivered, and the thread does not issue further (R380). -/
def readingStore (s : State) (off n : Nat) (f : State → Res) : Res :=
  readingUnit s 1 (inStore s.cur.tile off n) f

/-- The thread's writes that a release must see performed: remote and global ones (R102). -/
def writesPending (h : Thread) : Bool := h.writesOut != 0 || h.globalOut != 0

/-- Relaxed stores are performed; the thread waits while a bank holds one. -/
def afterRelaxed (s : State) (f : State → Res) : Res :=
  let s := drainRelaxed s s.cur.tile s.cur.thread
  if s.me.relaxed.isEmpty then f s else waitRetry s

/-- A release: relaxed stores are performed; the thread waits for remote and global writes (R102, R197). -/
def releasing (s : State) (f : State → Res) : Res :=
  if writesPending s.me then waitRetry s else afterRelaxed s f

end Sys2Proof.Machine
end

