-- ==== Sys2Proof/Machine/Threads.lean ====
section
/-! DEFINITION. Control transfer, thread control, fences, and the events that wake threads (spec 08 R137, R189 to R195,
R206, 02 R33, 17 R361, R366). -/

namespace Sys2Proof.Machine

/-! ### Control transfer -/

/-- A branch is taken when its predicate differs from ps (R137). -/
def branchTaken (s : State) (p : PReg) (n : BitVec 1) : Bool := s.me.pred p != (n == 1)

def bodyBr (p : PReg) (n : BitVec 1) (d : BitVec 22) (s : State) : Res :=
  if branchTaken s p n then .jump s (branchTarget s d) else .done s

/-- JAL links PC + 4 to g30 when taken (R137). -/
def bodyJal (p : PReg) (n : BitVec 1) (d : BitVec 22) (s : State) : Res :=
  if branchTaken s p n then .jump (writeReg s 30 (s.cur.ipc + 4)) (branchTarget s d) else .done s

/-- JALR: a target that is not a multiple of 4 traps and writes no link (R137). -/
def bodyJalr (d a : GReg) (i : BitVec 13) (s : State) : Res :=
  let t := s.g a + sx i
  if t.toNat % 4 ≠ 0 then trapHere s 0x03 t else .jump (writeReg s d (s.cur.ipc + 4)) t

/-- LOOP (R190). -/
def bodyLoop (d : GReg) (i : BitVec 13) (s : State) : Res :=
  let t := s.g d - 1
  if t ≠ 0 then .jump (writeReg s d t) (s.cur.ipc + sx i * 4) else .done (writeReg s d t)

def execBr (p : PReg) (n : BitVec 1) (d : BitVec 22) (s : State) : Out := seq 0 (bodyBr p n d) s
def execJal (p : PReg) (n : BitVec 1) (d : BitVec 22) (s : State) : Out := seq 0 (bodyJal p n d) s
def execJalr (d a : GReg) (p : PReg) (i : BitVec 13) (s : State) : Out := seq p (bodyJalr d a i) s
def execLoop (d : GReg) (p : PReg) (i : BitVec 13) (s : State) : Out := seq p (bodyLoop d i) s

/-! ### Fences (R104, R206, R366) -/

/-- Everything DRAIN waits for is performed (Table 04-5). -/
def allPerformed (h : Thread) : Bool :=
  h.remoteOut == 0 && h.globalOut == 0 && h.writebackOut == 0 && h.redOut == 0

/-- The context halts at its fence: the thread stands there and the launch is held (R104, R365, R366). -/
def haltAtFence (s : State) (tile t : Nat) : State :=
  let s := s.setThread tile t { s.thread tile t with st := .waiting .fault }
  match (s.tile tile).place with
  | none => s
  | some pl => stopLaunch s pl.pid pl.lnum 0x0D

/-- A fence: relaxed stores are performed; the thread waits until `ready`, and halts there if its context has faults. -/
def fenceBody (ready : Thread → Bool) (f : State → Res) (s : State) : Res :=
  afterRelaxed s (fun s =>
    if ready s.me = false then waitRetry s
    else if s.me.faults ≠ 0 then .hold (haltAtFence s s.cur.tile s.cur.thread)
    else f s)

/-- FENCE.T: the store accesses, which are performed at issue, and the relaxed stores (Table 04-5). -/
def readyT (_ : Thread) : Bool := true
/-- FENCE.C: also messages and remote writes. -/
def readyC (h : Thread) : Bool := h.remoteOut == 0
/-- FENCE.P: also global accesses, global REDs and LT operations. -/
def readyP (h : Thread) : Bool := h.remoteOut == 0 && h.globalOut == 0
/-- FENCE.S: also the thread's LTWB write-backs. -/
def readyS (h : Thread) : Bool := h.remoteOut == 0 && h.globalOut == 0 && h.writebackOut == 0

/-- The flags of applied REDs reach FFLAGS (R203). -/
def deliverFlags (s : State) : State :=
  s.setMe { s.me with fflags := s.me.fflags ||| s.me.redFlags, redFlags := 0 }

def execFenceT (p : PReg) (s : State) : Out := seq p (fenceBody readyT .done) s
def execFenceC (p : PReg) (s : State) : Out := seq p (fenceBody readyC .done) s
def execFenceP (p : PReg) (s : State) : Out := seq p (fenceBody readyP .done) s
def execFenceS (p : PReg) (s : State) : Out := seq p (fenceBody readyS .done) s
def execDrain (p : PReg) (s : State) : Out := seq p (fenceBody allPerformed (fun s => .done (deliverFlags s))) s

/-! ### Thread control (R191 to R195) -/

/-- YIELD: Waiting through the next own cycle; the next instruction issues 16 cycles later (R191). -/
def bodyYield (s : State) : Res :=
  .done ((s.setMe { s.me with st := .waiting .yield }).after 9 (.threadWake s.cur.tile s.cur.thread))

/-- PARK (R192). -/
def bodyPark (s : State) : Res :=
  if s.me.wake then .done (s.setMe { s.me with wake := false })
  else .hold (s.setMe { s.me with st := .parked .park })

/-- WAKE (R192). -/
def bodyWake (a : GReg) (s : State) : Res :=
  if 8 ≤ (s.g a).toNat then trapHere s 0x06 (s.g a)
  else
    let t := (s.g a).toNat
    let h := s.thread s.cur.tile t
    if h.st = .parked .park then
      .done ((s.setThread s.cur.tile t { h with wake := false }).event (.threadWake s.cur.tile t))
    else if h.st = .halted then .done s
    else .done (s.setThread s.cur.tile t { h with wake := true })

/-- The lowest number among the thread's copies with a promise at most `limit` that is not posted (R193). -/
def missedPromise (e : Engines) (t : Nat) (limit : Word) : Option (BitVec 32) :=
  e.promises.foldl (fun m (n, h, p) =>
    if h = t ∧ p.toNat ≤ limit.toNat ∧ n ∈ e.pending then
      (match m with | none => some n | some k => if n.toNat < k.toNat then some n else some k)
    else m) none

/-- WAITT (R193). -/
def bodyWaitt (a : GReg) (s : State) : Res :=
  let limit := s.g a
  let now := s.ccnt s.cur.tile
  if limit.toNat ≤ now.toNat then
    match missedPromise s.here.eng s.cur.thread limit with
    | some n => trapHere s 0x07 (zx n)
    | none => .done s
  else
    .hold ((s.setMe { s.me with st := .parked (.waitt limit) }).after (limit.toNat - now.toNat)
      (.waittExpiry s.cur.tile s.cur.thread))

/-- A completion number is posted (R194, R217). -/
def posted (e : Engines) (n : BitVec 32) : Bool := !e.pending.contains n

/-- WAITE (R194). -/
def bodyWaite (a : GReg) (s : State) : Res :=
  let v := s.g a
  if v.toNat ≥ 2 ^ 32 ∨ v = 0 ∨ s.here.eng.cnum.toNat < v.toNat then trapHere s 0x06 v
  else if posted s.here.eng (v.truncate 32) then .done s
  else .hold (s.setMe { s.me with st := .parked (.waite (v.truncate 32)) })

/-- HALTT: waits as DRAIN does, then Halted; with fault log entries it halts at this point (R195, R203). -/
def bodyHaltt (s : State) : Res :=
  fenceBody allPerformed (fun s => .hold ((deliverFlags s).setMe { (deliverFlags s).me with st := .halted })) s

def execYield (p : PReg) (s : State) : Out := seq p bodyYield s
def execPark (p : PReg) (s : State) : Out := seq p bodyPark s
def execWake (a : GReg) (p : PReg) (s : State) : Out := seq p (bodyWake a) s
def execWaitt (a : GReg) (p : PReg) (s : State) : Out := seq p (bodyWaitt a) s
def execWaite (a : GReg) (p : PReg) (s : State) : Out := seq p (bodyWaite a) s
def execHaltt (p : PReg) (s : State) : Out := seq p bodyHaltt s

/-! ### Waking (R33, R193) -/

/-- The thread runs, at the instruction at its pc. -/
def runThread (s : State) (tile t : Nat) : State := s.setThread tile t { s.thread tile t with st := .running }
/-- The thread runs, behind the instruction at its pc. -/
def passThread (s : State) (tile t : Nat) : State :=
  s.setThread tile t { advance (s.tile tile) (s.thread tile t) with st := .running }

/-- Receive queue 0 or 1 of a tile (R208). -/
def recvQueue (x : Tile) (q : Bool) : List Word := if q then x.core.recv[1] else x.core.recv[0]
def setRecv (x : Tile) (q : Bool) (l : List Word) : Tile :=
  { x with core := { x.core with recv := if q then x.core.recv.set 1 l else x.core.recv.set 0 l } }

/-- The threads parked by QWAIT on a queue are told of an entry (R33, R142). -/
def wakeQueue (s : State) (tile : Nat) (q : Bool) : State :=
  (List.range 8).foldl (fun s t =>
    match (s.thread tile t).st with
    | .parked (.queue n _) => if (n == 1) = q then s.event (.threadWake tile t) else s
    | _ => s) s

/-- A message is enqueued at its receive queue: one token received (R51, R208, R210). -/
def enqueueMessage (s : State) (tile : Nat) (q : Bool) (v : Word) (vc src owner : Nat) : State :=
  let s := s.modTile tile (fun x => setRecv { x with received := x.received + 1 } q (recvQueue x q ++ [v]))
  wakeQueue (ownerDone (arcReceives s tile vc (fun _ => 1)) src owner) tile q

/-- Whether a flit is a message for a queue. -/
def messageFor (q : Bool) (f : MeshFlit) : Bool :=
  match f.body with
  | .message r _ => r == q
  | _ => false

/-- The first message held at the router for the queue takes the room (R208). -/
def releaseHeld (s : State) (tile : Nat) (q : Bool) : State :=
  match (s.tile tile).core.heldMsgs.find? (messageFor q) with
  | none => s
  | some f =>
    let s := s.modTile tile (fun x => { x with core := { x.core with heldMsgs := x.core.heldMsgs.erase f } })
    match f.body with
    | .message _ v => enqueueMessage s tile q v f.vc f.src f.owner
    | _ => s

/-- The oldest entry of receive queue `q` is taken (R142, R211). -/
def popQueue (s : State) (tile : Nat) (q : BitVec 2) : Option (Word × State) :=
  match recvQueue (s.tile tile) (q == 1) with
  | [] => none
  | v :: r => some (v, releaseHeld (s.modTile tile (fun x => setRecv x (q == 1) r)) tile (q == 1))

/-- E has reached the target in the sense of R254. -/
def eventReached (e v : Word32) : Bool := !(e - v).getLsbD 31

/-- THREAD_WAKE: a Waiting or Parked thread whose condition holds runs again (R33); a parked operation is completed. -/
def wakeThread (s : State) (tile t : Nat) : State :=
  let h := s.thread tile t
  match h.st with
  | .waiting .retry | .waiting .yield | .waiting .reply | .waiting .unit => runThread s tile t
  | .parked .park => passThread s tile t
  | .parked (.word _) =>
    if (s.tile tile).store.waiters.any (fun e =>
        match e.kind with | .ldf n _ | .ldfe n _ | .stef n _ => n == t | .remote _ _ _ _ => false) then s
    else runThread s tile t
  | .parked (.queue q rd) =>
    match popQueue s tile q with
    | none => s
    | some (v, s) => passThread (s.setThread tile t ((s.thread tile t).setReg rd v)) tile t
  | .parked (.waite n) => if posted (s.tile tile).eng n then passThread s tile t else s
  | .parked (.event c v) =>
    match (s.tile tile).place with
    | none => s
    | some pl => if eventReached (tabGet 0 (s.part pl.pid).counters c) v then passThread s tile t else s
  | .parked (.barrier b) =>
    if tabFind h.arrivals b = some .complete then
      passThread (s.setThread tile t { h with arrivals := tabDel h.arrivals b }) tile t
    else s
  | _ => s

def execThreadWake (tile t : Nat) (s : State) : Out := .next (wakeThread s tile t)

/-- WAITT_EXPIRY: the promise check at the wake, then the thread goes on or takes cause 0x07 (R193). -/
def execWaittExpiry (tile t : Nat) (s : State) : Out :=
  let h := s.thread tile t
  match h.st with
  | .parked (.waitt limit) =>
    if limit.toNat ≤ (s.ccnt tile).toNat then
      match missedPromise (s.tile tile).eng t limit with
      | some n => .next (takeTrap s tile t 0x07 0 (zx n) h.pc)
      | none => .next (passThread s tile t)
    else .next s
  | _ => .next s

/-- DEBUG_STOP: the thread takes cause 0x13 when it next would issue (R361). -/
def execDebugStop (tile t : Nat) (s : State) : Out :=
  .next (s.setThread tile t { s.thread tile t with debug := true })

/-- ILLEGAL_INSTRUCTION: cause 0x01 with the first illegal word (R140, R149). -/
def execIllegalInstruction (w : Word32) (s : State) : Out := .next (finish s (trapHere s 0x01 (zx w)))

/-- Completion numbers of a tile that are posted wake their waiters (R194). -/
def postNumber (s : State) (tile : Nat) (n : BitVec 32) : State :=
  let s := s.modTile tile (fun x =>
    { x with eng := { x.eng with
        pending := x.eng.pending.filter (· != n), promises := x.eng.promises.filter (fun e => e.1 != n) } })
  (List.range 8).foldl (fun s t =>
    if (s.thread tile t).st = .parked (.waite n) then s.event (.threadWake tile t) else s) s

end Sys2Proof.Machine
end

