-- ==== Sys2Proof/Machine/Translate.lean ====
section
/-! DEFINITION. Physical memory, page walks, TLBs and register-window addresses (spec 16 R349 to R359, 04 R91). -/

namespace Sys2Proof.Machine

/-! ### Partitions of tiles -/

/-- Whether a partition's rectangle holds a tile (R325). -/
def holdsTile (p : Partition) (t : Nat) : Bool :=
  p.present && decide (p.x0 ≤ t % 64) && decide (t % 64 < p.x0 + p.w) && decide (p.y0 ≤ t / 64) &&
    decide (t / 64 < p.y0 + p.h)

/-- The partition of a tile: its placement's, else the one whose rectangle holds it, else the number 0, whose record is
then that of no partition (R325, R326). -/
def pidOf (s : State) (tile : Nat) : Nat :=
  match (s.tile tile).place with
  | some pl => pl.pid
  | none => ((s.parts.find? (fun (_, p) => holdsTile p tile)).map (·.1)).getD 0

/-! ### Physical memory (R91) -/

/-- Whether a physical address is host memory. -/
def inHost (pa : Nat) : Bool := decide (pa / 2 ^ 51 = 1)
/-- The sequencer number 32 s + c of an HBM4 address. -/
def chanOf (pa : Nat) : Nat := pa / 2 ^ 31
/-- Whether a partition owns a physical address (R349). -/
def owned (p : Partition) (pa : Nat) : Bool := inHost pa || (decide (pa < 0x30000000000) && p.channels.contains (chanOf pa))

def physBytes (s : State) (pa n : Nat) : List Byte :=
  if inHost pa then memBytes s.host (pa % 2 ^ 51) n else memBytes (s.chan (chanOf pa)).mem (pa % 2 ^ 31) n
def physLoad (s : State) (pa n : Nat) : Nat := bytesNat (physBytes s pa n)

/-- A demand request reaches its channel (R92). -/
def sendDemand (s : State) (ch : Nat) (d : Demand) : State :=
  s.setChan ch { s.chan ch with demands := (s.chan ch).demands ++ [d] }

/-! ### Page walks (R352 to R354) -/

/-- The cause and subcode of a failure (R354). -/
def failCause (write : Bool) (t : Translation) : BitVec 8 × BitVec 8 :=
  match t with
  | .fail n => (if write then 0x05 else 0x04, BitVec.ofNat 8 n)
  | _ => (0x06, 0)

/-- Whether a page permits an access (R354, R355). -/
def permits (g : Page) (write user : Bool) : Bool := (if write then g.write else g.read) && (!user || g.user)

/-- Every byte of a page is owned: a 64 GiB page covers the 32 channels of a stack (R354). -/
def pageOwned (p : Partition) (pa size : Nat) : Bool :=
  (List.range (max 1 (size / 2 ^ 31))).all (fun i => owned p (pa + i * 2 ^ 31))

/-- A level's lowest index bit, index width, and whether a leaf may stand there (Table 16-2). -/
def levelOf (level : Nat) : Nat × Nat × Bool :=
  match level with
  | 0 => (46, 11, false)
  | 1 => (36, 10, true)
  | 2 => (26, 10, true)
  | _ => (16, 10, true)

/-- The address of the entry of an address in a level's table. -/
def entryAt (va level table : Nat) : Nat := table + 8 * (va / 2 ^ (levelOf level).1 % 2 ^ (levelOf level).2.1)

/-- What an entry says: the next table, or the end of the walk, with a page whose permissions and owner are not judged yet. -/
inductive Entry where
  | table (t : Nat)
  | stop (r : Translation)
  deriving DecidableEq, Repr

/-- An entry of a level (R353, R354). -/
def readEntry (va level e : Nat) : Entry :=
  let (sh, _, leaf) := levelOf level
  let addr := e / 2 ^ 12 % 2 ^ 40 * 2 ^ 12
  if e % 2 = 0 then .stop (.fail 1)
  else if e / 2 ^ 5 % 8 ≠ 0 ∨ e / 2 ^ 52 ≠ 0 then .stop (.fail 2)
  else if e / 2 % 2 = 0 then
    if 3 ≤ level ∨ e / 2 ^ 12 % 2 ≠ 0 then .stop (.fail 2) else .table addr
  else if !leaf ∨ (e / 8 % 2 = 1 ∧ e / 4 % 2 = 0) then .stop (.fail 2)
  else if addr % 2 ^ sh ≠ 0 then .stop (.fail 2)
  else .stop (.page ⟨va / 2 ^ sh * 2 ^ sh, addr, 2 ^ sh, e / 4 % 2 == 1, e / 8 % 2 == 1, e / 16 % 2 == 1⟩)

/-- An access of a kind meets the end of a walk: the page's permissions, then its owner (R354). -/
def judgePage (p : Partition) (write user : Bool) (r : Translation) : Translation :=
  match r with
  | .page g => if !permits g write user then .fail 3 else if !pageOwned p g.pa g.size then .access else .page g
  | r => r

/-- The entries from a level on, read at one moment. -/
def walkLevels (s : State) (p : Partition) (va : Nat) (t level : Nat) (fuel : Nat) : Translation :=
  match fuel with
  | 0 => .fail 2
  | k + 1 =>
    if !owned p t then .access
    else
      match readEntry va level (physLoad s (entryAt va level t) 8) with
      | .stop r => r
      | .table u => walkLevels s p va u (level + 1) k

/-- The address of the level-0 table (Table 16-1). -/
def rootOf (w : Word) : Nat := w.toNat / 2 ^ 14 % 2 ^ 38 * 2 ^ 14

/-- A walk whose entries are read at one moment (R354). -/
def walk (s : State) (p : Partition) (va : Nat) (write user : Bool) : Translation :=
  judgePage p write user (walkLevels s p va (rootOf p.ptroot) 0 4)

/-- VA[56:48] = 0x1FF with bits [63:57] 0 (R350). -/
def inWindow (va : Nat) : Bool := decide (va / 2 ^ 48 = 0x1FF)

/-- Failures that need no walk: an invalid address, the register window, translation disabled (R350, R354). -/
def earlyFail (p : Partition) (va : Nat) : Option Translation :=
  if va ≥ 2 ^ 57 ∨ inWindow va then some (.fail 4) else if p.ptroot.getLsbD 0 = false then some (.fail 5) else none

/-! ### TLBs (R356) -/

def coversVa (g : Page) (va : Nat) : Bool := decide (g.va ≤ va) && decide (va < g.va + g.size)
def tlbFind (l : List Page) (va : Nat) : Option Page := l.find? (fun g => coversVa g va)
/-- A TLB of `n` entries takes a page; the oldest entry leaves (not architectural). -/
def tlbPut (l : List Page) (n : Nat) (g : Page) : List Page := (g :: l.filter (fun h => h != g)).take n

/-- Physical address of a virtual address within a page. -/
def pageAddr (g : Page) (va : Nat) : Nat := g.pa + (va - g.va)

/-- The field of a tile, whose walkers and last-level TLB serve it (R356). -/
def fieldOf (tile : Nat) : Nat := 8 * (tile / 64 / 8) + tile % 64 / 8

/-- A partition's entries of a field's last-level TLB. -/
def fieldTlb (p : Partition) (field : Nat) : List Page := tabGet [] p.tlb field
def putField (p : Partition) (field : Nat) (g : Page) : Partition :=
  { p with tlb := tabPut p.tlb field (tlbPut (fieldTlb p field) 8192 g) }

/-- The page or failure that a hit of a field's last-level TLB, or a walk at this moment, gives. -/
def lookupPage (s : State) (pid field va : Nat) (write user : Bool) : Translation :=
  let p := s.part pid
  match earlyFail p va with
  | some f => f
  | none =>
    match tlbFind (fieldTlb p field) va with
    | some g => if permits g write user then .page g else .fail 3
    | none => walk s p va write user

/-- The field whose last-level TLB serves the launch unit and binds: that of the partition's origin (log 28). -/
def unitField (p : Partition) : Nat := fieldOf (64 * p.y0 + p.x0)

/-- A translation of the launch unit or of a bind (Table 16-5), made at this moment (log 28). -/
def translateAt (s : State) (pid va : Nat) (write user : Bool) : State × Translation :=
  let field := unitField (s.part pid)
  match lookupPage s pid field va write user with
  | .page g => (s.setPart pid (putField (s.part pid) field g), .page g)
  | t => (s, t)

/-- A piece of memory cut where it crosses a multiple of 1,024 bytes: position, length, address. -/
def cutPiece (pos len va : Nat) : List (Nat × Nat × Nat) :=
  let n := 1024 - va % 1024
  if len ≤ n then [(pos, len, va)] else [(pos, n, va), (pos + n, len - n, va + n)]

/-! ### Walkers (R354, R356, R358) -/

/-- Walks that the walkers of a field have begun, of any partition. -/
def busyWalkers (s : State) (field : Nat) : Nat :=
  (s.parts.map (fun (_, p) => (p.walks.filter (fun (_, w) => w.field == field && w.started)).length)).sum

/-- The number of a walk: one for each 64 KiB page, field and partition. -/
def walkKey (pid field va : Nat) : Nat := 2 ^ 47 * pid + 2 ^ 41 * field + va / 2 ^ 16 % 2 ^ 41

/-- A miss of a field's last-level TLB joins the walk of its page, or begins one; one that finds every walker busy waits for
a free walker (R356). -/
def missWalk (s : State) (pid field va : Nat) (who : WalkFor) : State :=
  let p := s.part pid
  let k := walkKey pid field va
  match tabFind p.walks k with
  | some w => s.setPart pid { p with walks := tabPut p.walks k { w with waiting := w.waiting ++ [who] } }
  | none =>
    let free := decide (busyWalkers s field < 32)
    let s := s.setPart pid { p with walks := tabPut p.walks k ⟨va, field, 0, rootOf p.ptroot, none, [who], free, false⟩ }
    if free then s.event (.pageWalkComplete k) else s

/-- A walker that has become free takes the next walk of its field. -/
def nextWalk (s : State) (field : Nat) : State :=
  match (s.parts.flatMap (fun (q, p) => (p.walks.filter (fun (_, w) => w.field == field && !w.started)).map (fun e => (q, e)))).head? with
  | none => s
  | some (q, k, w) =>
    let p := s.part q
    (s.setPart q { p with walks := tabPut p.walks k { w with started := true, table := rootOf p.ptroot } }).event (.pageWalkComplete k)

/-- The page number of 64 KiB of an address. -/
def pageNumber (va : Nat) : Nat := va / 2 ^ 16

/-- The end of a walk reaches one that waits for it: a thread issues again, with the page in its core's TLB or with the
failure; a fill or a write-back goes on (R354, R356, R359). `r` is none where the result is discarded (R320). -/
def tellWalk (pid va : Nat) (r : Option Translation) (s : State) (who : WalkFor) : State :=
  let p := s.part pid
  match who with
  | .thread tile t a write user =>
    let s := s.event (.threadWake tile t)
    match r.map (judgePage p write user) with
    | none => s
    | some (.page g) => s.modTile tile (fun x => { x with tlb := tlbPut x.tlb 384 g })
    | some f =>
      let h := s.thread tile t
      let c := failCause write f
      s.setThread tile t { h with walkFault := h.walkFault ++ [(c.1, c.2, BitVec.ofNat 64 a)] }
  | .fill tag =>
    let s := match r.map (judgePage p false false), tabFind p.fills tag.toNat with
      | some (.fail _), some f | some .access, some f =>
        s.setPart pid { p with fills := tabPut p.fills tag.toNat { f with failed := f.failed ++ [pageNumber va] } }
      | _, _ => s
    s.event (.llcFillComplete pid tag)
  | .back tag =>
    let s := match r.map (judgePage p true false), tabFind p.backs tag.toNat with
      | some (.fail _), some b | some .access, some b =>
        s.setPart pid { p with backs := tabPut p.backs tag.toNat { b with failed := b.failed ++ [pageNumber va] } }
      | _, _ => s
    s.event (.llcWriteback pid tag)

/-- The kind and privilege of what waits for a walk. -/
def walkAccess (who : WalkFor) : Bool × Bool :=
  match who with
  | .thread _ _ _ write user => (write, user)
  | .fill _ => (false, false)
  | .back _ => (true, false)

/-- A page that one of those who wait may use enters the field's last-level TLB; a failure is never held (R356). -/
def keepPage (p : Partition) (field : Nat) (r : Option Translation) (waiting : List WalkFor) : Partition :=
  match r with
  | some (.page g) =>
    if waiting.any (fun k => judgePage p (walkAccess k).1 (walkAccess k).2 (.page g) == .page g) then putField p field g else p
  | _ => p

/-- A walk ends: both TLBs are filled, those who wait go on, and the walker is free (R320, R356). -/
def endWalk (s : State) (pid k : Nat) (w : Walk) (r : Translation) : State :=
  let p := s.part pid
  let r := if w.discard then none else some r
  let s := s.setPart pid (keepPage { p with walks := tabDel p.walks k } w.field r w.waiting)
  nextWalk (w.waiting.foldl (tellWalk pid w.va r) s) w.field

/-- The walker reads the entries from where it stands: host memory at once, HBM4 through the channel's demand windows (R354,
R358). -/
def walkOn (s : State) (pid k : Nat) (w : Walk) (fuel : Nat) : State :=
  match fuel with
  | 0 => s
  | n + 1 =>
    match w.result with
    | some r => endWalk s pid k w r
    | none =>
      let pa := entryAt w.va w.level w.table
      if !owned (s.part pid) w.table then endWalk s pid k w .access
      else if inHost pa then
        match readEntry w.va w.level (physLoad s pa 8) with
        | .stop r => endWalk s pid k w r
        | .table t => walkOn s pid k { w with level := w.level + 1, table := t } n
      else
        let p := s.part pid
        sendDemand (s.setPart pid { p with walks := tabPut p.walks k w }) (chanOf pa)
          ⟨pid, 0, pa % 2 ^ 31 / 1024, .walk k (pa % 2 ^ 31), none⟩

/-- A demand slot returns the entry that a walk reads. -/
def walkRead (s : State) (ch pid k off : Nat) : State :=
  let p := s.part pid
  match tabFind p.walks k with
  | none => s
  | some w =>
    let w := match readEntry w.va w.level (bytesNat (memBytes (s.chan ch).mem off 8)) with
      | .stop r => { w with result := some r }
      | .table t => { w with level := w.level + 1, table := t }
    (s.setPart pid { p with walks := tabPut p.walks k w }).event (.pageWalkComplete k)

/-- PAGE_WALK_COMPLETE: the walk goes on from the entry at hand, to its end or to an entry in HBM4 (R354, R356, R358). -/
def execPageWalkComplete (k : Nat) (s : State) : Out :=
  let pid := k / 2 ^ 47
  match tabFind (s.part pid).walks k with
  | none => .next s
  | some w => .next (if w.started then walkOn s pid k w 5 else s)

/-! ### Translations of a thread (Table 16-4) -/

/-- What a thread's TLBs say of an address: a page, a failure, or that a walk is needed. -/
inductive Seen where
  | page (g : Page)
  | stop (t : Translation)
  | miss
  deriving DecidableEq, Repr

/-- The thread's lookup: its core's TLB, then its field's (R350, R354, R356). -/
def seenPage (s : State) (va : Nat) (write : Bool) : Seen :=
  let user := s.me.pl == 0
  let p := s.part (pidOf s s.cur.tile)
  match earlyFail p va with
  | some t => .stop (if inWindow va && !user then .access else t)
  | none =>
    match (tlbFind s.here.tlb va).or (tlbFind (fieldTlb p (fieldOf s.cur.tile)) va) with
    | some g => if permits g write user then .page g else .stop (.fail 3)
    | none => .miss

/-- The core's TLB takes a page that the thread has used, if it does not hold one (R356). -/
def keepHere (s : State) (va : Nat) (g : Page) : State :=
  if (tlbFind s.here.tlb va).isSome then s else s.setHere { s.here with tlb := tlbPut s.here.tlb 384 g }

/-- A thread's access is translated: a hit goes on; a miss joins or begins a walk, and the thread is Waiting; a walk that
failed has left its cause with the thread. `bad` takes cause and subcode. -/
def withPage (s : State) (va : Word) (write : Bool) (bad : State → BitVec 8 → BitVec 8 → Res) (f : State → Res) : Res :=
  match s.me.walkFault.find? (fun e => e.2.2 == va) with
  | some (c, sub, _) => bad s c sub
  | none =>
    match seenPage s va.toNat write with
    | .page g => if threadWaits s then waitRetry s else f (keepHere s va.toNat g)
    | .stop t => bad s (failCause write t).1 (failCause write t).2
    | .miss =>
      .hold (missWalk (s.setMe { s.me with st := .waiting .reply, issued := true }) (pidOf s s.cur.tile) (fieldOf s.cur.tile) va.toNat
        (.thread s.cur.tile s.cur.thread va.toNat write (s.me.pl == 0)))

/-- Several addresses in order; `bad` takes the first that fails too (R229, R253). -/
def withPages (s : State) (vas : List Nat) (write : Bool) (bad : Nat → State → BitVec 8 → BitVec 8 → Res) (f : State → Res) : Res :=
  match vas with
  | [] => f s
  | va :: r => withPage s (BitVec.ofNat 64 va) write (bad va) (fun s => withPages s r write bad f)

/-- The page of an address that the thread has just translated (Table 16-4). -/
def pageNow (s : State) (va : Nat) (write : Bool) : Option Page :=
  match seenPage s va write with
  | .page g => some g
  | _ => none

/-- The thread has translated its pieces: what walks of its instruction left with it is used up. -/
def usedWalks (s : State) : State := s.setMe { s.me with walkFault := [] }

/-- A trap with a subcode, at the instruction's own address. -/
def trapSub (s : State) (c sub : BitVec 8) (v : Word) : Res := .trap c sub v s.cur.ipc

end Sys2Proof.Machine
end

