-- ==== Sys2Proof/Machine/Mesh.lean ====
section
/-! DEFINITION. The reduction mesh: injection, routing, end-to-end replay, delivery and scatter-reduce units
(spec 05 R119 to R127, 08 R208 to R210, 17 R366). -/

namespace Sys2Proof.Machine

/-! ### Injection and routing -/

def tripleKey (src dst vc : Nat) : Nat := 32 * (4096 * src + dst) + vc

/-- A flit begins its way at its source: injection takes 2 cycles (R119). -/
def inject (s : State) (f : MeshFlit) : State :=
  let n := s.nextTravel
  let reply := match f.body with | .reply _ => true | _ => false
  { s with travels := tabPut s.travels n ⟨f, f.src, reply, 0, s.cycle + 2, .clean⟩, nextTravel := n + 1 }.after 2 (.routerForward n)

/-- The source gives a flit the next SEQ of its triple, keeps it for replay, and sends it (R122, R123). -/
def sendFlit (s : State) (src dst vc owner : Nat) (body : MeshBody) : State :=
  let k := tripleKey src dst vc
  let t := s.triple k
  let f : MeshFlit := ⟨dst, src, vc, t.next, owner, body⟩
  inject (s.setTriple k { t with next := t.next + 1, replay := t.replay ++ [f] }) f

/-- One hop along X, or along Y when X is done; `yFirst` the other way round (R119). -/
def hop (yFirst : Bool) (cur dst : Nat) : Nat :=
  let x := cur % 64
  let y := cur / 64
  let u := dst % 64
  let v := dst / 64
  let goX := 64 * y + (if x < u then x + 1 else x - 1)
  let goY := 64 * (if y < v then y + 1 else y - 1) + x
  if yFirst then (if y ≠ v then goY else goX) else if x ≠ u then goX else goY

/-- Whether a path of at most `fuel` hops meets a router that does not forward (R119). -/
def pathBlocked (s : State) (yFirst : Bool) (cur dst fuel : Nat) : Bool :=
  match fuel with
  | 0 => false
  | n + 1 =>
    if cur = dst then !(s.tile cur).ctl.forwards
    else !(s.tile cur).ctl.forwards || pathBlocked s yFirst (hop yFirst cur dst) dst n

/-- Hops between two tiles along either path (R119). -/
def hops (a b : Nat) : Nat := (a % 64 - b % 64) + (b % 64 - a % 64) + (a / 64 - b / 64) + (b / 64 - a / 64)

/-- The router that a flit goes to next: its own at the destination (R119). -/
def Travel.next (s : State) (t : Travel) : Nat :=
  if t.tile = t.flit.dst then t.tile else hop (pathBlocked s false t.flit.src t.flit.dst 128) t.tile t.flit.dst

/-- The link of a router towards another tile: 0 to its own, 1 to 4 to the north, east, south and west. -/
def linkTo (a b : Nat) : Nat := if b = a then 0 else if b = a + 1 then 2 else if b + 1 = a then 4 else if b < a then 1 else 3

/-- The output that a flit takes next. -/
def Travel.output (s : State) (t : Travel) : Nat := 8 * t.tile + linkTo t.tile (t.next s)

/-- The class of buffer of a flit where it stands: request, reply, or transit in another partition's router (R120, R121). -/
def bufferClass (s : State) (f : MeshFlit) (reply : Bool) (tile : Nat) : Nat :=
  if pidOf s tile ≠ pidOf s f.src then 2 else if reply then 1 else 0

/-- The input of its destination's router that a flit arrives in. -/
def lastInput (s : State) (f : MeshFlit) : Nat :=
  let vertical := if f.src < f.dst then 1 else 3
  let horizontal := if f.src % 64 < f.dst % 64 then 4 else 2
  if f.src = f.dst then 0
  else if pathBlocked s false f.src f.dst 128 then (if f.src % 64 = f.dst % 64 then vertical else horizontal)
  else if f.src / 64 = f.dst / 64 then horizontal else vertical

/-- A copy's flit (R121, R227). -/
def isCopyTraffic (f : MeshFlit) : Bool := f.owner == 24

/-- A message held at a router, or a synchronising delivery, that stands in an input's request buffer (R77, R208). -/
def heldInputs (s : State) (tile : Nat) : List Nat :=
  let x := s.tile tile
  (x.core.heldMsgs.map (fun f => lastInput s f)) ++
    x.store.held.filterMap (fun e =>
      match e.kind with
      | .remote _ vc src owner => some (lastInput s ⟨tile, src, vc, 0, owner, .picot⟩)
      | _ => none)

/-- Flits in a buffer of a router: of an input and a class (R120). -/
def buffered (s : State) (tile input cls : Nat) : Nat :=
  (s.travels.filter (fun (_, v) => v.tile == tile && v.input == input && decide (v.since ≤ s.cycle) &&
      bufferClass s v.flit v.reply tile == cls)).length +
    (if cls = 0 then ((heldInputs s tile).filter (· == input)).length else 0)

/-- An input class with 2 or fewer free entries of its 4 asserts hold (R120). -/
def holds (s : State) (tile input cls : Nat) : Bool := decide (2 ≤ buffered s tile input cls)

/-- A flit is before another in the buffer in which both stand. At the source, flits of one triple keep their order (R97). -/
def ahead (s : State) (n : Nat) (t : Travel) (m : Nat) (v : Travel) : Bool :=
  v.tile == t.tile && v.input == t.input && (decide (v.since < t.since) || (v.since == t.since && decide (m < n))) &&
    (if t.input = 0 then v.flit.dst == t.flit.dst && v.flit.vc == t.flit.vc
     else bufferClass s v.flit v.reply v.tile == bufferClass s t.flit t.reply t.tile)

/-- A message that stands behind another in its send queue (R208). -/
def behindInQueue (s : State) (f : MeshFlit) : Bool :=
  (s.tile f.src).core.send.toList.any (fun l => l.contains { f with seq := 0 } && !(l.head? == some { f with seq := 0 }))

/-- A flit that may leave its buffer: it has arrived, is the first there, and the next buffer does not hold (R120). -/
def canLeave (s : State) (n : Nat) (t : Travel) : Bool :=
  let next := t.next s
  decide (t.since + (if next = t.tile then 2 else 0) ≤ s.cycle) && !s.travels.any (fun (m, v) => ahead s n t m v) &&
    !(t.tile == t.flit.src && t.input == 0 && behindInQueue s t.flit) &&
    (if next = t.tile then
      !(bufferClass s t.flit t.reply next == 0 && (heldInputs s next).contains t.input)
     else !holds s next (linkTo next t.tile) (bufferClass s t.flit t.reply next))

/-- The cycle in four that a router output keeps for copies (R227). -/
def copyCycle (cycle : Nat) : Bool := cycle % 4 == 0

/-- How long a source waits for its turn after the last copier of an output (R227). -/
def turnsAfter (last src : Nat) : Nat := (src + 4096 - last % 4096 + 4095) % 4096

/-- The output is free for the flit in this cycle: one flit a cycle; transit takes at most one cycle in four unless the
router's own classes leave the output idle, and never a copy cycle; a copy cycle goes to the copies in rotation; replies
come before requests (R120, R121, R227). -/
def mayUse (s : State) (n : Nat) (t : Travel) : Bool :=
  let k := t.output s
  let l := tabGet Link.reset s.links k
  let rival (test : Travel → Bool) : Bool :=
    s.travels.any (fun (m, v) => m != n && v.tile == t.tile && test v && v.output s == k && canLeave s m v)
  let own (v : Travel) : Bool := bufferClass s v.flit v.reply t.tile != 2
  let reserved := copyCycle s.cycle
  if s.cycle < l.used then false
  else if !own t then
    !reserved && (decide (l.transit + 3 ≤ s.cycle) || !rival own) &&
      (isCopyTraffic t.flit || !rival (fun v => !own v && isCopyTraffic v.flit))
  else if reserved && isCopyTraffic t.flit then
    !rival (fun v => own v && isCopyTraffic v.flit && decide (turnsAfter l.copier v.flit.src < turnsAfter l.copier t.flit.src))
  else !(reserved && rival (fun v => own v && isCopyTraffic v.flit)) && (t.reply || !rival (fun v => own v && v.reply))

/-- The output has passed a flit in this cycle. -/
def useOutput (s : State) (t : Travel) : State :=
  let k := t.output s
  let l := tabGet Link.reset s.links k
  { s with links := tabPut s.links k ⟨s.cycle + 1,
      if bufferClass s t.flit t.reply t.tile = 2 then s.cycle + 1 else l.transit,
      if isCopyTraffic t.flit then t.flit.src else l.copier⟩ }

/-- The launch and context of a tile's records. -/
def postAt (s : State) (tile typ cause sub : Nat) (data : List Byte) : State :=
  match (s.tile tile).place with
  | none => s
  | some pl => post s pl.pid typ cause sub 0 tile (launchQueue s pl.pid pl.lnum) pl.lnum data

/-- Reduction fault data (Table 17-4). -/
def faultData (addr opnd : Nat) (fn fcause ctxk ctxid rseq : Nat) : List Byte :=
  natBytes 8 addr ++ natBytes 8 opnd ++ natBytes 1 fn ++ natBytes 1 fcause ++ natBytes 1 ctxk ++ [0] ++ natBytes 2 ctxid ++
    [0, 0] ++ natBytes 4 rseq

/-- A reduction fault: one record, and the context's count rises (R366). Contexts: 0 thread, 1 region, 2 copy. -/
def reductionFault (s : State) (tile sub ctxk ctx : Nat) (addr opnd fn fcause rseq : Nat) : State :=
  let s := postAt s tile 0x09 0x0D sub (faultData addr opnd fn fcause ctxk ctx rseq)
  if ctxk = 1 then
    let k := (s.regions.find? (fun (_, r) => r.number == ctx && some (r.pid, r.lnum) ==
      ((s.tile tile).place.map (fun pl => (pl.pid, pl.lnum))))).map (·.1)
    match k with
    | none => s
    | some k => s.setRegion k { s.region k with faults := (s.region k).faults + 1 }
  else s.setThread tile ctx { s.thread tile ctx with faults := (s.thread tile ctx).faults + 1 }

/-- TYPE and OP of the sideband (Table 05-5), and RID. -/
def typeCode (b : MeshBody) : BitVec 4 :=
  match b with
  | .message _ _ | .token _ _ | .piece _ _ _ _ _ _ => 0
  | .write _ _ _ | .bytes _ _ _ => 1
  | .reduction _ _ _ | .tree _ _ _ => 2
  | .exponent _ _ => 3
  | .reply _ => 4
  | .drain _ => 6
  | .picot => 7
  | .malformed typ _ _ => typ
def opField (b : MeshBody) : BitVec 4 :=
  match b with
  | .tree op _ _ => op
  | .exponent _ _ => 2
  | .malformed _ op _ => op
  | _ => 0
def ridField (b : MeshBody) : BitVec 12 :=
  match b with
  | .tree _ rid _ | .exponent rid _ => BitVec.ofNat 12 rid
  | .malformed _ _ rid => rid
  | _ => 0

/-- The sideband of a flit (Table 05-5): DST, SRC, VC, CLS, TYPE, OP, RID and SEQ from bit 0 upward. -/
def sideband (f : MeshFlit) : BitVec 96 :=
  let reply := match f.body with | .reply _ => true | _ => false
  0#14 ++ BitVec.ofNat 32 f.seq ++ ridField f.body ++ opField f.body ++ typeCode f.body ++ BitVec.ofBool reply ++
    BitVec.ofNat 5 f.vc ++ BitVec.ofNat 12 f.src ++ BitVec.ofNat 12 f.dst

/-- A reserved TYPE or OP in a sideband (R123, Table 05-6). -/
def reservedSideband (w : BitVec 96) : Bool :=
  decide (8 ≤ (w.extractLsb' 30 4).toNat) || decide (6 ≤ (w.extractLsb' 34 4).toNat)

/-- The context that issued a flit (R366): 0 and a thread, 1 and a region, 2 and the thread of a copy. -/
def flitContext (s : State) (f : MeshFlit) : Option (Nat × Nat) :=
  match f.body with
  | .reduction _ _ _ => some (1, f.owner)
  | .tree _ _ _ | .exponent _ _ => if 256 ≤ f.owner then some (1, f.owner - 256) else none
  | _ =>
    if f.owner < 8 ∨ (32 ≤ f.owner ∧ f.owner < 48) then some (0, f.owner % 8)
    else if f.owner = 24 then ((s.tile f.src).eng.copies.head?).map (fun c => (2, c.thread))
    else if h : f.owner - 8 < 16 then some (0, ((s.tile f.src).eng.streams[f.owner - 8]).thread)
    else none

/-- A flit that a router refuses is recorded with SRC, OP and RID; the issuing context counts it, where one issued it
(R123, R366). -/
def flitFault (s : State) (tile sub : Nat) (f : MeshFlit) : State :=
  match flitContext s f with
  | some (k, c) =>
    reductionFault s f.src sub k c f.src (opField f.body).toNat (typeCode f.body).toNat 0 (ridField f.body).toNat
  | none =>
    postAt s tile 0x09 0x0D sub (faultData f.src (opField f.body).toNat (typeCode f.body).toNat 0 0 (ridField f.body).toNat f.seq)

/-- A message leaves its send queue when its first hop begins (R208). -/
def leaveSendQueue (s : State) (f : MeshFlit) : State :=
  s.modTile f.src (fun x => { x with core := { x.core with send := x.core.send.map (fun l => l.erase { f with seq := 0 }) } })

/-- ROUTER_FORWARD: one hop of dimension-order routing in 2 cycles, or the ejection at the destination, once the buffers and
the output allow it; a flit with a reserved TYPE or OP is discarded and recorded at the next router (R119 to R121, R123). -/
def execRouterForward (n : Nat) (s : State) : Out :=
  match tabFind s.travels n with
  | none => .next s
  | some t =>
    let f := t.flit
    if (t.tile ≠ f.src ∨ f.src = f.dst) ∧ t.since ≤ s.cycle ∧ reservedSideband (sideband f) then
      .next (flitFault (leaveSendQueue { s with travels := tabDel s.travels n } f) t.tile 4 f)
    else if !canLeave s n t || !mayUse s n t then .next (s.after 1 (.routerForward n))
    else
      let s := useOutput (if t.tile = f.src ∧ t.input = 0 then leaveSendQueue s f else s) t
      let next := t.next s
      if next = t.tile then .next (s.event (.meshFlitArrival n t.error))
      else
        .next ({ s with travels := tabPut s.travels n { t with tile := next, input := linkTo next t.tile, since := s.cycle + 2 } }.after
          2 (.routerForward n))

/-! ### Arrival (R123) -/

/-- Bank group of a store offset: a[7:5] (R74, R127). -/
def unitOf (off : Nat) : Nat := off / 32 % 8

/-- The (source, VC) pairs that a unit's filter holds once its window is applied (R127). -/
def filterKeys (u : ScatterUnit) : List (Nat × Nat) :=
  ((u.filter.map (fun e => (e.1, e.2.1))) ++ (u.window.map (fun t => (t.src, t.vc)))).eraseDups

/-- Room for a reduction token at its unit: a window of 64, and a filter of 256 entries (R127). -/
def unitHasRoom (x : Tile) (off src vc : Nat) : Bool :=
  let u := x.mem.units[unitOf off]'(Nat.mod_lt _ (by decide))
  decide (u.window.length < 64) && (decide ((filterKeys u).length < 256) || (filterKeys u).contains (src, vc))

/-- A reduction token takes its place in a unit's window. -/
def pushToken (s : State) (tile : Nat) (t : RedToken) : State :=
  let u := unitOf t.off
  let x := s.tile tile
  have h : u < 8 := Nat.mod_lt _ (by decide)
  let v := x.mem.units[u]
  (s.setTile tile { x with mem := { x.mem with units := x.mem.units.set u { v with window := v.window ++ [t] } h } }).event
    (.scatterReduceApply tile u)

/-- A token of an arc arrives in the buffer at the consumer's tile: received once (R47, R306). -/
def arcArrive (s : State) (tile arc : Nat) (v : Word32) : State :=
  match (s.tile tile).place with
  | none => s
  | some pl =>
    let l := s.launch pl.pid pl.lnum
    let a := tabGet ArcState.reset l.arcs arc
    let l := { l with arcs := tabPut l.arcs arc { a with received := a.received + 1, buffer := a.buffer ++ [v] } }
    (s.setLaunch pl.pid pl.lnum l).modTile tile (fun x => { x with received := x.received + 1 })

/-- The filter entries of a source are freed as its drain token passes (R127). -/
def freeFilters (x : Tile) (src : Nat) : Tile :=
  { x with mem := { x.mem with units := x.mem.units.map (fun u => { u with filter := u.filter.filter (fun e => e.1 != src) }) } }

/-- Tokens that a cut router keeps in the tile's edge buffer; writes and reductions are performed (R371). -/
def isToken (b : MeshBody) : Bool :=
  match b with
  | .message _ _ | .tree _ _ _ | .exponent _ _ | .token _ _ | .piece _ _ _ _ _ _ => true
  | _ => false

/-- An accepted flit reaches the unit that its TYPE names (Table 05-5); after a tile's cut a token is saved (R371). -/
def acceptFlit (s : State) (f : MeshFlit) : State :=
  match f.body with
  | .picot =>
    match (s.tile f.dst).place with
    | none => s
    | some pl => s.event (.picotArrival pl.pid pl.lnum (.router f.dst) f.src)
  | _ =>
    if isToken f.body && elementIsCut s f.dst (.router f.dst) then s.modTile f.dst (fun x => { x with edge := x.edge ++ [f] })
    else
      match f.body with
      | .message _ _ => s.event (.messageDelivery f.dst f)
      | .write _ _ _ | .bytes _ _ _ => s.event (.remoteWrite f.dst f)
      | .reduction off o v => pushToken s f.dst ⟨off, o, 1, v.zeroExtend 64, f.src, f.vc, f.seq, 1, f.owner⟩
      | .tree _ _ _ | .exponent _ _ => s.event (.treeNodeCombine f.dst f)
      | .token arc d => arcArrive s f.dst arc (d.truncate 32)
      | .piece n c j r k d => s.modTile f.dst (fun x => { x with core := { x.core with pieces := x.core.pieces ++ [⟨n, c, j, r, k, d, true⟩] } })
      | .drain c => (s.modTile f.dst (fun x => freeFilters x f.src)).event (.drainToken f.dst c)
      | _ => s

/-- A flit of the request class is held while a unit's window is full, and a reduction also while its source finds the unit's
filter full (R127). -/
def heldAtUnit (s : State) (f : MeshFlit) : Bool :=
  let x := s.tile f.dst
  match f.body with
  | .reduction off _ _ => !unitHasRoom x off f.src f.vc
  | .reply _ => false
  | _ => x.mem.units.any (fun u => decide (64 ≤ u.window.length))

/-- The worse of two findings of SECDED. -/
def worse (a b : Secded) : Secded :=
  match a, b with
  | .uncorrectable, _ | _, .uncorrectable => .uncorrectable
  | .corrected, _ | _, .corrected => .corrected
  | _, _ => .clean

/-- A corrected error is counted (R123). -/
def countCorrected (s : State) (tile : Nat) (e : Secded) : State :=
  if e = .corrected then s.modTile tile (fun x => { x with ctl := { x.ctl with corrected := x.ctl.corrected + 1 } }) else s

/-- MESH_FLIT_ARRIVAL: at its destination a flit is accepted in SEQ order and acknowledged over the way back (R122); an
uncorrectable one is discarded and replayed, a corrected one counted (R123); a flit that a unit holds waits at the router
(R127). An error that a flit picks up on its way stays with it. -/
def execMeshFlitArrival (n : Nat) (check : Secded) (s : State) : Out :=
  match tabFind s.travels n with
  | none => .next s
  | some t =>
    let f := t.flit
    let e := worse check t.error
    let k := tripleKey f.src f.dst f.vc
    let r := s.triple k
    if t.tile ≠ f.dst ∨ s.cycle < t.since + 2 then .next { s with travels := tabPut s.travels n { t with error := e } }
    else if e ≠ .uncorrectable ∧ f.seq = r.expected ∧ heldAtUnit s f then
      .next ({ s with travels := tabPut s.travels n { t with error := e } }.after 1 (.routerForward n))
    else
      let gone := countCorrected { s with travels := tabDel s.travels n } f.dst e
      if e = .uncorrectable then .next (gone.after (4 + 2 * hops f.src f.dst) (.meshReplay f.src f.dst f.vc f.seq))
      else if f.seq = r.expected then
        .next ((acceptFlit (gone.setTriple k { r with expected := r.expected + 1 }) f).after (4 + 2 * hops f.src f.dst)
          (.meshAcknowledgement f.src f.dst f.vc f.seq))
      else .next gone

/-- MESH_REPLAY: the flit and every later one of its triple are sent again (R123). -/
def execMeshReplay (src dst vc seq : Nat) (s : State) : Out :=
  .next (((s.triple (tripleKey src dst vc)).replay.filter (fun f => decide (seq ≤ f.seq))).foldl inject s)

/-- MESH_ACKNOWLEDGEMENT: the source frees the flit (R123). -/
def execMeshAcknowledgement (src dst vc seq : Nat) (s : State) : Out :=
  let k := tripleKey src dst vc
  let r := s.triple k
  .next (s.setTriple k { r with replay := r.replay.filter (fun f => f.seq != seq) })

/-! ### Messages and remote writes at their destination (R77, R97, R208 to R210) -/

/-- A flit of the triple waits at the router, so later ones of it wait behind it (R97). -/
def tripleHeld (x : Tile) (src vc : Nat) : Bool :=
  x.core.heldMsgs.any (fun f => f.src == src && f.vc == vc) ||
    x.store.held.any (fun e => match e.kind with | .remote _ v r _ => v == vc && r == src | _ => false)

/-- Messages and remote writes that have reached a tile's router and are not delivered yet. -/
def waitingFlits (s : State) (t : Nat) : List MeshFlit :=
  (s.agenda ++ s.timers.map (·.2)).filterMap (fun w =>
    match w with
    | .event (.remoteWrite k f) | .event (.messageDelivery k f) => if k = t then some f else none
    | _ => none)

/-- A delivery waits behind a held flit of its triple, and behind an earlier one that is not delivered yet (R97). -/
def waitsBehind (s : State) (tile : Nat) (f : MeshFlit) : Bool :=
  tripleHeld (s.tile tile) f.src f.vc ||
    (waitingFlits s tile).any (fun g => g.src == f.src && g.vc == f.vc && decide (g.seq < f.seq))

/-- MESSAGE_DELIVERY: the receive queue of 32 takes the payload in its triple's order, or the router holds the message (R97,
R208). -/
def execMessageDelivery (tile : Nat) (f : MeshFlit) (s : State) : Out :=
  match f.body with
  | .message q v =>
    let x := s.tile tile
    if waitsBehind s tile f then .next (s.after 1 (.messageDelivery tile f))
    else if (recvQueue x q).length < 32 ∧ !x.core.heldMsgs.any (messageFor q) then
      .next (enqueueMessage s tile q v f.vc f.src f.owner)
    else .next (s.setTile tile { x with core := { x.core with heldMsgs := x.core.heldMsgs ++ [f] } })
  | _ => .next s

/-- A delivered message or SENDP counts as one token received; other remote writes are no tokens (R47, R210). -/
def countReceived (s : State) (tile : Nat) (f : MeshFlit) : State :=
  if f.owner < 8 ∨ (40 ≤ f.owner ∧ f.owner < 48) then
    arcReceives (s.modTile tile (fun x => { x with received := x.received + 1 })) tile f.vc (fun _ => 1)
  else s

/-- REMOTE_WRITE: a plain write, STF or STEF at the destination bank (R77, R209); a gated bank is woken first (R79). -/
def execRemoteWrite (tile : Nat) (f : MeshFlit) (s : State) : Out :=
  let again (s : State) : Out := .next (s.after 1 (.remoteWrite tile f))
  match f.body with
  | .bytes off bs full =>
    if waitsBehind s tile f then again s
    else
      match heldIn (s.tile tile) off bs.length with
      | some b => again (wakeBank s tile b)
      | none =>
        let s := (reachBanks s tile off bs.length).modTile tile (fun x => storeWrite x off bs)
        let s := if f.owner = 255 then arcReceives s tile f.vc (tokensIn off bs.length) else s
        .next (ownerDone (if full then changeBit s tile (off / 8) true else s) f.src f.owner)
  | .write off v kind =>
    if waitsBehind s tile f then again s
    else if bankHeld (s.tile tile) (bankOf off) then again (wakeBank s tile (bankOf off))
    else
      let s := reachBanks s tile off 8
      let x := s.tile tile
      if kind = 0 then
        .next (ownerDone (countReceived (s.setTile tile (storePut x off 8 v.toNat)) tile f) f.src f.owner)
      else if kind = 1 then
        .next (ownerDone (countReceived (performStf s tile (off / 8) v) tile f) f.src f.owner)
      else if isFull x (off / 8) then
        let e : Waiter := ⟨off / 8, .remote v f.vc f.src f.owner⟩
        if remoteEntries x (off / 8 % 32) < 8 then
          .next (countReceived (s.setTile tile { x with store := { x.store with waiters := x.store.waiters ++ [e] } }) tile f)
        else .next (s.setTile tile { x with store := { x.store with held := x.store.held ++ [e] } })
      else .next (ownerDone (countReceived (performStf s tile (off / 8) v) tile f) f.src f.owner)
  | _ => .next s

/-! ### Scatter-reduce units (R126, R127) -/

/-- Operation and width in bytes of a token: 4 for W = 1 and for the FP operations (R201). -/
def redBytes (o : BitVec 4) (w : BitVec 1) : Nat := if w = 1 ∨ 9 ≤ o.toNat then 4 else 8

/-- A RED of a thread is acknowledged with its flags (R104, R203). -/
def redDone (s : State) (tile t : Nat) (flags : BitVec 5) : State :=
  let h := s.thread tile t
  s.setThread tile t { h with redOut := h.redOut - 1, redFlags := h.redFlags ||| flags }

/-- The flags of a region's reduction go to its flag word (R68). -/
def regionFlags (s : State) (tile number : Nat) (flags : BitVec 5) : State :=
  match (s.tile tile).place with
  | none => s
  | some pl =>
    { s with regions := s.regions.map (fun (k, r) =>
        (k, if r.number = number ∧ r.pid = pl.pid ∧ r.lnum = pl.lnum then { r with flags := r.flags ||| flags } else r)) }

/-- A token is finished: its source is acknowledged. -/
def tokenDone (s : State) (t : RedToken) (flags : BitVec 5) : State :=
  if t.ctxKind = 0 then redDone s t.src t.ctx flags else regionFlags s t.src t.ctx flags

/-- FN of a token's fault: the fn byte of RED, or OP | 0x80 of a PRED binding (Table 17-4). -/
def tokenFn (t : RedToken) : Nat := if t.ctxKind = 1 then 0x80 + t.op.toNat else 16 * t.w.toNat + t.op.toNat

/-- SCATTER_REDUCE_APPLY: the oldest token is applied to its word once, by the filter of its (source, VC); a fault at the
store goes to the context's log (R126, R127, R366). -/
def execScatterReduceApply (tile unit : Nat) (s : State) : Out :=
  let x := s.tile tile
  if h : unit < 8 then
    let u := x.mem.units[unit]
    match u.window with
    | [] => .next s
    | t :: r =>
      let n := redBytes t.op t.w
      if t.off + n ≤ Config.storeSize ∧ bankHeld x (bankOf t.off) then
        .next ((wakeBank s tile (bankOf t.off)).after (wakeCycles tile + 1) (.scatterReduceApply tile unit))
      else if lost s (inStore tile t.off n) then .next (strikeTile s tile 1)
      else
        let seen := (u.filter.find? (fun e => e.1 == t.src && e.2.1 == t.vc)).map (fun e => e.2.2)
        let rest := u.filter.filter (fun e => !(e.1 == t.src && e.2.1 == t.vc))
        let old := match seen with | some q => decide (t.seq ≤ q) | none => false
        let s := s.setTile tile { x with mem := { x.mem with
          units := x.mem.units.set unit ⟨r, if old then u.filter else rest ++ [(t.src, t.vc, t.seq)]⟩ h } }
        let fails (cause : Nat) : Out :=
          .next (tokenDone (reductionFault s t.src 1 t.ctxKind t.ctx t.off t.operand.toNat (tokenFn t) cause t.seq) t 0)
        if old then .next s
        else if t.off % n ≠ 0 then fails 0x03
        else if t.off + n > Config.storeSize then fails 0x06
        else
          let v := atomOpResult t.op n (storeLoad x t.off n) (t.operand.toNat % 2 ^ (8 * n))
          .next (tokenDone ((reachBanks s tile t.off n).modTile tile (fun x => storePut x t.off n v.1)) t v.2)
  else .next s

/-! ### Drain tokens (R103) -/

/-- DRAIN_TOKEN: an input channel has passed its drain token (R103). -/
def execDrainToken (tile channel : Nat) (s : State) : Out :=
  let x := s.tile tile
  let s := s.setTile tile { x with drains := setErase x.drains channel }
  match x.place with
  | none => .next s
  | some pl =>
    let l := s.launch pl.pid pl.lnum
    let a := tabGet ArcState.reset l.arcs channel
    .next (s.setLaunch pl.pid pl.lnum { l with arcs := tabPut l.arcs channel { a with drained := true } })

end Sys2Proof.Machine
end

