-- ==== Sys2Proof/Machine/Fabric.lean ====
section
/-! DEFINITION. What a PE does in a cycle: sources, the ops and the route word of its slot, and the end of the cycle
(spec 06 R150 to R154, 10 R257 to R281, 02 R39 to R41, 13 R306). -/

namespace Sys2Proof.Machine

/-! ### Where a PE stands (R21, R40) -/

/-- The PE that a port faces, by absolute fabric coordinate 512 Y + X; none at the module's edge (R21). -/
def facing (k : Nat) (p : Port) : Option Nat :=
  let x := k % 512
  let y := k / 512
  match p with
  | .n => if y = 0 then none else some (k - 512)
  | .s => if y ≥ 511 then none else some (k + 512)
  | .w => if x = 0 then none else some (k - 1)
  | .e => if x ≥ 511 then none else some (k + 1)
  | .v | .m => none

/-- The port of the neighbour that faces back. -/
def opposite (p : Port) : Port :=
  match p with
  | .n => .s
  | .s => .n
  | .e => .w
  | .w => .e
  | .v => .v
  | .m => .m

/-- The tile of a PE (R21). -/
def peTile (k : Nat) : Nat := 64 * (k / 512 / 8) + k % 512 / 8
/-- The PE's number 8j + i within its tile (Table 09-2). -/
def peLocal (k : Nat) : Nat := 8 * (k / 512 % 8) + k % 8

/-- Absolute fabric coordinate of a placement-relative one, 512 Y + X each. -/
def fabricAt (r : Region) (rel : Nat) : Nat := 512 * (r.fy + rel / 512) + r.fx + rel % 512
/-- Placement-relative coordinate of a PE. -/
def relativeAt (r : Region) (k : Nat) : Nat := 512 * (k / 512 - r.fy) + (k % 512 - r.fx)

/-- The PEs of a region in increasing Y, then X (R22). -/
def regionPes (r : Region) : List Nat :=
  (List.range r.h).flatMap (fun j => (List.range r.w).map (fun i => 512 * (r.fy + r.y + j) + r.fx + r.x + i))

def inRegion (r : Region) (k : Nat) : Bool :=
  decide (r.fx + r.x ≤ k % 512) && decide (k % 512 < r.fx + r.x + r.w) && decide (r.fy + r.y ≤ k / 512) &&
    decide (k / 512 < r.fy + r.y + r.h)

/-- The two PEs of an arc are neighbours across the named ports (R306). -/
def adjacentArc (a : ArcImage) : Bool :=
  match a.fromPort, a.toPort with
  | some (f, p), some (t, q) => facing f p == some t && q == opposite p
  | _, _ => false

/-- The PE of a placement that an arc's end names. -/
def placedPe (o : Nat × Nat) (rel : Nat) : Nat := 512 * (8 * o.2 + rel / 512) + 8 * o.1 + rel % 512

/-- The arc that leaves, or enters, the region at a port of a PE (R306). -/
def arcOut (s : State) (r : Region) (k : Nat) (p : Port) : Option (Nat × ArcImage) :=
  (launchArcs s r.pid r.lnum).find? (fun (_, a) => !a.memoryOrder && a.fromPort == some (relativeAt r k, p))
def arcIn (s : State) (r : Region) (k : Nat) (p : Port) : Option (Nat × ArcImage) :=
  (launchArcs s r.pid r.lnum).find? (fun (_, a) => !a.memoryOrder && a.toPort == some (relativeAt r k, p))

/-- The latch of a port that is synchronised: V, M, and those that face out of the region (R40). -/
def synchronised (r : Region) (k : Nat) (p : Port) : Bool :=
  match p with
  | .v | .m => true
  | _ => match facing k p with | none => true | some n => !inRegion r n

/-! ### Latches (R40, R274) -/

def PE.latch (x : PE) (p : Port) : Latch :=
  match p with
  | .n => x.n
  | .e => x.e
  | .s => x.s
  | .w => x.w
  | .m => x.m
  | .v => ⟨x.replies.headD 0, !x.replies.isEmpty⟩

/-- A latch written; the V latch is the head of the reply queue, to which a value is added (R274). -/
def PE.setLatch (x : PE) (p : Port) (l : Latch) : PE :=
  match p with
  | .n => { x with n := l }
  | .e => { x with e := l }
  | .s => { x with s := l }
  | .w => { x with w := l }
  | .m => { x with m := l }
  | .v => if l.full then { x with replies := x.replies ++ [l.value] } else { x with replies := x.replies.tail }

/-- A synchronised latch is consumed (R40). -/
def PE.consume (x : PE) (p : Port) : PE := x.setLatch p { x.latch p with full := false }

/-! ### Sources (R150, R151, R154) -/

/-- The forms that an immediate takes (R151). -/
inductive ImmForm where
  | int | fp | pair | low
  deriving DecidableEq, Repr

def immValue (f : ImmForm) (i : BitVec 12) : Word32 :=
  match f with
  | .int => i.signExtend 32
  | .fp => i.zeroExtend 32 <<< 20
  | .pair => i.zeroExtend 32 <<< 20 ||| i.zeroExtend 32 <<< 4
  | .low => i.zeroExtend 32 <<< 4

/-- The latch that a source code names (Table 06-11). -/
def srcPort (c : BitVec 5) : Option Port :=
  match c.toNat with
  | 24 => some .n
  | 25 => some .e
  | 26 => some .s
  | 27 => some .w
  | 28 => some .v
  | 29 => some .m
  | _ => none

/-- Physical register of kn under a rotating base (R39). -/
def physical (base : BitVec 4) (n : BitVec 4) : BitVec 4 := n + base

/-- The PE and region whose word is being performed. -/
def State.curPe (s : State) : PE := s.pe s.cur.pe
def State.curRegion (s : State) : Region := s.region s.cur.region
def State.setCurPe (s : State) (x : PE) : State := s.setPe s.cur.pe x

/-- IMM12 and SRCC of the slot's register-address word (R154). -/
def curImm (s : State) : BitVec 12 := s.cur.ra.truncate 12
def curSrcC (s : State) : BitVec 4 := s.cur.ra.extractLsb' 12 4

def kRead (s : State) (n : BitVec 4) : Word32 := s.curPe.k[(physical s.curRegion.rbase n).toNat]'(BitVec.isLt _)
def cRead (s : State) (n : BitVec 3) : Word32 := s.curPe.c[n.toNat]'n.isLt

/-- The value of a source code (Table 06-11). -/
def srcValue (f : ImmForm) (c : BitVec 5) (s : State) : Word32 :=
  if c.toNat < 16 then kRead s (c.truncate 4)
  else if c.toNat < 24 then cRead s (c.truncate 3)
  else match srcPort c with
    | some p => (s.curPe.latch p).value
    | none => if c = 30 then immValue f (curImm s) else 0

/-- SRCC: codes 0 to 7 name k0 to k7, codes 8 to 15 c0 to c7 (R154). -/
def srcC (s : State) : Word32 :=
  let c := curSrcC s
  if c.toNat < 8 then kRead s c else cRead s (c.truncate 3)

/-- The latches that source codes read are noted for the end of the cycle (R40). -/
def noteReads (s : State) (cs : List (BitVec 5)) : State :=
  s.setCurPe { s.curPe with reads := s.curPe.reads ++ cs.filterMap srcPort }

/-! ### Firing (R38, R257 to R259) -/

/-- An op of a stage fires while its stage bit is set (R38). -/
def fires (st : BitVec 3) (s : State) : Bool := s.curRegion.sv.getLsbD st.toNat

/-- A result starts on its way: it lands `lat − 1` unfrozen cycles later, in the register that DST names now (R258, R259). -/
def pushResult (s : State) (d : BitVec 4) (w : BitVec 1) (lat : Nat) (v : Word32) (fl : Flags) : State :=
  let x := s.curPe
  s.setCurPe { x with inflight := x.inflight ++ [⟨lat - 1, physical s.curRegion.rbase d, w == 1, v, fl⟩] }

/-- An op that reads sources and lands a result. -/
def fireOp (st : BitVec 3) (srcs : List (BitVec 5)) (d : BitVec 4) (w : BitVec 1) (lat : Nat) (f : State → Rounded)
    (s : State) : Out :=
  .next (if fires st s then
    let v := f s
    pushResult (noteReads s srcs) d w lat (BitVec.ofNat 32 v.1) v.2
  else s)

/-- An op on A, on A and B, or on A, B and C; patterns as numbers. -/
def op1 (st : BitVec 3) (a : BitVec 5) (d : BitVec 4) (w : BitVec 1) (form : ImmForm) (lat : Nat) (f : Nat → Rounded)
    (s : State) : Out :=
  fireOp st [a] d w lat (fun s => f (srcValue form a s).toNat) s
def op2 (st : BitVec 3) (a b : BitVec 5) (d : BitVec 4) (w : BitVec 1) (fa fb : ImmForm) (lat : Nat)
    (f : Nat → Nat → Rounded) (s : State) : Out :=
  fireOp st [a, b] d w lat (fun s => f (srcValue fa a s).toNat (srcValue fb b s).toNat) s
def op3 (st : BitVec 3) (a b : BitVec 5) (d : BitVec 4) (w : BitVec 1) (form : ImmForm) (lat : Nat)
    (f : Nat → Nat → Nat → Rounded) (s : State) : Out :=
  fireOp st [a, b] d w lat (fun s => f (srcValue form a s).toNat (srcValue form b s).toNat (srcC s).toNat) s

/-- A result of 32 bits without flags. -/
def plain (v : Word32) : Rounded := (v.toNat, 0)
/-- An op on bit patterns that sets no flag. -/
def bits1 (f : Word32 → Word32) (a : Nat) : Rounded := plain (f (BitVec.ofNat 32 a))
def bits2 (f : Word32 → Word32 → Word32) (a b : Nat) : Rounded := plain (f (BitVec.ofNat 32 a) (BitVec.ofNat 32 b))
def bits3 (f : Word32 → Word32 → Word32 → Word32) (a b c : Nat) : Rounded :=
  plain (f (BitVec.ofNat 32 a) (BitVec.ofNat 32 b) (BitVec.ofNat 32 c))

/-- Two BF16 lanes; the flags are ORed (R263, R267). -/
def lanes2 (f : Nat → Nat → Rounded) (a b : Nat) : Rounded :=
  let l := f (a % 2 ^ 16) (b % 2 ^ 16)
  let h := f (a / 2 ^ 16) (b / 2 ^ 16)
  (l.1 + 2 ^ 16 * h.1, l.2 ||| h.2)
def lanes3 (f : Nat → Nat → Nat → Rounded) (a b c : Nat) : Rounded :=
  let l := f (a % 2 ^ 16) (b % 2 ^ 16) (c % 2 ^ 16)
  let h := f (a / 2 ^ 16) (b / 2 ^ 16) (c / 2 ^ 16)
  (l.1 + 2 ^ 16 * h.1, l.2 ||| h.2)

/-! ### The ops (R264 to R271) -/

/-- NOP fires nothing and lands nothing (R264). -/
def execNop (_ : BitVec 3) (_ : BitVec 4) (s : State) : Out := .next s
def execMov (st : BitVec 3) (a : BitVec 5) (d : BitVec 4) (w : BitVec 1) (s : State) : Out :=
  op1 st a d w .int 1 (bits1 (fun x => x)) s
/-- SELP: A if C is not 0, else B (R264). -/
def execSelp (st : BitVec 3) (a b : BitVec 5) (d : BitVec 4) (w : BitVec 1) (s : State) : Out :=
  op3 st a b d w .int 1 (bits3 (fun x y c => if c ≠ 0 then x else y)) s

def execFadd (st : BitVec 3) (a b : BitVec 5) (d : BitVec 4) (w : BitVec 1) (s : State) : Out :=
  op2 st a b d w .fp .fp 4 (fpAdd fp32) s
def execFsub (st : BitVec 3) (a b : BitVec 5) (d : BitVec 4) (w : BitVec 1) (s : State) : Out :=
  op2 st a b d w .fp .fp 4 (fpSub fp32) s
def execFmul (st : BitVec 3) (a b : BitVec 5) (d : BitVec 4) (w : BitVec 1) (s : State) : Out :=
  op2 st a b d w .fp .fp 4 (fpMul fp32) s
def execFfma (st : BitVec 3) (a b : BitVec 5) (d : BitVec 4) (w : BitVec 1) (s : State) : Out :=
  op3 st a b d w .fp 4 (fpFma fp32) s
def execFmin (st : BitVec 3) (a b : BitVec 5) (d : BitVec 4) (w : BitVec 1) (s : State) : Out :=
  op2 st a b d w .fp .fp 1 (fpMinMax fp32 false) s
def execFmax (st : BitVec 3) (a b : BitVec 5) (d : BitVec 4) (w : BitVec 1) (s : State) : Out :=
  op2 st a b d w .fp .fp 1 (fpMinMax fp32 true) s
def execFabs (st : BitVec 3) (a : BitVec 5) (d : BitVec 4) (w : BitVec 1) (s : State) : Out :=
  op1 st a d w .fp 1 (bits1 (fun x => x &&& 0x7FFFFFFF#32)) s
def execFneg (st : BitVec 3) (a : BitVec 5) (d : BitVec 4) (w : BitVec 1) (s : State) : Out :=
  op1 st a d w .fp 1 (bits1 (fun x => x ^^^ 0x80000000#32)) s
def execFcmplt (st : BitVec 3) (a b : BitVec 5) (d : BitVec 4) (w : BitVec 1) (s : State) : Out :=
  op2 st a b d w .fp .fp 1 (fpLt fp32) s
def execFcmpeq (st : BitVec 3) (a b : BitVec 5) (d : BitVec 4) (w : BitVec 1) (s : State) : Out :=
  op2 st a b d w .fp .fp 1 (fpEq fp32) s

def execHadd2 (st : BitVec 3) (a b : BitVec 5) (d : BitVec 4) (w : BitVec 1) (s : State) : Out :=
  op2 st a b d w .pair .pair 4 (lanes2 (fpAdd bf16)) s
def execHmul2 (st : BitVec 3) (a b : BitVec 5) (d : BitVec 4) (w : BitVec 1) (s : State) : Out :=
  op2 st a b d w .pair .pair 4 (lanes2 (fpMul bf16)) s
def execHfma2 (st : BitVec 3) (a b : BitVec 5) (d : BitVec 4) (w : BitVec 1) (s : State) : Out :=
  op3 st a b d w .pair 4 (lanes3 (fpFma bf16)) s
def execHmax2 (st : BitVec 3) (a b : BitVec 5) (d : BitVec 4) (w : BitVec 1) (s : State) : Out :=
  op2 st a b d w .pair .pair 1 (lanes2 (fpMinMax bf16 true)) s

/-- An integer op on A and B with the given latency (R268). -/
def intOp (st : BitVec 3) (a b : BitVec 5) (d : BitVec 4) (w : BitVec 1) (lat : Nat) (f : Word32 → Word32 → Word32)
    (s : State) : Out := op2 st a b d w .int .int lat (bits2 f) s

def execIadd (st : BitVec 3) (a b : BitVec 5) (d : BitVec 4) (w : BitVec 1) (s : State) : Out :=
  intOp st a b d w 1 (fun x y => x + y) s
def execIsub (st : BitVec 3) (a b : BitVec 5) (d : BitVec 4) (w : BitVec 1) (s : State) : Out :=
  intOp st a b d w 1 (fun x y => x - y) s
def execImul (st : BitVec 3) (a b : BitVec 5) (d : BitVec 4) (w : BitVec 1) (s : State) : Out :=
  intOp st a b d w 2 (fun x y => x * y) s
def execImad (st : BitVec 3) (a b : BitVec 5) (d : BitVec 4) (w : BitVec 1) (s : State) : Out :=
  op3 st a b d w .int 2 (bits3 (fun x y z => x * y + z)) s
def execIand (st : BitVec 3) (a b : BitVec 5) (d : BitVec 4) (w : BitVec 1) (s : State) : Out :=
  intOp st a b d w 1 (fun x y => x &&& y) s
def execIor (st : BitVec 3) (a b : BitVec 5) (d : BitVec 4) (w : BitVec 1) (s : State) : Out :=
  intOp st a b d w 1 (fun x y => x ||| y) s
def execIxor (st : BitVec 3) (a b : BitVec 5) (d : BitVec 4) (w : BitVec 1) (s : State) : Out :=
  intOp st a b d w 1 (fun x y => x ^^^ y) s
def execIshl (st : BitVec 3) (a b : BitVec 5) (d : BitVec 4) (w : BitVec 1) (s : State) : Out :=
  intOp st a b d w 1 (fun x y => x <<< (y.toNat % 32)) s
def execIshr (st : BitVec 3) (a b : BitVec 5) (d : BitVec 4) (w : BitVec 1) (s : State) : Out :=
  intOp st a b d w 1 (fun x y => x >>> (y.toNat % 32)) s
def execIsar (st : BitVec 3) (a b : BitVec 5) (d : BitVec 4) (w : BitVec 1) (s : State) : Out :=
  intOp st a b d w 1 (fun x y => x.sshiftRight (y.toNat % 32)) s
def execImin (st : BitVec 3) (a b : BitVec 5) (d : BitVec 4) (w : BitVec 1) (s : State) : Out :=
  intOp st a b d w 1 (fun x y => if x.slt y then x else y) s
def execImax (st : BitVec 3) (a b : BitVec 5) (d : BitVec 4) (w : BitVec 1) (s : State) : Out :=
  intOp st a b d w 1 (fun x y => if x.slt y then y else x) s
def execIcmplt (st : BitVec 3) (a b : BitVec 5) (d : BitVec 4) (w : BitVec 1) (s : State) : Out :=
  intOp st a b d w 1 (fun x y => if x.slt y then 1 else 0) s
def execIcmpeq (st : BitVec 3) (a b : BitVec 5) (d : BitVec 4) (w : BitVec 1) (s : State) : Out :=
  intOp st a b d w 1 (fun x y => if x = y then 1 else 0) s

def execCvtif (st : BitVec 3) (a : BitVec 5) (d : BitVec 4) (w : BitVec 1) (s : State) : Out :=
  op1 st a d w .int 2 (fun x => intToFp32 (BitVec.ofNat 32 x).toInt) s
def execCvtfi (st : BitVec 3) (a : BitVec 5) (d : BitVec 4) (w : BitVec 1) (s : State) : Out :=
  op1 st a d w .fp 2 fp32ToInt s
def execCvtbf (st : BitVec 3) (a : BitVec 5) (d : BitVec 4) (w : BitVec 1) (s : State) : Out :=
  op1 st a d w .fp 2 (fp32Narrow bf16) s
def execCvtbfs (st : BitVec 3) (a b : BitVec 5) (d : BitVec 4) (w : BitVec 1) (s : State) : Out :=
  op2 st a b d w .fp .int 2 fp32ToBf16Stochastic s
def execCvte4 (st : BitVec 3) (a : BitVec 5) (d : BitVec 4) (w : BitVec 1) (s : State) : Out :=
  op1 st a d w .fp 2 fp32ToE4m3 s
def execCvte5 (st : BitVec 3) (a : BitVec 5) (d : BitVec 4) (w : BitVec 1) (s : State) : Out :=
  op1 st a d w .fp 2 (fp32Narrow e5m2) s
def execCvte4s (st : BitVec 3) (a b : BitVec 5) (d : BitVec 4) (w : BitVec 1) (s : State) : Out :=
  op2 st a b d w .fp .int 2 fp32ToE4m3Stochastic s
/-- PACK2: B[15:0] above A[15:0] (R269). -/
def execPack2 (st : BitVec 3) (a b : BitVec 5) (d : BitVec 4) (w : BitVec 1) (s : State) : Out :=
  op2 st a b d w .int .int 1 (bits2 (fun x y => y <<< 16 ||| x &&& 0xFFFF#32)) s
def execUnpk (st : BitVec 3) (a : BitVec 5) (d : BitVec 4) (w : BitVec 1) (s : State) : Out :=
  op1 st a d w .low 1 (fun x => bf16ToFp32 (x % 2 ^ 16)) s

def execFrcp (st : BitVec 3) (a : BitVec 5) (d : BitVec 4) (w : BitVec 1) (s : State) : Out := op1 st a d w .fp 5 fpRcp s
def execFrsq (st : BitVec 3) (a : BitVec 5) (d : BitVec 4) (w : BitVec 1) (s : State) : Out := op1 st a d w .fp 5 fpRsq s
def execFexp2 (st : BitVec 3) (a : BitVec 5) (d : BitVec 4) (w : BitVec 1) (s : State) : Out := op1 st a d w .fp 5 fpExp2 s
def execFlog2 (st : BitVec 3) (a : BitVec 5) (d : BitVec 4) (w : BitVec 1) (s : State) : Out := op1 st a d w .fp 5 fpLog2 s
/-- PRND: KCG of the counter A and the key B (R271). -/
def execPrnd (st : BitVec 3) (a b : BitVec 5) (d : BitVec 4) (w : BitVec 1) (s : State) : Out :=
  op2 st a b d w .int .int 3 (bits2 kcg) s

/-! ### Joins (R280, R281) -/

/-- Table 10-7: whether A and B are consumed, and the result; `union` for JNU. -/
def joinCase (union : Bool) (a b : Word32) : Bool × Bool × Word32 :=
  let ca := a >>> 16
  let cb := b >>> 16
  let va := a &&& 0xFFFF#32
  let vb := b &&& 0xFFFF#32
  if ca = cb then (true, true, if ca = 0xFFFF#32 then 0x80008000#32 else vb <<< 16 ||| va)
  else if ca.ult cb then (true, false, if union then va else 0)
  else (false, true, if union then vb <<< 16 else 0)

/-- The latch that the case does not consume keeps its value and full bit (R281). -/
def joinKeeps (union : Bool) (a b : BitVec 5) (x y : Word32) : List Port :=
  match joinCase union x y with
  | (ka, kb, _) => (if ka then [] else (srcPort a).toList) ++ (if kb then [] else (srcPort b).toList)

def joinOp (union : Bool) (st : BitVec 3) (a b : BitVec 5) (d : BitVec 4) (w : BitVec 1) (s : State) : Out :=
  .next (if fires st s then
    let x := srcValue .int a s
    let y := srcValue .int b s
    let s := noteReads s [a, b]
    let s := s.setCurPe { s.curPe with keeps := s.curPe.keeps ++ joinKeeps union a b x y }
    pushResult s d w 1 (joinCase union x y).2.2 0
  else s)

def execJnx (st : BitVec 3) (a b : BitVec 5) (d : BitVec 4) (w : BitVec 1) (s : State) : Out := joinOp false st a b d w s
def execJnu (st : BitVec 3) (a b : BitVec 5) (d : BitVec 4) (w : BitVec 1) (s : State) : Out := joinOp true st a b d w s

/-! ### PLD, PST and PRED (R272 to R279) -/

def chainChn (w : Word32) : Nat := w.toNat % 64
def chainOwn (w : Word32) : Nat := w.toNat / 2 ^ 6 % 256
def chainPred (w : Word32) : Nat := w.toNat / 2 ^ 14 % 256
def chainSucc (w : Word32) : Nat := w.toNat / 2 ^ 22 % 256
def chainFem (w : Word32) : BitVec 2 := w.extractLsb' 30 2

/-- The chain table entry of a tile (Table 10-5). -/
def chainEntry (x : Tile) (n : Nat) : Word32 := tabGet 0 x.mem.chainTable n

/-- The word that stands at a slot in a ring of 32 entries (R36). -/
def ringEntry (g : Ring) (slot : Nat) : Nat := (g.start + slot % g.length) % 32
def opAt (x : PE) (slot : Nat) : BitVec 24 := x.ops[ringEntry x.opRing slot]'(Nat.mod_lt _ (by decide))
def routeAt (x : PE) (slot : Nat) : BitVec 16 := x.routes[ringEntry x.routeRing slot]'(Nat.mod_lt _ (by decide))
def raAt (x : PE) (slot : Nat) : BitVec 16 := x.ras[ringEntry x.raRing slot]'(Nat.mod_lt _ (by decide))

/-- Fields of an op word (Table 06-10). -/
def opCode (w : BitVec 24) : Nat := w.toNat / 2 ^ 18
def opStage (w : BitVec 24) : Nat := w.toNat / 2 ^ 15 % 8
def opSrcA (w : BitVec 24) : BitVec 5 := w.extractLsb' 10 5
def opSrcB (w : BitVec 24) : BitVec 5 := w.extractLsb' 5 5

/-- PLD or PST in the store form (R273). -/
def storeForm (w : BitVec 24) : Bool := (opCode w == 0x3A || opCode w == 0x3B) && opSrcA w != 31

/-- The identifiers that IMM12 gives to the ops of a PE that satisfy a test, over the slots of a period. -/
def namedImms (x : PE) (p : Nat) (test : BitVec 24 → Bool) : List Nat :=
  ((List.range p).filter (fun i => test (opAt x i))).map (fun i => (raAt x i).toNat % 2 ^ 12)

/-- LEN of a tile's chain: one more than the highest OWN that the region's ring words on the tile name (R273). -/
def chainLen (s : State) (r : Region) (tile chn : Nat) : Nat :=
  let x := s.tile tile
  ((regionPes r).filter (fun k => peTile k == tile)).foldl (fun m k =>
    (namedImms (s.pe k) (r.pm1.toNat + 1) storeForm).foldl (fun m i =>
      let e := chainEntry x i
      if chainChn e = chn then max m (chainOwn e + 1) else m) m) 0

/-- A firing of a store op of stage `st` reaches the interface with its sequence number j LEN + OWN (R274). -/
def submitStore (s : State) (st : BitVec 3) (load : Bool) (a data : Word32) : State :=
  let tile := peTile s.cur.pe
  let x := s.tile tile
  let r := s.curRegion
  let e := chainEntry x (curImm s).toNat
  let chn := chainChn e
  let c := tabGet Chain.reset x.mem.chains chn
  let j := r.period - st.toNat
  let o : StoreOp := ⟨r.runs, j * chainLen s r tile chn + chainOwn e, s.cur.pe, load, a, data, chainFem e, chainOwn e, j,
    s.cur.region⟩
  let s := s.setTile tile { x with mem := { x.mem with chains := tabPut x.mem.chains chn { c with queue := c.queue ++ [o] } } }
  let s := if load then s.setCurPe { s.curPe with awaited := s.curPe.awaited + 1 } else s
  if c.queue.isEmpty then s.after 1 (.storeOpPerform tile chn) else s

/-- PLD: the scratch form lands in 2 cycles, the store form is submitted (R272, R273). -/
def execPld (st : BitVec 3) (a : BitVec 5) (d : BitVec 4) (w : BitVec 1) (s : State) : Out :=
  if a = 31 then fireOp st [a] d w 2 (fun s => (memLoad s.curPe.scratch (curImm s).toNat 4, 0)) s
  else .next (if fires st s then submitStore (noteReads s [a]) st true (srcValue .int a s) 0 else s)

/-- PST: the scratch form writes at the end of the cycle, the store form is submitted (R272, R273). -/
def execPst (st : BitVec 3) (a b : BitVec 5) (_ : BitVec 4) (s : State) : Out :=
  .next (if fires st s then
    let v := srcValue .int b s
    if a = 31 then
      let s := noteReads s [b]
      s.setCurPe { s.curPe with scratchWrite := some ((curImm s).toNat, v) }
    else submitStore (noteReads s [a, b]) st false (srcValue .int a s) v
  else s)

/-! PRED bindings (Table 10-6). -/

def predKind (b : BitVec 64) : Nat := b.toNat % 4
def predOp (b : BitVec 64) : BitVec 4 := b.extractLsb' 2 4
def predVc (b : BitVec 64) : Nat := b.toNat / 2 ^ 6 % 32
def predBase (b : BitVec 64) : Nat := b.toNat / 2 ^ 32 % 2 ^ 25

/-- The lane of a couching operation that contributes nothing (R279). -/
def predIdentity (op : BitVec 4) : Word32 := if op = 3 ∨ op = 4 then 0x7FC00000#32 else 0

/-- One lane of a mesh tree contribution (R278) with its flags, which go to the region that contributes (R69, log 25). -/
def predLane (op : BitVec 4) (a b : Word32) : Word32 × BitVec 5 :=
  let least (max : Bool) : Word32 × BitVec 5 :=
    let r := fpMinMax fp32 max a.toNat b.toNat
    (BitVec.ofNat 32 r.1, r.2)
  match op.toNat with
  | 1 => (a + b, 0)
  | 3 => least false
  | 4 => least true
  | _ => (a ||| b, 0)

/-- Regions with PEs on a tile that name a PRED identifier, and how often they do in a period (R279). -/
def predNamers (s : State) (tile rid : Nat) : List (Region × Nat) :=
  (s.regions.map (fun (_, r) => (r, ((regionPes r).filter (fun k => peTile k == tile)).foldl (fun n k =>
    n + ((namedImms (s.pe k) (r.pm1.toNat + 1) (fun w => opCode w == 0x3C)).filter (· == rid)).length) 0))).filter
      (fun (_, n) => n != 0)

/-- The firings that contribute to flit q: over iterations 0 to TRIP − 1 whose element lies in it (R279). -/
def predExpected (s : State) (tile rid q base : Nat) : Nat :=
  (predNamers s tile rid).foldl (fun n (r, c) =>
    let lo := max (32 * q) base
    let hi := if r.trip = 0 then 32 * q + 32 else min (32 * q + 32) (base + r.trip.toNat)
    n + c * (hi - lo)) 0

/-- A tile adds a contribution to element e of a tree reduction (R279). -/
def contribute (s : State) (tile rid e region : Nat) (b : BitVec 64) (v : Word32) : State :=
  let x := s.tile tile
  let q := e / 32
  let f := match x.mem.predFlits.find? (fun f => f.rid == rid && f.q == q) with
    | some f => f
    | none => ⟨rid, q, predOp b, predVc b, List.replicate 32 (predIdentity (predOp b)), 0, region⟩
  let lane := predLane f.op (nth f.lanes (e % 32) 0) v
  let f := { f with lanes := setNth f.lanes (e % 32) lane.1, made := f.made + 1 }
  let rest := x.mem.predFlits.filter (fun g => !(g.rid == rid && g.q == q))
  let s := s.setTile tile { x with mem := { x.mem with predFlits := rest ++ [f] } }
  let s := s.setRegion region { s.region region with flags := (s.region region).flags ||| lane.2 }
  if f.made = predExpected s tile rid q (predBase b) then s.event (.predFlitSend tile rid q) else s

/-- PRED: a contribution to the reduction that IMM12 names (R278, R279). -/
def execPred (st : BitVec 3) (a : BitVec 5) (_ : BitVec 4) (s : State) : Out :=
  .next (if fires st s then
    let v := srcValue .int a s
    let tile := peTile s.cur.pe
    let rid := (curImm s).toNat
    let b := tabGet 0 (s.tile tile).mem.preds rid
    let j := s.curRegion.period - st.toNat
    let s := noteReads s [a]
    if predKind b = 1 then
      sendFlit s tile tile (predVc b) s.curRegion.number (.reduction (predBase b + 4 * j) (predOp b) v)
    else if predKind b = 2 then contribute s tile rid (predBase b + j) s.cur.region b v
    else s
  else s)

/-- Where a tile's contribution to a tree goes: its own node, if that has the tile as a child, else the parent (R124). -/
def leafTarget (s : State) (tile rid : Nat) : Nat :=
  let n := s.node (4096 * tile + rid)
  if n.children.contains tile then tile else n.parent.getD tile

/-- PRED_FLIT_SEND: the tile sends the flit of 32 elements as a leaf of its tree: one token sent; it is received where a node
takes it (R47, R279). -/
def execPredFlitSend (tile rid q : Nat) (s : State) : Out :=
  let x := s.tile tile
  match x.mem.predFlits.find? (fun f => f.rid == rid && f.q == q) with
  | none => .next s
  | some f =>
    let dst := leafTarget s tile rid
    let s := s.setTile tile { x with
      sent := x.sent + 1, mem := { x.mem with predFlits := x.mem.predFlits.filter (fun g => !(g.rid == rid && g.q == q)) } }
    .next (sendFlit s tile dst f.vc (256 + (s.region f.region).number)
      (.tree f.op rid (f.lanes.foldr (fun v acc => (acc <<< 32) ||| v.zeroExtend 1024) 0)))

/-! ### The route word (R153, R261) -/

/-- The result that lands in this cycle (R258). -/
def landing (x : PE) : Option InFlight := x.inflight.find? (fun f => f.left == 0)

/-- What a route selector drives, and the latch it reads. -/
def selected (s : State) (c : BitVec 4) : Option Word32 × Option Port :=
  match c.toNat with
  | 0 => (none, none)
  | 1 => ((landing s.curPe).map (fun f => f.value), none)
  | 2 => (some (s.curPe.latch .n).value, some .n)
  | 3 => (some (s.curPe.latch .e).value, some .e)
  | 4 => (some (s.curPe.latch .s).value, some .s)
  | 5 => (some (s.curPe.latch .w).value, some .w)
  | 6 => (some (s.curPe.latch .v).value, some .v)
  | 7 => (some (s.curPe.latch .m).value, some .m)
  | _ => (some (kRead s (c - 8)), none)

/-- One selector: the port is driven at the end of the cycle. -/
def routePort (s : State) (p : Port) (c : BitVec 4) : State :=
  match selected s c with
  | (v, q) =>
    let x := s.curPe
    s.setCurPe { x with
      drives := x.drives ++ (v.map (fun v => (p, v))).toList
      reads := x.reads ++ q.toList }

/-- ROUTE (R153): acts in every unfrozen cycle, with no stage. -/
def execRoute (n e so w : BitVec 4) (s : State) : Out :=
  .next (routePort (routePort (routePort (routePort s .n n) .e e) .s so) .w w)

/-! ### Whether a region freezes (R41, R275, R306) -/

/-- Latency λ of an op code, 0 where no result lands (Table 10-1). -/
def opLatency (w : BitVec 24) : Nat :=
  let c := opCode w
  if c = 0 ∨ c = 0x3B ∨ c = 0x3C then 0
  else if c = 0x3A then (if opSrcA w = 31 then 2 else 0)
  else if (0x04 ≤ c ∧ c ≤ 0x07) ∨ (0x10 ≤ c ∧ c ≤ 0x12) then 4
  else if c = 0x1A ∨ c = 0x1B ∨ (0x28 ≤ c ∧ c ≤ 0x2E) then 2
  else if 0x34 ≤ c ∧ c ≤ 0x37 then 5
  else if c = 0x38 then 3
  else 1

/-- The tokens that a buffered arc holds, the latch included (R306). -/
def arcHeld (a : ArcState) : Nat := a.sent - a.taken

/-- Whether a drive into a port has room (R41, R306). -/
def driveRoom (s : State) (r : Region) (k : Nat) (p : Port) : Bool :=
  match arcOut s r k p with
  | some (n, a) =>
    if adjacentArc a then (match facing k p with | none => true | some q => !((s.pe q).latch (opposite p)).full)
    else decide (arcHeld (tabGet ArcState.reset (s.launch r.pid r.lnum).arcs n) < a.depth)
  | none =>
    match facing k p with
    | none => true
    | some q => inRegion r q || !((s.pe q).latch (opposite p)).full

/-- The latches that a PE reads in a slot: those of a fired op's sources and of its route word. -/
def slotReads (fired : Bool) (w : BitVec 24) (rt : BitVec 16) : List Port :=
  (if fired then (srcPort (opSrcA w)).toList ++ (srcPort (opSrcB w)).toList else []) ++
    [12, 8, 4, 0].filterMap (fun i =>
      match (rt.toNat / 2 ^ i) % 16 with
      | 2 => some .n | 3 => some .e | 4 => some .s | 5 => some .w | 6 => some .v | 7 => some .m | _ => none)

/-- The ports that a route word drives in the cycle: code 1 only where a result lands (R261). -/
def slotDrives (lands : Bool) (rt : BitVec 16) : List Port :=
  [(12, Port.n), (8, .e), (4, .s), (0, .w)].filterMap (fun (i, p) =>
    match (rt.toNat / 2 ^ i) % 16 with
    | 0 => none
    | 1 => if lands then some p else none
    | _ => some p)

/-- Whether a PE keeps its region from this slot; `subs` counts the store ops of the cycle per tile and chain (R275). -/
def peBlocked (s : State) (r : Region) (k : Nat) (subs : List (Nat × Nat)) : Bool × List (Nat × Nat) :=
  let x := s.pe k
  let slot := r.slot.toNat
  let w := opAt x slot
  let rt := routeAt x slot
  let fired := r.sv.getLsbD (opStage w)
  let lands := (landing x).isSome || (fired && opLatency w == 1)
  let tile := peTile k
  let chn := chainChn (chainEntry (s.tile tile) ((raAt x slot).toNat % 2 ^ 12))
  let store := fired && storeForm w
  let queued := (tabGet Chain.reset (s.tile tile).mem.chains chn).queue.length + subs.count (tile, chn)
  ((slotReads fired w rt).any (fun p => synchronised r k p && !(x.latch p).full) ||
    (slotDrives lands rt).any (fun p => !driveRoom s r k p) ||
    (store && (decide (16 ≤ queued) || (opCode w == 0x3A && decide (4 ≤ x.awaited + x.replies.length)))),
   if store then (tile, chn) :: subs else subs)

/-- R41: the condition over all PEs of the region, before anything fires. -/
def regionBlocked (s : State) (r : Region) : Bool :=
  ((regionPes r).foldl (fun (b, subs) k => let c := peBlocked s r k subs; (b || c.1, c.2)) (false, [])).1

/-! ### The end of a cycle (R40, R258, R261 to R263) -/

/-- Results with no cycle left are written, and their flags given; the others come one cycle nearer. -/
def landResults (x : PE) : PE × Flags :=
  let now := x.inflight.filter (fun f => f.left == 0)
  let later := (x.inflight.filter (fun f => f.left != 0)).map (fun f => { f with left := f.left - 1 })
  ({ x with
    inflight := later
    k := now.foldl (fun k f => if f.we then k.set f.dst.toNat f.value f.dst.isLt else k) x.k },
   now.foldl (fun a f => a ||| f.flags) 0)

/-- A scratch PST writes at the end of its cycle (R272). -/
def writeScratch (x : PE) : PE :=
  match x.scratchWrite with
  | none => x
  | some (a, v) => { x with scratch := memStore x.scratch a 4 v.toNat, scratchWrite := none }

/-- A token leaves an arc's latch (R306). -/
def takeToken (s : State) (r : Region) (n : Nat) : State :=
  let l := s.launch r.pid r.lnum
  let a := tabGet ArcState.reset l.arcs n
  s.setLaunch r.pid r.lnum { l with arcs := tabPut l.arcs n { a with taken := a.taken + 1 } }

/-- A synchronised latch that was read and not kept is empty (R40, R281). -/
def consumePort (s : State) (r : Region) (k : Nat) (p : Port) : State :=
  let s := s.setPe k ((s.pe k).consume p)
  match arcIn s r k p with
  | none => s
  | some (n, _) => takeToken s r n

/-- A token is driven into an arc: sent at the producer's tile, received in its place at the consumer's (R47, R306). -/
def countDrive (s : State) (r : Region) (n src : Nat) (dst : Option Nat) : State :=
  let l := s.launch r.pid r.lnum
  let a := tabGet ArcState.reset l.arcs n
  let a := { a with sent := a.sent + 1, received := if dst.isSome then a.received + 1 else a.received }
  let s := (s.setLaunch r.pid r.lnum { l with arcs := tabPut l.arcs n a }).modTile src (fun x => { x with sent := x.sent + 1 })
  match dst with
  | none => s
  | some t => s.modTile t (fun x => { x with received := x.received + 1 })

/-- A driven value reaches the neighbour's latch, or the mesh for a buffered arc (R40, R261, R306); where the arc ends at no
port, the collective node at the PE's tile gathers it (R252). -/
def deliver (s : State) (r : Region) (k : Nat) (p : Port) (v : Word32) : State :=
  match arcOut s r k p with
  | some (n, a) =>
    match adjacentArc a, a.toPort with
    | _, none => takeToken (gather (countDrive s r n (peTile k) (some (peTile k))) (peTile k) n [v]) r n
    | false, some (t, _) =>
      let dst := peTile (fabricAt r t)
      sendFlit (countDrive s r n (peTile k) none) (peTile k) dst a.vc 255 (.token n (v.zeroExtend 1024))
    | _, _ =>
      match facing k p with
      | none => s
      | some q => (countDrive s r n (peTile k) (some (peTile q))).event (.latchArrival q (opposite p) v)
  | none =>
    match facing k p with
    | none => s
    | some q =>
      if inRegion r q then s.setPe q ((s.pe q).setLatch (opposite p) { (s.pe q).latch (opposite p) with value := v })
      else s.event (.latchArrival q (opposite p) v)

/-- LATCH_ARRIVAL: a value fills an empty latch; at a full one its sender holds it (R40). -/
def execLatchArrival (pe : Nat) (port : Port) (value : Word32) (s : State) : Out :=
  let x := s.pe pe
  if (x.latch port).full then .next (s.after 1 (.latchArrival pe port value))
  else .next (s.setPe pe (x.setLatch port ⟨value, true⟩))

/-- The buffered arcs of a live launch: the head of a buffer enters an empty latch (R306). -/
def feedArcs (s : State) (pid lnum : Nat) : State :=
  let b := tabGet Binding.reset (s.part pid).bindings (s.launch pid lnum).bind
  let p := s.part pid
  let fx := 8 * (p.x0 + b.x0)
  let fy := 8 * (p.y0 + b.y0)
  (launchArcs s pid lnum).foldl (fun s (n, a) =>
    let l := s.launch pid lnum
    let st := tabGet ArcState.reset l.arcs n
    match st.buffer, a.toPort with
    | v :: rest, some (t, q) =>
      let k := 512 * (fy + t / 512) + fx + t % 512
      if ((s.pe k).latch q).full then s
      else (s.setLaunch pid lnum { l with arcs := tabPut l.arcs n { st with buffer := rest } }).event (.latchArrival k q v)
    | _, _ => s) s

/-- One PE's results land and its scratch is written; the flags go to the region (R263). -/
def landPe (r : Nat) (s : State) (k : Nat) : State :=
  let y := landResults (writeScratch (s.pe k))
  let s := s.setPe k y.1
  s.setRegion r { s.region r with flags := (s.region r).flags ||| y.2 }

/-- The latches that one PE's reads consume. -/
def consumePe (r : Nat) (s : State) (k : Nat) : State :=
  let x := s.pe k
  let g := s.region r
  ((x.reads.filter (fun p => !x.keeps.contains p && synchronised g k p)).eraseDups).foldl (fun s p => consumePort s g k p) s

/-- The values that one PE drives. -/
def drivePe (r : Nat) (s : State) (k : Nat) : State :=
  (s.pe k).drives.foldl (fun s d => deliver s (s.region r) k d.1 d.2)
    (s.setPe k { s.pe k with drives := [], reads := [], keeps := [] })

/-- The end of an unfrozen cycle: results land, read latches empty, driven values arrive, the slot advances (R38). -/
def commitRegion (r : Nat) (s : State) : State :=
  let ks := regionPes (s.region r)
  let s := ks.foldl (landPe r) s
  let s := ks.foldl (consumePe r) s
  let s := ks.foldl (drivePe r) s
  let g := s.region r
  if g.slot = g.pm1 then s.event (.regionBoundary r) else s.setRegion r { g with slot := g.slot + 1 }

/-- Results in flight of a region that has ended land in the following cycles (R258, R262). -/
def landEnded (r : Nat) (s : State) : State := (regionPes (s.region r)).foldl (landPe r) s

end Sys2Proof.Machine
end

