-- ==== Sys2Proof/Machine/Llc.lean ====
section
/-! DEFINITION. The tensor-tagged LLC: line geometry, home slices, fills, write-backs, eviction, and what an access does
to its line (spec 04 R83 to R92, 09 R229 to R237, 13 R309, 16 R359, 17 R375). -/

namespace Sys2Proof.Machine

/-! ### Tags and tensors (R83 to R87) -/

def tagTid (tag : BitVec 60) : Nat := tag.toNat / 2 ^ 48
def tagCoord (tag : BitVec 60) (d : Nat) : Nat := tag.toNat / 2 ^ (12 * d) % 4096
/-- The TID 0 line of a virtual address (R86). -/
def flatTag (va : Nat) : BitVec 60 := BitVec.ofNat 60 (va / 1024 % 2 ^ 48)

def tensorOf (p : Partition) (tid : Nat) : Tensor := tabGet Tensor.reset p.tensors tid
def Tensor.dim (d : Tensor) (k : Nat) : Nat := (nth d.dims.toList k 0).toNat
def Tensor.tileLog (d : Tensor) (k : Nat) : Nat := (nth d.ts.toList k 0).toNat
/-- STRIDE1 to STRIDE3; dimension 0 has the element size. -/
def Tensor.stride (d : Tensor) (k : Nat) : Nat := (nth d.strides.toList (k - 1) 0).toNat
def Tensor.g64 (d : Tensor) : Bool := decide (0x10 ≤ d.fmt.toNat)

/-- Bits of an element, 0 for a format not listed (Table 04-4). -/
def fmtBits (f : Nat) : Nat :=
  match f with
  | 1 => 32
  | 2 => 16
  | 3 | 4 | 5 | 0x10 | 0x11 => 8
  | 0x12 => 4
  | 0x13 => 3
  | _ => 0

/-- The number of tiles along a dimension. -/
def Tensor.tiles (d : Tensor) (k : Nat) : Nat := (d.dim k + 2 ^ d.tileLog k - 1) / 2 ^ d.tileLog k

/-- A valid tensor-tile word (R229). -/
def tagValid (p : Partition) (w : Word) : Bool :=
  let tag := w.truncate 60
  let d := tensorOf p (tagTid tag)
  decide (w.toNat < 2 ^ 60) &&
    (if tagTid tag = 0 then !w.getLsbD 47
     else d.fmt != 0 && (List.range 4).all (fun k =>
       if k < d.rank.toNat then decide (tagCoord tag k < d.tiles k) else tagCoord tag k == 0))

/-- The home slice of a line, an absolute tile (R87). -/
def homeSlice (p : Partition) (tag : BitVec 60) : Nat :=
  let x : Word32 := tag.truncate 32 ^^^ (tag >>> 32).truncate 32
  let h := (kcg x (tensorOf p (tagTid tag)).hseed).toNat * (p.w * p.h) / 2 ^ 32
  64 * (p.y0 + h / p.w) + p.x0 + h % p.w

/-! ### Where a line's bytes lie in memory (R86): position among the 1,024 data and 16 sidecar bytes, length, address -/

/-- One row along dimension 0 of a tensor line. -/
def rowPieces (d : Tensor) (tag : BitVec 60) (r : Nat) : List (Nat × Nat × Nat) :=
  let t1 := d.tileLog 1
  let t2 := d.tileLog 2
  let j (k : Nat) : Nat :=
    tagCoord tag k * 2 ^ d.tileLog k +
      (match k with | 1 => r % 2 ^ t1 | 2 => r / 2 ^ t1 % 2 ^ t2 | _ => r / 2 ^ (t1 + t2))
  if j 1 < d.dim 1 ∧ j 2 < d.dim 2 ∧ j 3 < d.dim 3 then
    let i0 := tagCoord tag 0 * 2 ^ d.tileLog 0
    let n0 := min (2 ^ d.tileLog 0) (d.dim 0 - i0)
    let va (off : Nat) : Nat := (d.base.toNat + off + j 1 * d.stride 1 + j 2 * d.stride 2 + j 3 * d.stride 3) % 2 ^ 64
    let w := fmtBits d.fmt.toNat
    if d.g64 then
      (List.range (n0 / 64)).flatMap (fun b =>
        let a := va ((i0 / 64 + b) * (1 + 8 * w))
        let blk := r * (2 ^ d.tileLog 0 / 64) + b
        cutPiece (1024 + blk) 1 a ++ cutPiece (blk * 8 * w) (8 * w) (a + 1))
    else if n0 = 0 then [] else cutPiece (r * 2 ^ d.tileLog 0 * (w / 8)) (n0 * (w / 8)) (va (i0 * (w / 8)))
  else []

/-- The pieces of a line. -/
def linePieces (p : Partition) (tag : BitVec 60) : List (Nat × Nat × Nat) :=
  if tagTid tag = 0 then [(0, 1024, tag.toNat * 1024 % 2 ^ 64)]
  else
    let d := tensorOf p (tagTid tag)
    (List.range (2 ^ (d.tileLog 1 + d.tileLog 2 + d.tileLog 3))).flatMap (rowPieces d tag)

/-- A line of zero elements: scale 0x7F for G64 formats, a sidecar of 0 for the others (R86). -/
def blankLine (p : Partition) (tag : BitVec 60) : List Byte :=
  List.replicate 1024 0 ++ List.replicate 16 (if tagTid tag ≠ 0 ∧ (tensorOf p (tagTid tag)).g64 then 0x7F else 0)

/-- Bytes placed over a list at a position. -/
def overlay (l : List Byte) (pos : Nat) (bs : List Byte) : List Byte := l.take pos ++ bs ++ l.drop (pos + bs.length)

/-- The line that LTST writes: positions beyond DIM are discarded, and the sidecar for non-G64 formats (R86, R232). -/
def maskLine (p : Partition) (tag : BitVec 60) (bs : List Byte) : List Byte :=
  (linePieces p tag).foldl (fun l (pos, n, _) => overlay l pos ((bs.drop pos).take n)) (blankLine p tag)

def lineBytes (l : Line) : List Byte := l.data ++ l.sidecar

/-- GEN[15:0] of a TID (R83). -/
def genOf (p : Partition) (tid : Nat) : BitVec 16 := (tensorOf p tid).gen.truncate 16

/-- The line that a lookup hits (R83). -/
def lineHit (p : Partition) (tag : BitVec 60) : Option Line :=
  match tabFind p.lines tag.toNat with
  | some l => if l.gen = genOf p (tagTid tag) then some l else none
  | none => none

def setLine (s : State) (pid : Nat) (tag : BitVec 60) (l : Line) : State :=
  s.setPart pid { s.part pid with lines := tabPut (s.part pid).lines tag.toNat l }
def dropLine (s : State) (pid : Nat) (tag : BitVec 60) : State :=
  s.setPart pid { s.part pid with lines := tabDel (s.part pid).lines tag.toNat }

/-! ### Requests to memory (R92, R359) -/

/-- The pieces of a line whose page a field's last-level TLB does not hold and whose walk has not failed: an address each. -/
def missingPages (p : Partition) (field : Nat) (failed : List Nat) (ps : List (Nat × Nat × Nat)) : List Nat :=
  ps.filterMap (fun (_, _, va) =>
    if (earlyFail p va).isSome ∨ failed.contains (pageNumber va) ∨ (tlbFind (fieldTlb p field) va).isSome then none else some va)

/-- One address of each page. -/
def onePerPage (l : List Nat) (seen : List Nat) : List Nat :=
  match l with
  | [] => []
  | va :: r => if seen.contains (pageNumber va) then onePerPage r seen else va :: onePerPage r (pageNumber va :: seen)

/-- The page of an address for a home slice, with the permissions of S; none where it does not translate (R359). -/
def slicePage (p : Partition) (field : Nat) (failed : List Nat) (write : Bool) (va : Nat) : Option Page :=
  if (earlyFail p va).isSome ∨ failed.contains (pageNumber va) then none
  else
    match tlbFind (fieldTlb p field) va with
    | some g => if permits g write false then some g else none
    | none => none

/-- The pieces of a line with their physical addresses; the first address that does not translate (R359). -/
def placePieces (p : Partition) (field : Nat) (failed : List Nat) (write : Bool) (ps : List (Nat × Nat × Nat)) :
    List (Nat × Nat × Nat) × Option Nat :=
  (ps.filterMap (fun (pos, n, va) => (slicePage p field failed write va).map (fun g => (pos, n, pageAddr g va))),
    (ps.find? (fun (_, _, va) => (slicePage p field failed write va).isNone)).map (fun (_, _, va) => va))

/-- HBM4 pieces by HBM4 line, keyed by physical address over 1,024 (R92). -/
def byHbmLine (ps : List (Nat × Nat × Nat)) : Tab (List (Nat × Nat × Nat)) :=
  ps.foldl (fun t (pos, n, pa) =>
    if inHost pa then t else tabPut t (pa / 1024) (tabGet [] t (pa / 1024) ++ [(pos, pa % 2 ^ 31, n)])) []

/-- The field that serves a line's home slice. -/
def lineField (p : Partition) (tag : BitVec 60) : Nat := fieldOf (homeSlice p tag)

/-- The record of a fill or write-back whose translation fails (R359, Table 17-3). -/
def translationRecord (s : State) (pid typ : Nat) (tag : BitVec 60) (va : Nat) : State :=
  post s pid typ 0 0 5 (homeSlice (s.part pid) tag) 0xFF 0
    (natBytes 2 (tagTid tag) ++ List.replicate 6 0 ++ natBytes 8 tag.toNat ++ natBytes 8 va)

/-- Whether a walk still serves a request. -/
def walkServes (p : Partition) (who : WalkFor) : Bool := p.walks.any (fun (_, w) => w.waiting.contains who)

/-- Every page is at hand: one demand per HBM4 line; host memory is read at once; untranslatable elements are 0 (R359). -/
def askFill (s : State) (pid : Nat) (tag : BitVec 60) (f : Fill) : State :=
  let p := s.part pid
  let (ps, bad) := placePieces p (lineField p tag) f.failed false (linePieces p tag)
  let bytes := ps.foldl (fun l (pos, n, pa) => if inHost pa then overlay l pos (physBytes s pa n) else l) (blankLine p tag)
  let t := byHbmLine ps
  let s := s.setPart pid { p with fills := tabPut p.fills tag.toNat { f with asked := true, left := t.length, bytes := bytes } }
  let s := t.foldl (fun s (k, pieces) => sendDemand s (k / 2 ^ 21) ⟨pid, tag, k % 2 ^ 21, .read pieces, none⟩) s
  let s := match bad with | none => s | some va => translationRecord s pid 0x11 tag va
  if t.length = 0 then s.event (.llcFillComplete pid tag) else s

/-- A fill goes on: it waits for the walks of its pages, then sends its requests (R356, R359). -/
def goFill (s : State) (pid : Nat) (tag : BitVec 60) (f : Fill) : State :=
  let p := s.part pid
  let field := lineField p tag
  if walkServes p (.fill tag) then s
  else
    match onePerPage (missingPages p field f.failed (linePieces p tag)) [] with
    | [] => askFill s pid tag f
    | l => l.foldl (fun s va => missWalk s pid field va (.fill tag)) s

/-- A fill begins in the current generation. One that is already in progress is not begun again (R88, R90, R309). -/
def startFill (s : State) (pid : Nat) (tag : BitVec 60) : State :=
  let p := s.part pid
  if (tabFind p.fills tag.toNat).isSome then s
  else
    let f : Fill := ⟨genOf p (tagTid tag), [], false, 0, []⟩
    goFill (s.setPart pid { p with fills := tabPut p.fills tag.toNat f }) pid tag f

/-- Memory no longer holds what the undo entries of a line do (R375). -/
def staleUndo (s : State) (pid : Nat) (tag : BitVec 60) : State :=
  let p := s.part pid
  let mark (c : Cut) : Cut := { c with undo := c.undo.map (fun u => if u.tag = tag then { u with stale := true } else u) }
  s.setPart pid { p with launches := p.launches.map (fun (n, l) => (n, { l with cuts := l.cuts.map mark })) }

/-- A line's bytes go to memory: host bytes at once, one demand write per HBM4 line with only the line's bytes; a
translation that fails discards the line (R92, R359). The thread is the one whose LTWB asks. -/
def writeBackLine (s : State) (pid : Nat) (tag : BitVec 60) (l : Line) (failed : List Nat) (thread : Option (Nat × Nat)) : State :=
  let p := s.part pid
  match placePieces p (lineField p tag) failed true (linePieces p tag) with
  | (_, some va) => translationRecord (dropLine s pid tag) pid 0x12 tag va
  | (ps, none) =>
    let s := staleUndo s pid tag
    let bytes := lineBytes l
    let s := ps.foldl (fun s (pos, n, pa) =>
      if inHost pa then { s with host := memWrite s.host (pa % 2 ^ 51) ((bytes.drop pos).take n) } else s) s
    let t := byHbmLine ps
    let s := t.foldl (fun s (k, pieces) =>
      let data := pieces.flatMap (fun (pos, off, n) => (List.range n).map (fun i => (off + i, nth bytes (pos + i) 0)))
      sendDemand s (k / 2 ^ 21) ⟨pid, tag, k % 2 ^ 21, .write data, thread⟩) s
    match thread with
    | none => s
    | some (tile, n) =>
      let h := s.thread tile n
      s.setThread tile n { h with writebackOut := h.writebackOut + t.length }

/-- The thread's fences wait for one write-back more, or for one less. -/
def oweBack (s : State) (e : Nat × Nat) : State :=
  let h := s.thread e.1 e.2
  s.setThread e.1 e.2 { h with writebackOut := h.writebackOut + 1 }
def paidBack (s : State) (e : Nat × Nat) : State :=
  let h := s.thread e.1 e.2
  s.setThread e.1 e.2 { h with writebackOut := h.writebackOut - 1 }

/-- A write-back waits for the walks of its pages, as one of the threads that ask for it does. -/
def holdBack (s : State) (pid : Nat) (tag : BitVec 60) (thread : Option (Nat × Nat)) : State :=
  let p := s.part pid
  let b := tabGet ⟨[], []⟩ p.backs tag.toNat
  let s := s.setPart pid { p with backs := tabPut p.backs tag.toNat { b with threads := b.threads ++ thread.toList } }
  thread.toList.foldl oweBack s

/-- Writes back a listed dirty line of the current generation, which stays clean and valid, once its pages are at hand (R88,
R90, R359). -/
def cleanLine (s : State) (pid : Nat) (tag : BitVec 60) (failed : List Nat) (thread : Option (Nat × Nat)) : State :=
  let p := s.part pid
  match lineHit p tag with
  | none => s
  | some l =>
    if !l.dirty then s
    else if walkServes p (.back tag) then holdBack s pid tag thread
    else
      match onePerPage (missingPages p (lineField p tag) failed (linePieces p tag)) [] with
      | [] => writeBackLine (setLine s pid tag { l with dirty := false }) pid tag l failed thread
      | m => m.foldl (fun s va => missWalk s pid (lineField p tag) va (.back tag)) (holdBack s pid tag thread)

/-- A line is written back with its pages walked at this moment, where its slice is about to be given up (R326, log 28). -/
def cleanNow (s : State) (pid : Nat) (tag : BitVec 60) : State :=
  let p := s.part pid
  let field := lineField p tag
  let missing := onePerPage (missingPages p field [] (linePieces p tag)) []
  let found (va : Nat) : Option Page := match walk s p va true false with | .page g => some g | _ => none
  let p := missing.foldl (fun p va => match found va with | some g => putField p field g | none => p) p
  cleanLine (s.setPart pid p) pid tag ((missing.filter (fun va => (found va).isNone)).map pageNumber) none

/-- Lines that a slice can hold: 8,192, less 512 for each gated way (R79, R90, R408; 16 ways). -/
def sliceRoom (x : Tile) : Nat := 512 * (16 - onesBelow (x.ctl.wayOff.zeroExtend 64) 16)

/-- A line can leave its slice at once: it is clean, or the pages of its write-back are at hand. -/
def leavesSlice (p : Partition) (e : Nat × Line) : Bool :=
  let tag := BitVec.ofNat 60 e.1
  !e.2.dirty || (missingPages p (lineField p tag) [] (linePieces p tag)).isEmpty

/-- A line is placed in its slice; when the slice is full a line leaves, written back if dirty (R90). Which one is not
architectural: the first that can leave at once; where none can, the first one's write-back begins. -/
def placeLine (s : State) (pid : Nat) (tag : BitVec 60) (l : Line) : State :=
  let p := s.part pid
  let mine := p.lines.filter (fun (k, m) => m.home == l.home && k != tag.toNat)
  let s :=
    if mine.length < sliceRoom (s.tile l.home) then s
    else
      match mine.find? (leavesSlice p), mine with
      | some (k, _), _ =>
        let t := BitVec.ofNat 60 k
        dropLine (cleanLine s pid t [] none) pid t
      | none, (k, _) :: _ => cleanLine s pid (BitVec.ofNat 60 k) [] none
      | none, [] => s
  setLine s pid tag l

/-- LLC_WRITEBACK: a line is written back (R90); a write-back whose walks have ended goes on, for the threads that asked for
it (R359). -/
def execLlcWriteback (pid : Nat) (tag : BitVec 60) (s : State) : Out :=
  let p := s.part pid
  match tabFind p.backs tag.toNat with
  | none => .next (cleanLine s pid tag [] none)
  | some b =>
    if walkServes p (.back tag) then .next s
    else
      let s := b.threads.foldl paidBack (s.setPart pid { p with backs := tabDel p.backs tag.toNat })
      .next (cleanLine s pid tag b.failed b.threads.head?)

/-! ### Undo log of a snapshot interval (R375) -/

/-- The bytes of HBM4 behind the writes that wait at the channel, in their order (R92). -/
def settledBytes (s : State) (pa n : Nat) : List Byte :=
  if inHost pa then physBytes s pa n
  else
    let c := s.chan (chanOf pa)
    memBytes (c.demands.foldl (fun m d =>
      match d.kind with | .write bs => bs.foldl (fun m (a, b) => memPut m a b) m | _ => m) c.mem) (pa % 2 ^ 31) n

/-- The filters of global reductions that guard a line (R126, R367). -/
def lineFilters (p : Partition) (tag : BitVec 60) : Tab Nat :=
  p.redFilter.filter (fun (k, _) => k / 32 / 4096 == tag.toNat)

/-- A log takes an entry: the first of its line, unless the log has filled, whose room is a free value (R375, log 13). -/
def addUndo (c : Cut) (free : Nat) (e : Undo) : Cut :=
  if c.full ∨ c.undo.any (fun u => u.tag == e.tag) then c
  else if Config.undoFull free then { c with full := true } else { c with undo := e :: c.undo }

/-- The newest cut of a writer's launch, whose interval the write falls into: nothing of a launch writes between its elements'
cuts and the cut's completion but what was issued before (R369, R372, R375). -/
def loggedCut (s : State) (tile : Nat) : Option (Place × Cut) :=
  match (s.tile tile).place with
  | none => none
  | some pl => ((s.launch pl.pid pl.lnum).cuts.head?).map (fun c => (pl, c))

/-- The line as it stands is copied to the log of the newest cut of the writer's launch, unless an entry exists. -/
def logUndo (s : State) (pid tile : Nat) (tag : BitVec 60) (m : Line) : State :=
  match loggedCut s tile with
  | none => s
  | some (pl, c) =>
    let l := s.launch pl.pid pl.lnum
    s.nextFree.setLaunch pl.pid pl.lnum { l with cuts := addUndo c s.free ⟨tag, m, lineFilters (s.part pid) tag, false⟩ :: l.cuts.tail }

/-! ### Accesses at the home slice -/

/-- An operation of a thread on global memory is performed (R104). -/
def globalDone (s : State) (tile t : Nat) : State :=
  let h := s.thread tile t
  s.setThread tile t { h with globalOut := h.globalOut - 1 }

/-- What ATOM writes into g[rd] (R201). -/
def atomReturn (w : BitVec 1) (old : Nat) : Word :=
  if w = 1 then (BitVec.ofNat 32 old).signExtend 64 else BitVec.ofNat 64 old

/-- Bytes of a line replaced; the line becomes dirty (R83). -/
def writeLine (s : State) (pid tile : Nat) (tag : BitVec 60) (l : Line) (off n v : Nat) : State :=
  setLine (logUndo s pid tile tag l) pid tag { l with data := overlay l.data off (natBytes n v), dirty := true }

/-- Whether position j of a line belongs to a halo strip of dimension k (R234). -/
def inStrip (d : Tensor) (k : Nat) (high : Bool) (j : Nat) : Bool :=
  let below := ((List.range k).map d.tileLog).foldl (· + ·) 0
  let i := j / 2 ^ below % 2 ^ d.tileLog k
  if high then decide (2 ^ d.tileLog k - d.halo.toNat ≤ i) else decide (i < d.halo.toNat)

/-- Element j of a line's data: w bits (R86). -/
def lineElement (data : Nat) (w j : Nat) : Nat := data / 2 ^ (w * j) % 2 ^ w

/-- Elements of w bits end to end. -/
def packElements (w : Nat) (es : List Nat) : Nat :=
  match es with
  | [] => 0
  | e :: r => e + 2 ^ w * packElements w r

/-- Number of elements of a line: 1,024 for G64, else 1,024 over the element size (R86). -/
def Tensor.count (d : Tensor) : Nat := if d.g64 then 1024 else 8192 / fmtBits d.fmt.toNat

/-- Number of bytes of a strip, padded to a multiple of 8 (R234). -/
def stripSize (d : Tensor) (k : Nat) : Nat :=
  let n := d.count / 2 ^ d.tileLog k * d.halo.toNat
  let bytes := (n * fmtBits d.fmt.toNat + 7) / 8 + (if d.g64 then n / 64 else 0)
  (bytes + 7) / 8 * 8

/-- The bytes of a strip: its elements packed, then the block scales, then zero bytes (R234). -/
def stripBytes (d : Tensor) (l : Line) (k : Nat) (high : Bool) : List Byte :=
  let js := (List.range d.count).filter (inStrip d k high)
  let w := fmtBits d.fmt.toNat
  let data := bytesNat l.data
  let els := natBytes ((js.length * w + 7) / 8) (packElements w (js.map (lineElement data w)))
  let scales := if d.g64 then (js.filter (fun j => j % 64 == 0)).map (fun j => nth l.sidecar (j / 64) 0) else []
  (els ++ scales ++ List.replicate 8 0).take (stripSize d k)

/-- Remote writes of 8 bytes each from an offset upward; the last as STF where `full` (R234). -/
def sendWords (s : State) (src dst vc owner off : Nat) (bs : List Byte) (n : Nat) (full : Bool) : State :=
  match n with
  | 0 => s
  | k + 1 =>
    let s := sendFlit s src dst vc owner (.write off (BitVec.ofNat 64 (bytesNat (bs.take 8))) (if k = 0 && full then 1 else 0))
    sendWords s src dst vc owner (off + 8) (bs.drop 8) k full

/-- The line operation of a completion number takes its bytes. -/
def setLineOp (x : Tile) (cnum : Nat) (bs : List Byte) : Tile :=
  { x with eng := { x.eng with lines := x.eng.lines.map (fun o => if o.cnum.toNat = cnum then { o with bytes := bs } else o) } }

/-- The access reads the line's data. -/
def readsLine (a : GlobalAct) : Bool :=
  match a with
  | .load _ _ _ | .atom _ _ _ _ _ | .cas _ _ _ _ _ | .red _ _ _ _ _ _ | .lineLoad _ _ | .halo _ _ _ _ _ _ => true
  | .store _ _ _ | .lineStore _ _ | .fill | .clean => false

/-- An access to a valid line (R87, R98, R200 to R205, R231 to R234). A lost line is not delivered, and strikes the launch
(R380). -/
def performOn (s : State) (r : GlobalReq) (l : Line) : State :=
  if readsLine r.act && lost s (· == .line r.pid r.tag) then strikeTile s r.tile 2 else
  let s := if readsLine r.act then countErrors s (homeSlice (s.part r.pid) r.tag) (· == .line r.pid r.tag) else s
  let data := bytesNat l.data
  let read (off n : Nat) : Nat := data / 2 ^ (8 * off) % 2 ^ (8 * n)
  match r.act with
  | .load off n rd => grantThread s r.tile r.thread rd (BitVec.ofNat 64 (read off n))
  | .store off n v => globalDone (writeLine s r.pid r.tile r.tag l off n v.toNat) r.tile r.thread
  | .atom off o w b rd =>
    let n := redBytes o w
    let v := atomOpResult o n (read off n) (b.toNat % 2 ^ (8 * n))
    let s := writeLine s r.pid r.tile r.tag l off n v.1
    let h := s.thread r.tile r.thread
    let s := s.setThread r.tile r.thread { h with fflags := h.fflags ||| v.2 }
    grantThread s r.tile r.thread rd (atomReturn w (read off n))
  | .cas off w e v rd =>
    let n := redBytes 0 w
    let s := if read off n = e.toNat % 2 ^ (8 * n) then writeLine s r.pid r.tile r.tag l off n v.toNat else s
    grantThread s r.tile r.thread rd (atomReturn w (read off n))
  | .red off o w b vc q =>
    let k := 32 * (4096 * r.tag.toNat + r.tile) + vc
    if q ≤ tabGet 0 (s.part r.pid).redFilter k then globalDone s r.tile r.thread
    else
      let n := redBytes o w
      let v := atomOpResult o n (read off n) (b.toNat % 2 ^ (8 * n))
      let s := writeLine s r.pid r.tile r.tag l off n v.1
      let s := s.setPart r.pid { s.part r.pid with redFilter := tabPut (s.part r.pid).redFilter k q }
      redDone (globalDone s r.tile r.thread) r.tile r.thread v.2
  | .lineLoad _ cnum => (s.modTile r.tile (fun x => setLineOp x cnum (lineBytes l))).event (.tensorLineComplete r.tile cnum)
  | .lineStore _ cnum => s.event (.tensorLineComplete r.tile cnum)
  | .halo k high full dst off vc =>
    let d := tensorOf (s.part r.pid) (tagTid r.tag)
    let n := stripSize d k / 8
    let h := s.thread r.tile r.thread
    let s := s.setThread r.tile r.thread { h with globalOut := h.globalOut - 1, remoteOut := h.remoteOut + n, writesOut := h.writesOut + n }
    sendWords s r.tile dst vc (32 + r.thread) off (stripBytes d l k high) n full
  | .fill => globalDone s r.tile r.thread
  | .clean => cleanLine (globalDone s r.tile r.thread) r.pid r.tag [] (some (r.tile, r.thread))

/-- An LTST to a line that is not valid needs its old contents first where the undo log lacks the line (R375). -/
def logNeedsLine (s : State) (r : GlobalReq) : Bool :=
  (lineHit (s.part r.pid) r.tag).isNone &&
    (match loggedCut s r.tile with | none => false | some (_, c) => !c.full && !c.undo.any (fun u => u.tag == r.tag))

/-- The lookup of an access: a hit is performed; an LTST needs no fill but for the undo log; a miss begins the fill and waits
for it, behind earlier accesses to the line (R98, R232, R309, R375). -/
def accessLine (s : State) (r : GlobalReq) : State :=
  let p := s.part r.pid
  match r.act with
  | .lineStore bs _ =>
    if p.waitingFills.any (fun q => q.tag == r.tag) then s.setPart r.pid { p with waitingFills := p.waitingFills ++ [r] }
    else if logNeedsLine s r then startFill (s.setPart r.pid { p with waitingFills := p.waitingFills ++ [r] }) r.pid r.tag
    else
      let m := maskLine p r.tag bs
      let l : Line := ⟨m.take 1024, m.drop 1024, genOf p (tagTid r.tag), true, homeSlice p r.tag⟩
      let s := match lineHit p r.tag with | some old => logUndo s r.pid r.tile r.tag old | none => s
      let s := placeLine s r.pid r.tag l
      performOn s r l
  | .clean =>
    if p.waitingFills.any (fun q => q.tag == r.tag) then s.setPart r.pid { p with waitingFills := p.waitingFills ++ [r] }
    else cleanLine (globalDone s r.tile r.thread) r.pid r.tag [] (some (r.tile, r.thread))
  | _ =>
    match lineHit p r.tag with
    | some l =>
      if p.waitingFills.any (fun q => q.tag == r.tag) then s.setPart r.pid { p with waitingFills := p.waitingFills ++ [r] }
      else performOn s r l
    | none => startFill (s.setPart r.pid { p with waitingFills := p.waitingFills ++ [r] }) r.pid r.tag

/-- The first way of a slice of which every way is gated wakes; accesses are held until then (R79). -/
def wakeWay (s : State) (tile : Nat) : State :=
  let x := s.tile tile
  if x.ctl.wwake = 0 then
    (s.setTile tile { x with ctl := { x.ctl with wwake := 1 } }).after (wakeCycles tile) (.unitWakeComplete tile (.way 0))
  else s

/-- HOME_SLICE_ACCESS (R87). -/
def execHomeSliceAccess (r : GlobalReq) (s : State) : Out :=
  let home := homeSlice (s.part r.pid) r.tag
  if (s.tile home).ctl.wayOff = 0xFFFF then .next ((wakeWay s home).after 1 (.homeSliceAccess r))
  else .next (accessLine s r)

/-- The accesses that waited for a line are performed in order of arrival. -/
def performAll (s : State) (rs : List GlobalReq) : State :=
  match rs with
  | [] => s
  | r :: q => performAll (accessLine s r) q

/-- LLC_FILL_COMPLETE: a fill that has waited for its pages goes on. Once every request is served, the line is valid and clean
in the generation in which the fill began, and the accesses that waited for it are performed in order; if the generation has
passed, its bytes are discarded and it begins again (R88, R90, R309). -/
def execLlcFillComplete (pid : Nat) (tag : BitVec 60) (s : State) : Out :=
  let p := s.part pid
  match tabFind p.fills tag.toNat with
  | none => .next s
  | some f =>
    if !f.asked then .next (goFill s pid tag f)
    else if f.left ≠ 0 then .next s
    else
      let gone := s.setPart pid { p with fills := tabDel p.fills tag.toNat }
      if f.gen ≠ genOf p (tagTid tag) then .next (startFill gone pid tag)
      else
        let mine := p.waitingFills.filter (fun r => r.tag == tag)
        let s := s.setPart pid { p with
          fills := tabDel p.fills tag.toNat, waitingFills := p.waitingFills.filter (fun r => r.tag != tag) }
        let l : Line := ⟨f.bytes.take 1024, f.bytes.drop 1024, f.gen, false, homeSlice p tag⟩
        .next (performAll (if (lineHit p tag).isSome then s else placeLine s pid tag l) mine)

/-- A demand read delivers the bytes of one HBM4 line to its fill. -/
def demandRead (s : State) (ch : Nat) (d : Demand) (pieces : List (Nat × Nat × Nat)) : State :=
  let p := s.part d.pid
  match tabFind p.fills d.tag.toNat with
  | none => s
  | some f =>
    let bytes := pieces.foldl (fun l (pos, off, k) => overlay l pos (memBytes (s.chan ch).mem off k)) f.bytes
    let s := s.setPart d.pid { p with fills := tabPut p.fills d.tag.toNat { f with bytes := bytes, left := f.left - 1 } }
    if f.left ≤ 1 then s.event (.llcFillComplete d.pid d.tag) else s

/-! ### Generations (R88) -/

/-- GEN of a TID rises by 1; when GEN[15:0] becomes 0 every line of the TID is removed, which takes a walk. The result
says whether a walk runs. -/
def bumpGen (s : State) (pid tid : Nat) (tile thread : Nat) : State × Bool :=
  let p := s.part pid
  let d := tensorOf p tid
  let g := d.gen + 1
  let p := { p with tensors := tabPut p.tensors tid { d with gen := g } }
  if g.toNat % 2 ^ 16 = 0 then
    let p := { p with lines := p.lines.filter (fun (k, _) => k / 2 ^ 48 != tid), genWalks := p.genWalks ++ [(tid, tile, thread)] }
    ((s.setPart pid p).after 16384 (.generationWalkEnd pid tid), true)
  else (s.setPart pid p, false)

/-- GENERATION_WALK_END: the threads that wait for the walk go on (R88, R235). -/
def execGenerationWalkEnd (pid tid : Nat) (s : State) : Out :=
  let p := s.part pid
  let mine := p.genWalks.filter (fun e => e.1 == tid)
  let s := s.setPart pid { p with genWalks := p.genWalks.filter (fun e => e.1 != tid) }
  .next (mine.foldl (fun s (_, tile, t) =>
    if (s.thread tile t).st = .waiting .unit then s.event (.threadWake tile t) else s) s)

end Sys2Proof.Machine
end

