-- ==== Sys2Proof/Machine/Window.lean ====
section
/-! DEFINITION. The register window: queue registers and tile control blocks, gating and waking (spec 16 R350,
15 R330, Tables 15-2 and 15-3, 19 R407 to R409, 04 R79). -/

namespace Sys2Proof.Machine

/-- A device register of the window. -/
inductive WindowReg where
  | qcfg (pid q : Nat)
  | qstat (pid q : Nat)
  | qrel (pid q : Nat)
  | mon (tile : Nat)
  | gate (tile : Nat)
  | gstat (tile : Nat)
  deriving DecidableEq, Repr

/-- The register at a physical address (R330, R407); PKT is not reached by threads. -/
def windowReg (pa : Nat) : Option WindowReg :=
  if 0x3F000000000 ≤ pa ∧ pa < 0x3F001000000 then
    let a := pa - 0x3F000000000
    let pid := a / 0x40000
    let q := a / 0x1000 % 64
    if a % 0x1000 = 0x40 then some (.qcfg pid q)
    else if a % 0x1000 = 0x48 then some (.qstat pid q)
    else if a % 0x1000 = 0x50 then some (.qrel pid q)
    else none
  else if 0x3F800000000 ≤ pa ∧ pa < 0x3F800000000 + 0x40 * 4096 then
    let a := pa - 0x3F800000000
    if a % 0x40 = 0 then some (.mon (a / 0x40))
    else if a % 0x40 = 8 then some (.gate (a / 0x40))
    else if a % 0x40 = 0x10 then some (.gstat (a / 0x40))
    else none
  else none

/-- The queue registers of the thread's own partition are granted, and the control blocks of its tiles; at M the control
blocks of all tiles are, since R407 turns away an outside tile only at S (R326, R330, R350, R407). -/
def windowGranted (s : State) (r : WindowReg) : Bool :=
  let pid := pidOf s s.cur.tile
  match r with
  | .qcfg p _ | .qstat p _ | .qrel p _ => p == pid
  | .mon t | .gate t | .gstat t => s.me.pl == 3 || holdsTile (s.part pid) t

/-- Queue `q` of a partition; the number is taken modulo 64. -/
def Partition.queue (p : Partition) (q : Nat) : Queue := p.queues[q % 64]'(Nat.mod_lt _ (by decide))
def Partition.setQueue (p : Partition) (q : Nat) (x : Queue) : Partition :=
  { p with queues := p.queues.set (q % 64) x (Nat.mod_lt _ (by decide)) }
def State.modQueue (s : State) (pid q : Nat) (f : Queue → Queue) : State :=
  s.setPart pid ((s.part pid).setQueue q (f ((s.part pid).queue q)))

/-- Packets of a queue that have arrived and are not dispatched (R332). -/
def queueCount (p : Partition) (q : Nat) : Nat :=
  ((p.queue q).packets.filter (fun l => (tabGet Launch.reset p.launches l).phase == .queued)).length

def boolNat (b : Bool) : Nat := if b then 1 else 0

def qcfgValue (x : Queue) : Word :=
  BitVec.ofNat 64 (boolNat x.en + 2 * x.prio.toNat + 16 * x.agep.toNat + 256 * boolNat x.host)

def qstatValue (p : Partition) (q : Nat) : Word :=
  let x := p.queue q
  BitVec.ofNat 64 (queueCount p q + 128 * boolNat x.held + 256 * boolNat x.ovf + 512 * boolNat x.perr +
    1024 * boolNat x.pkterr + 2 ^ 32 * x.last.toNat)

def monValue (c : Control) : Word :=
  BitVec.ofNat 64 (c.temp.toNat + 2 ^ 16 * c.volt.toNat + 2 ^ 32 * c.rosc.toNat + 2 ^ 48 * c.opnt.toNat)
def gateValue (c : Control) : Word := BitVec.ofNat 64 (c.gateBank.toNat + 2 ^ 32 * c.gateWay.toNat)
def gstatValue (c : Control) : Word :=
  BitVec.ofNat 64 (c.bwake.toNat + 2 ^ 32 * c.wwake.toNat + 2 ^ 48 * boolNat c.ton)

/-- MON of a tile is sampled once per slot (R407); the slot is numbered by the core cycle, since sampling goes on in a halt. -/
def sampleMonitor (slot t : Nat) (x : Tile) : Tile :=
  let v := Config.monitorSample t slot
  { x with ctl := { x.ctl with temp := v.extractLsb' 0 16, volt := v.extractLsb' 16 16, rosc := v.extractLsb' 32 16 } }

/-- A read of a window register; QREL is write only and reads 0 (R7). -/
def windowRead (s : State) (r : WindowReg) : Word :=
  match r with
  | .qcfg p q => qcfgValue ((s.part p).queue q)
  | .qstat p q => qstatValue (s.part p) q
  | .qrel _ _ => 0
  | .mon t => monValue (sampleMonitor (s.cycle / 8) t (s.tile t)).ctl
  | .gate t => gateValue (s.tile t).ctl
  | .gstat t => gstatValue (s.tile t).ctl

/-- QCFG: every named field is RW (Table 15-2). -/
def writeQcfg (s : State) (pid q : Nat) (v : Word) : State :=
  s.modQueue pid q (fun x => { x with
    en := v.getLsbD 0, prio := v.extractLsb' 1 3, agep := v.extractLsb' 4 4, host := v.getLsbD 8 })

/-- A W1C bit after a write: 1 clears it, but not in the cycle in which hardware sets it (R10). -/
def clearedBit (s : State) (bit : Bool) (setAt : Nat) (one : Bool) : Bool := bit && (!one || setAt == s.cycle)

/-- QSTAT: OVF, PERR and PKTERR are cleared by writing 1; the rest is read-only (R10, Table 15-3). -/
def writeQstat (s : State) (pid q : Nat) (v : Word) : State :=
  s.modQueue pid q (fun x => { x with
    ovf := clearedBit s x.ovf x.ovfAt (v.getLsbD 8)
    perr := clearedBit s x.perr x.perrAt (v.getLsbD 9)
    pkterr := clearedBit s x.pkterr x.pktAt (v.getLsbD 10) })

/-! ### Gates (R408, R409) -/

/-- Whether a launch phase counts as live: dispatched and not ended. -/
def livePhase (p : LaunchPhase) : Bool :=
  match p with
  | .configuring | .starting | .live | .held => true
  | .queued | .ended => false

/-- Launch numbers of a partition that are live; one that was pre-empted has released its tiles (R373). -/
def liveLaunches (p : Partition) : List Nat :=
  (p.launches.filter (fun (_, l) => livePhase l.phase && !(l.phase == .held && l.cause == 0x11))).map (·.1)

/-- Banks in the declared footprint of the live placement on a tile: those of its image's store data (R79). -/
def footprint (s : State) (tile : Nat) : List Nat :=
  match (s.tile tile).place with
  | none => []
  | some pl =>
    match (tabGet Binding.reset (s.part pl.pid).bindings pl.bind).image with
    | none => []
    | some i =>
      let rel := 64 * (tile / 64 - pl.y0) + (tile % 64 - pl.x0)
      i.data.flatMap (fun (t, off, bs) =>
        if t = rel then ((List.range 32).filter (fun b => decide ((b + 32 - bankOf off) % 32 * 8 < bs.length + off % 8))) else [])

/-- Bits that a write of GATE sets and the register does not hold. -/
def newBanks (c : Control) (v : Word) : BitVec 32 := v.truncate 32 &&& ~~~c.gateBank
def newWays (c : Control) (v : Word) : BitVec 16 := v.extractLsb' 32 16 &&& ~~~c.gateWay

/-- R408: no bank of a live footprint, no way while a launch of the partition is live. -/
def gateAllowed (s : State) (tile : Nat) (v : Word) : Bool :=
  let c := (s.tile tile).ctl
  !(footprint s tile).any (fun b => (newBanks c v).getLsbD b) &&
    (newWays c v == 0 || (liveLaunches (s.part (pidOf s tile))).isEmpty)

/-- Tags of the dirty lines of a tile's slice. -/
def dirtyTags (p : Partition) (tile : Nat) : List (BitVec 60) :=
  (p.lines.filter (fun (_, l) => l.home == tile && l.dirty)).map (fun (k, _) => BitVec.ofNat 60 k)

/-- Numbers of the bits set in a mask of n bits. -/
def bitsSet (m n : Nat) : List Nat := (List.range n).filter (fun b => m / 2 ^ b % 2 == 1)

/-- Starts the wake of a way that is off and not waking (R79, R409). -/
def wakeOneWay (s : State) (tile w : Nat) : State :=
  let x := s.tile tile
  if x.ctl.wayOff.getLsbD w && !x.ctl.wwake.getLsbD w then
    (s.setTile tile { x with ctl := { x.ctl with wwake := x.ctl.wwake ||| (1#16 <<< w) } }).after (wakeCycles tile)
      (.unitWakeComplete tile (.way w))
  else s

/-- The lines that the slice has no room for any more leave it (R79); none of them is dirty by now. -/
def trimSlice (s : State) (tile : Nat) : State :=
  let pid := pidOf s tile
  let p := s.part pid
  let mine := p.lines.filter (fun (_, l) => l.home == tile)
  let extra := (mine.drop (sliceRoom (s.tile tile))).map (·.1)
  s.setPart pid { p with lines := p.lines.filter (fun (k, _) => !extra.contains k) }

/-- GATE takes its value: units whose bit is set lose power, units whose bit is cleared begin to wake (R408). -/
def applyGate (s : State) (tile : Nat) (v : Word) : State :=
  let c := (s.tile tile).ctl
  let nb := newBanks c v
  let nw := newWays c v
  let cb := c.gateBank &&& ~~~v.truncate 32
  let cw := c.gateWay &&& ~~~v.extractLsb' 32 16
  let c := { c with
    gateBank := v.truncate 32, gateWay := v.extractLsb' 32 16
    bankOff := c.bankOff ||| nb, bwake := c.bwake &&& ~~~nb
    wayOff := c.wayOff ||| nw, wwake := c.wwake &&& ~~~nw }
  let s := s.modTile tile (fun x => { x with ctl := c })
  let s := if nw = 0 then s else trimSlice s tile
  let s := (bitsSet cb.toNat 32).foldl (fun s b => wakeBank s tile b) s
  (bitsSet cw.toNat 16).foldl (fun s w => wakeOneWay s tile w) s

/-- GATE_WRITE: refused as R408 says; dirty lines of the slice are written back before a way is gated. -/
def execGateWrite (tile : Nat) (v : Word) (s : State) : Out :=
  if gateAllowed s tile v then
    let pid := pidOf s tile
    let s := if newWays (s.tile tile).ctl v = 0 then s
      else (dirtyTags (s.part pid) tile).foldl (fun s t => cleanLine s pid t [] none) s
    .next (if newWays (s.tile tile).ctl v = 0 ∨ (dirtyTags (s.part pid) tile).isEmpty then applyGate s tile v
      else s.after 1 (.gateWrite tile v))
  else .next s

/-- The store words of a bank become 0 and empty; synchronising operations that wait there are scanned (R79). -/
def clearBank (s : State) (tile b : Nat) : State :=
  let s := s.modTile tile (fun x => { x with store := { x.store with
    mem := x.store.mem.filter (fun c => bankOf c.1 != b), full := x.store.full.filter (fun w => w % 32 != b) } })
  (s.tile tile).store.waiters.foldl (fun s e => if e.word % 32 = b then scan s tile e.word else s) s

/-- UNIT_WAKE_COMPLETE (R79, R409). -/
def execUnitWakeComplete (tile : Nat) (u : GatedUnit) (s : State) : Out :=
  let c := (s.tile tile).ctl
  let setCtl (c : Control) (s : State) : State := s.modTile tile (fun x => { x with ctl := c })
  match u with
  | .bank b =>
    if c.bwake.getLsbD b then
      .next (clearBank (setCtl { c with bwake := c.bwake &&& ~~~(1#32 <<< b), bankOff := c.bankOff &&& ~~~(1#32 <<< b) } s)
        tile b)
    else .next s
  | .way w =>
    if c.wwake.getLsbD w then
      .next (setCtl { c with wwake := c.wwake &&& ~~~(1#16 <<< w), wayOff := c.wayOff &&& ~~~(1#16 <<< w) } s)
    else .next s
  | .tile => .next (setCtl { c with ton := true } s)

/-! ### Thread accesses (R350) -/

/-- A write of a window register by a thread; the state, or cause 0x06, or a wait for the write-back of R408. -/
def windowWrite (s : State) (va : Word) (r : WindowReg) (v : Word) : Res :=
  match r with
  | .qcfg p q => .done (writeQcfg s p q v)
  | .qstat p q => .done (writeQstat s p q v)
  | .qrel p q =>
    .done (if v.getLsbD 1 then s.event (.qrelAbort p q) else if v.getLsbD 0 then s.event (.qrelResume p q) else s)
  | .mon _ | .gstat _ => .done s
  | .gate t =>
    if !gateAllowed s t v then trapHere s 0x06 va
    else if newWays (s.tile t).ctl v = 0 then .done (applyGate s t v)
    else
      let pid := pidOf s t
      let tags := dirtyTags (s.part pid) t
      if tags.isEmpty ∧ s.me.writebackOut = 0 then .done (applyGate s t v)
      else waitRetry (tags.foldl (fun s g => cleanLine s pid g [] (some (s.cur.tile, s.cur.thread))) s)

/-- The register that an access names, with the checks of R350: 8 bytes, in the register space, granted. -/
def windowAccess (s : State) (va : Word) (n : Nat) (f : WindowReg → Res) : Res :=
  if n ≠ 8 then trapHere s 0x06 va
  else
    match windowReg (va.toNat % 2 ^ 48) with
    | none => trapHere s 0x06 va
    | some r => if windowGranted s r then f r else trapHere s 0x06 va

end Sys2Proof.Machine
end

