-- ==== Sys2Proof/Machine/Global.lean ====
section
/-! DEFINITION. LDG, STG, atomics, compare-and-swap and reductions (spec 08 R200 to R205, 04 R105, 06 R143). -/

namespace Sys2Proof.Machine

/-- The access goes to its line's home slice (R87). -/
def issueGlobal (s : State) (va : Nat) (act : GlobalAct) : State :=
  s.event (.homeSliceAccess ⟨pidOf s s.cur.tile, flatTag va, s.cur.tile, s.cur.thread, act⟩)

/-- A precise trap of an access (R200). -/
def preciseTrap (va : Word) (s : State) (c sub : BitVec 8) : Res := trapSub s c sub va

/-- The thread waits for the reply of its home slice. -/
def awaitReply (s : State) : Res := .hold (s.setMe { s.me with st := .waiting .reply })

/-- LDG (R200). -/
def bodyLdg (d a : GReg) (sz : BitVec 2) (i : BitVec 11) (s : State) : Res :=
  let n := 2 ^ sz.toNat
  let va := ea s a sz.toNat i
  if s.me.pl ≠ 0 ∧ inWindow va.toNat then windowAccess s va n (fun r => .done (writeReg s d (windowRead s r)))
  else if va.toNat % n ≠ 0 then trapHere s 0x03 va
  else withPage s va false (preciseTrap va) (fun s => awaitReply (issueGlobal s va.toNat (.load (va.toNat % 1024) n d)))

/-- STG (R200). -/
def bodyStg (d a : GReg) (sz : BitVec 2) (i : BitVec 11) (s : State) : Res :=
  let n := 2 ^ sz.toNat
  let va := ea s a sz.toNat i
  if s.me.pl ≠ 0 ∧ inWindow va.toNat then windowAccess s va n (fun r => windowWrite s va r (s.g d))
  else if va.toNat % n ≠ 0 then trapHere s 0x03 va
  else withPage s va true (preciseTrap va) (fun s =>
    .done ((issueGlobal s va.toNat (.store (va.toNat % 1024) n (s.g d))).setMe
      { s.me with globalOut := s.me.globalOut + 1 }))

/-- ATOM (R201 to R203). -/
def bodyAtom (d a b : GReg) (g w : BitVec 1) (o : BitVec 4) (s : State) : Res :=
  let n := redBytes o w
  let va := s.g a
  if g = 0 then
    withOffset s va n (fun s off => readingStore s off n (fun s =>
      let old := storeLoad s.here off n
      let v := atomOpResult o n old ((s.g b).toNat % 2 ^ (8 * n))
      let s := s.setHere (storePut s.here off n v.1)
      let s := s.setMe { s.me with fflags := s.me.fflags ||| v.2 }
      .done (writeReg s d (atomReturn w old))))
  else if va.toNat % n ≠ 0 then trapHere s 0x03 va
  else withPage s va true (preciseTrap va) (fun s =>
    awaitReply (issueGlobal s va.toNat (.atom (va.toNat % 1024) o w (s.g b) d)))

/-- CAS (R204). -/
def bodyCas (d a b : GReg) (g w : BitVec 1) (s : State) : Res :=
  let n := redBytes 0 w
  let va := s.g a
  if g = 0 then
    withOffset s va n (fun s off => readingStore s off n (fun s =>
      let old := storeLoad s.here off n
      let s := if old = (s.g d).toNat % 2 ^ (8 * n) then s.setHere (storePut s.here off n (s.g b).toNat) else s
      .done (writeReg s d (atomReturn w old))))
  else if va.toNat % n ≠ 0 then trapHere s 0x03 va
  else withPage s va true (preciseTrap va) (fun s =>
    awaitReply (issueGlobal s va.toNat (.cas (va.toNat % 1024) w (s.g d) (s.g b) d)))

/-- The next sequence number of the thread's reductions (R205, R367). -/
def nextRed (h : Thread) : Nat := tabGet 0 h.redSeq 0 + 1
def takeRed (h : Thread) : Thread := { h with redSeq := tabPut h.redSeq 0 (nextRed h) }

/-- A RED whose translation fails is logged, not trapped (R205, R366). -/
def redFault (va : Word) (b : GReg) (w : BitVec 1) (o : BitVec 4) (s : State) (c : BitVec 8) (_ : BitVec 8) : Res :=
  let q := nextRed s.me
  let s := usedWalks (s.setMe (takeRed s.me))
  .done (reductionFault s s.cur.tile (if c = 0x06 then 1 else 2) 0 s.cur.thread va.toNat (s.g b).toNat
    (0x40 * 2 + 16 * w.toNat + o.toNat) c.toNat q)

/-- RED (R205): to the scatter-reduce unit of the bank group, or to the home slice. -/
def bodyRed (a b : GReg) (g w : BitVec 1) (o : BitVec 4) (s : State) : Res :=
  let n := redBytes o w
  let va := s.g a
  if va.toNat % n ≠ 0 then trapHere s 0x03 va
  else if g = 0 then
    if unitHasRoom s.here va.toNat s.cur.tile (32 + s.cur.thread) then
      let t : RedToken := ⟨va.toNat, o, w, s.g b, s.cur.tile, 32 + s.cur.thread, nextRed s.me, 0, s.cur.thread⟩
      let s := s.setMe { takeRed s.me with redOut := s.me.redOut + 1 }
      .done (pushToken s s.cur.tile t)
    else waitRetry s
  else withPage s va true (redFault va b w o) (fun s =>
    let q := nextRed s.me
    let s := issueGlobal s va.toNat (.red (va.toNat % 1024) o w (s.g b) s.cur.thread q)
    .done (s.setMe { takeRed s.me with redOut := s.me.redOut + 1, globalOut := s.me.globalOut + 1 }))

def execLdg (d a : GReg) (p : PReg) (sz : BitVec 2) (i : BitVec 11) (s : State) : Out := seq p (bodyLdg d a sz i) s
def execStg (d a : GReg) (p : PReg) (sz : BitVec 2) (i : BitVec 11) (s : State) : Out := seq p (bodyStg d a sz i) s
def execAtom (d a b : GReg) (p : PReg) (g w : BitVec 1) (o : BitVec 4) (s : State) : Out := seq p (bodyAtom d a b g w o) s
def execCas (d a b : GReg) (p : PReg) (g w : BitVec 1) (s : State) : Out := seq p (bodyCas d a b g w) s
def execRed (a b : GReg) (p : PReg) (g w : BitVec 1) (o : BitVec 4) (s : State) : Out := seq p (bodyRed a b g w o) s

end Sys2Proof.Machine
end

