-- ==== Sys2Proof/Machine/Messages.lean ====
section
/-! DEFINITION. SEND, SENDP, QPOLL and QWAIT (spec 08 R186, R207 to R211, 06 R142, 02 R35). -/

namespace Sys2Proof.Machine

/-- The absolute tile that an identifier names: relative to the placement at U, within the partition's rectangle at S and
M (R20, R186, R326); none outside. -/
def resolveTile (s : State) (t : Nat) : Option Nat :=
  if s.me.pl = 0 then
    match s.here.place with
    | none => none
    | some p => if t % 64 < p.w ∧ t / 64 < p.h then some (64 * (p.y0 + t / 64) + p.x0 + t % 64) else none
  else if holdsTile (s.part (pidOf s s.cur.tile)) t then some t else none

/-- Fields of a remote address word (Table 08-5). -/
def remoteOff (w : Word) : Nat := w.toNat % 2 ^ 25
def remoteTile (w : Word) : Nat := w.toNat / 2 ^ 25 % 2 ^ 12
def remoteVc (w : Word) : Nat := w.toNat / 2 ^ 37 % 32
def remoteKind (w : Word) : BitVec 2 := w.extractLsb' 42 2

/-- A send queue of a tile: q2 or q3 (R208). -/
def sendQueue (x : Tile) (q : BitVec 2) : List MeshFlit := if q = 3 then x.core.send[1] else x.core.send[0]
def setSend (x : Tile) (q : BitVec 2) (l : List MeshFlit) : Tile :=
  { x with core := { x.core with send := if q = 3 then x.core.send.set 1 l else x.core.send.set 0 l } }

/-- Who waits for a flit of the thread: a message as its thread, a remote write as 40 plus its thread (R102, R104). -/
def sendOwner (thread : Nat) (body : MeshBody) : Nat :=
  match body with
  | .write _ _ _ => 40 + thread
  | _ => thread

/-- The flit is placed in the send queue and begins its way: one token sent (R208, R210). -/
def sendFrom (s : State) (q : BitVec 2) (dst vc : Nat) (body : MeshBody) : State :=
  let x := s.here
  let owner := sendOwner s.cur.thread body
  let f : MeshFlit := ⟨dst, s.cur.tile, vc, 0, owner, body⟩
  let s := s.setHere (setSend { x with sent := x.sent + 1 } q (sendQueue x q ++ [f]))
  let s := s.setMe { s.me with
    remoteOut := s.me.remoteOut + 1, writesOut := s.me.writesOut + (if owner = s.cur.thread then 0 else 1) }
  sendFlit s s.cur.tile dst vc owner body

/-- SEND (R207, R208). -/
def bodySend (a b : GReg) (q : BitVec 2) (s : State) : Res :=
  let w := s.g a
  if w.toNat ≥ 2 ^ 44 ∨ remoteOff w ≠ 0 ∨ 2 ≤ (remoteKind w).toNat then trapHere s 0x06 w
  else
    match resolveTile s (remoteTile w) with
    | none => trapHere s 0x06 w
    | some dst =>
      if 32 ≤ (sendQueue s.here q).length then waitRetry s
      else .done (sendFrom s q dst (remoteVc w) (.message (remoteKind w == 1) (s.g b)))

/-- SENDP (R207, R209): KIND 1 and 2 are releases. -/
def bodySendp (a b : GReg) (q : BitVec 2) (s : State) : Res :=
  let w := s.g a
  if w.toNat ≥ 2 ^ 44 ∨ remoteKind w = 3 then trapHere s 0x06 w
  else
    match resolveTile s (remoteTile w) with
    | none => trapHere s 0x06 w
    | some dst =>
      if remoteOff w % 8 ≠ 0 then trapHere s 0x03 w
      else if remoteOff w ≥ Config.storeSize then trapHere s 0x06 w
      else if 32 ≤ (sendQueue s.here q).length then waitRetry s
      else
        let go (s : State) : Res := .done (sendFrom s q dst (remoteVc w) (.write (remoteOff w) (s.g b) (remoteKind w)))
        if remoteKind w = 0 then go s else releasing s go

/-- QPOLL: the number of entries; it never parks (R211). -/
def bodyQpoll (d : GReg) (q : BitVec 2) (s : State) : Res :=
  putReg d (fun s => BitVec.ofNat 64 (recvQueue s.here (q == 1)).length) s

/-- QWAIT: the oldest entry, or the thread parks (R142, R211). -/
def bodyQwait (d : GReg) (q : BitVec 2) (s : State) : Res :=
  match popQueue s s.cur.tile q with
  | some (v, s) => .done (writeReg s d v)
  | none => .hold (s.setMe { s.me with st := .parked (.queue q d) })

def execSend (a b : GReg) (p : PReg) (q : BitVec 2) (s : State) : Out := seq p (bodySend a b q) s
def execSendp (a b : GReg) (p : PReg) (q : BitVec 2) (s : State) : Out := seq p (bodySendp a b q) s
/-- q0 is T7's (R35). -/
def execQpoll (d : GReg) (p : PReg) (q : BitVec 2) (s : State) : Out := seqStep 0 (q == 0) p (bodyQpoll d q) s
def execQwait (d : GReg) (p : PReg) (q : BitVec 2) (s : State) : Out := seqStep 0 (q == 0) p (bodyQwait d q) s

end Sys2Proof.Machine
end

