-- ==== Sys2Proof/Machine/StoreAccess.lean ====
section
/-! DEFINITION. LD, LDS, ST and the full/empty operations (spec 08 R196 to R199, 04 R75 to R78, R96). -/

namespace Sys2Proof.Machine

/-- Sign extension of the low 8n bits. -/
def signBytes (n v : Nat) : Word :=
  Word.ofInt (if v < 2 ^ (8 * n - 1) then (v : Int) else (v : Int) - 2 ^ (8 * n))

/-- LD and LDS (R196); an RLX load is performed in program order, which R96 permits (log 6). -/
def bodyLoad (sgn : Bool) (d a : GReg) (sz : BitVec 2) (i : BitVec 11) (s : State) : Res :=
  let n := 2 ^ sz.toNat
  withOffset s (ea s a sz.toNat i) n (fun s off =>
    readingStore s off n (fun s =>
      let v := storeLoad s.here off n
      .done (writeReg s d (if sgn then signBytes n v else BitVec.ofNat 64 v))))

/-- ST (R196). -/
def bodyStore (d a : GReg) (sz : BitVec 2) (i : BitVec 11) (s : State) : Res :=
  let n := 2 ^ sz.toNat
  withOffset s (ea s a sz.toNat i) n (fun s off => .done (s.setHere (storePut s.here off n (s.g d).toNat)))

/-- ST with RLX: performed now or deferred, as a free choice says (R96, log 6). -/
def bodyStoreRelaxed (d a : GReg) (sz : BitVec 2) (i : BitVec 11) (s : State) : Res :=
  let n := 2 ^ sz.toNat
  withOffset s (ea s a sz.toNat i) n (fun s off =>
    let bs := natBytes n (s.g d).toNat
    let later := Config.relaxDeferred s.free
    let s := s.nextFree
    if later then .done (s.setMe { s.me with relaxed := s.me.relaxed ++ [(off, bs)] })
    else .done (s.setHere (storeWrite s.here off bs)))

/-- The thread parks with a waiter entry at the word's bank (R77). -/
def parkOn (s : State) (w : Nat) (k : WaiterKind) : Res :=
  let x := s.here
  let s := s.setHere { x with store := { x.store with waiters := x.store.waiters ++ [⟨w, k⟩] } }
  .hold (s.setMe { s.me with st := .parked (.word w) })

/-- LDF (Table 04-2). -/
def bodyLdf (d a : GReg) (i : BitVec 11) (s : State) : Res :=
  withOffset s (ea s a 3 i) 8 (fun s off =>
    if isFull s.here (off / 8) then
      readingStore s off 8 (fun s => .done (writeReg s d (BitVec.ofNat 64 (storeLoad s.here off 8))))
    else parkOn s (off / 8) (.ldf s.cur.thread d))

/-- LDFE: an acquire; the word becomes empty (Table 04-2). -/
def bodyLdfe (d a : GReg) (i : BitVec 11) (s : State) : Res :=
  withOffset s (ea s a 3 i) 8 (fun s off =>
    if isFull s.here (off / 8) then
      readingStore s off 8 (fun s =>
        .done (changeBit (writeReg s d (BitVec.ofNat 64 (storeLoad s.here off 8))) s.cur.tile (off / 8) false))
    else parkOn s (off / 8) (.ldfe s.cur.thread d))

/-- STEF: a release; waits for an empty word (Table 04-2). -/
def bodyStef (d a : GReg) (i : BitVec 11) (s : State) : Res :=
  withOffset s (ea s a 3 i) 8 (fun s off =>
    releasing s (fun s =>
      if isFull s.here (off / 8) then parkOn s (off / 8) (.stef s.cur.thread (s.g d))
      else .done (performStf s s.cur.tile (off / 8) (s.g d))))

/-- STF: a release (Table 04-2). -/
def bodyStf (d a : GReg) (i : BitVec 11) (s : State) : Res :=
  withOffset s (ea s a 3 i) 8 (fun s off =>
    releasing s (fun s => .done (performStf s s.cur.tile (off / 8) (s.g d))))

/-- SETE and SETF (Table 04-2, R198). -/
def bodySetBit (b : Bool) (a : GReg) (i : BitVec 11) (s : State) : Res :=
  withOffset s (ea s a 3 i) 8 (fun s off => .done (changeBit s s.cur.tile (off / 8) b))

/-- PEEKF: the bit in bit 0 (R198). -/
def bodyPeekf (d a : GReg) (i : BitVec 11) (s : State) : Res :=
  withOffset s (ea s a 3 i) 8 (fun s off => .done (writeReg s d (if isFull s.here (off / 8) then 1 else 0)))

def execLd (d a : GReg) (p : PReg) (sz : BitVec 2) (i : BitVec 11) (s : State) : Out := seq p (bodyLoad false d a sz i) s
def execLds (d a : GReg) (p : PReg) (sz : BitVec 2) (i : BitVec 11) (s : State) : Out := seq p (bodyLoad true d a sz i) s
def execSt (d a : GReg) (p : PReg) (sz : BitVec 2) (i : BitVec 11) (s : State) : Out := seq p (bodyStore d a sz i) s
def execLdf (d a : GReg) (p : PReg) (i : BitVec 11) (s : State) : Out := seq p (bodyLdf d a i) s
def execLdfe (d a : GReg) (p : PReg) (i : BitVec 11) (s : State) : Out := seq p (bodyLdfe d a i) s
def execStef (d a : GReg) (p : PReg) (i : BitVec 11) (s : State) : Out := seq p (bodyStef d a i) s
def execStf (d a : GReg) (p : PReg) (i : BitVec 11) (s : State) : Out := seq p (bodyStf d a i) s
def execSete (a : GReg) (p : PReg) (i : BitVec 11) (s : State) : Out := seq p (bodySetBit false a i) s
def execSetf (a : GReg) (p : PReg) (i : BitVec 11) (s : State) : Out := seq p (bodySetBit true a i) s
def execPeekf (d a : GReg) (p : PReg) (i : BitVec 11) (s : State) : Out := seq p (bodyPeekf d a i) s

end Sys2Proof.Machine
end

