-- ==== Sys2Proof/Machine/Streams.lean ====
section
/-! DEFINITION. Completion numbers, stream engines, bulk copies and vertical transfers (spec 09 R215 to R228,
04 R81, R101, 16 R357, 18 R404, R405). -/

namespace Sys2Proof.Machine

/-! ### Completion numbers (R216, R217) -/

/-- An engine instruction issues once the thread's store writes are visible (R216). -/
def withEngines (s : State) (f : State → Res) : Res := afterRelaxed s f

/-- The thread takes the tile's next completion number, once every number that will lie 256 or more below it is posted, so that
at most 256 are outstanding; never 2^32 (R217). -/
def takeNumber (s : State) (v : Word) (f : State → BitVec 32 → Res) : Res :=
  let e := s.here.eng
  if e.pending.any (fun k => decide (k.toNat + 256 ≤ e.cnum.toNat + 1)) then waitRetry s
  else if e.cnum = BitVec.allOnes 32 then trapHere s 0x06 v
  else
    let n := e.cnum + 1
    let s := s.setHere { s.here with eng := { e with cnum := n, pending := e.pending ++ [n] } }
    f (s.setMe { s.me with lastCnum := n }) n

/-- A stream context of a tile; the number is taken modulo 16. -/
def Tile.stream (x : Tile) (c : Nat) : Stream := x.eng.streams[c % 16]'(Nat.mod_lt _ (by decide))
def Tile.setStream (x : Tile) (c : Nat) (v : Stream) : Tile :=
  { x with eng := { x.eng with streams := x.eng.streams.set (c % 16) v (Nat.mod_lt _ (by decide)) } }

/-! ### Endpoint words (Table 09-2) -/

def endKind (w : Word) : Nat := w.toNat / 2 ^ 60
def endOff (w : Word) : Nat := w.toNat % 2 ^ 25
def endTile (w : Word) : Nat := w.toNat / 2 ^ 25 % 2 ^ 12
def endVc (w : Word) : Nat := w.toNat / 2 ^ 37 % 32
def endBuf (w : Word) : Nat := w.toNat / 2 ^ 15 % 16

/-- The bits that a kind names. -/
def endMask (k : Nat) : Nat :=
  match k with
  | 0 => 2 ^ 25 - 1
  | 1 | 8 => 2 ^ 42 - 1
  | 2 => 2 ^ 19 - 1
  | 3 | 5 => 2 ^ 57 - 1
  | 6 => 2 ^ 6 - 1
  | _ => 0

/-- A permitted kind whose other bits are 0 (R218). -/
def endOk (kinds : List Nat) (w : Word) : Bool :=
  kinds.contains (endKind w) && (w.toNat % 2 ^ 60 == w.toNat % 2 ^ 60 &&& endMask (endKind w))

/-- OFF, BOFF, VA or PE: where the pattern begins (R221). -/
def endBase (w : Word) : Nat :=
  match endKind w with
  | 0 | 1 | 8 => endOff w
  | 2 => w.toNat % 2 ^ 15
  | 3 | 5 => w.toNat % 2 ^ 57
  | _ => w.toNat % 2 ^ 6

/-- The first address beyond an endpoint (R220, Table 09-2). -/
def endLimit (k : Nat) : Nat :=
  match k with
  | 0 | 1 => Config.storeSize
  | 2 => 18432
  | 3 | 5 => 2 ^ 57
  | _ => 64

/-! ### Descriptors (Table 09-3) -/

/-- A signed field of `n` bytes. -/
def signedField (bs : List Byte) (o n : Nat) : Int := (signBytes n (bytesNat ((bs.drop o).take n))).toInt
def field (bs : List Byte) (o n : Nat) : Nat := bytesNat ((bs.drop o).take n)

def readDescriptor (bs : List Byte) : Descriptor where
  src := BitVec.ofNat 64 (field bs 0 8)
  dst := BitVec.ofNat 64 (field bs 8 8)
  cnt := Vector.ofFn (fun (k : Fin 4) => field bs (16 + 2 * k.val) 2)
  sstr := Vector.ofFn (fun (k : Fin 4) => signedField bs (24 + 4 * k.val) 4)
  dstr := Vector.ofFn (fun (k : Fin 4) => signedField bs (40 + 4 * k.val) 4)
  esz := field bs 56 1
  lastf := field bs 57 1 % 2 == 1

def Descriptor.total (d : Descriptor) : Nat := d.cnt.toList.foldl (· * ·) 1

/-- The displacement of element e under strides (R221): CNT0 is innermost. -/
def displacement (d : Descriptor) (st : Vector Int 4) (e : Nat) : Int :=
  let n := d.cnt
  let i0 := e % n[0]
  let i1 := e / n[0] % n[1]
  let i2 := e / n[0] / n[1] % n[2]
  let i3 := e / n[0] / n[1] / n[2]
  i0 * st[0] + i1 * st[1] + i2 * st[2] + i3 * st[3]

def srcAddr (d : Descriptor) (e : Nat) : Nat := ((endBase d.src : Int) + displacement d d.sstr e).toNat
def dstAddr (d : Descriptor) (e : Nat) : Nat := ((endBase d.dst : Int) + displacement d d.dstr e).toNat

/-- Lowest and highest displacement of a pattern. -/
def lowest (d : Descriptor) (st : Vector Int 4) : Int :=
  (List.range 4).foldl (fun a k => a + min 0 (((nth d.cnt.toList k 1 : Nat) - 1 : Int) * nth st.toList k 0)) 0
def highest (d : Descriptor) (st : Vector Int 4) : Int :=
  (List.range 4).foldl (fun a k => a + max 0 (((nth d.cnt.toList k 1 : Nat) - 1 : Int) * nth st.toList k 0)) 0

/-- The form checks of R220, step 1, on the descriptor's fields. -/
def formOk (bs : List Byte) (d : Descriptor) : Bool :=
  endOk [0, 1, 3, 5] d.src && endOk [0, 1, 2, 3, 6] d.dst && d.cnt.all (· != 0) && decide (d.total ≤ 2 ^ 28 - 1) &&
    decide (d.esz ≤ 7) && decide (field bs 57 1 < 2) && decide (field bs 58 6 = 0) &&
    !(endKind d.dst == 6 && (d.esz != 2 || d.dstr.any (· != 0))) &&
    !(d.lastf && !(decide (endKind d.dst < 2) && decide (d.esz ≤ 3) &&
      decide (((endBase d.dst : Int) + displacement d d.dstr (d.total - 1)) % 8 = 0)))

/-- Bases and strides are multiples of the element size (R220, step 2). -/
def alignedOk (d : Descriptor) : Bool :=
  let n := 2 ^ d.esz
  decide (endBase d.src % n = 0) && (endKind d.dst == 6 || decide (endBase d.dst % n = 0)) &&
    d.sstr.all (fun x => x % (n : Int) == 0) && d.dstr.all (fun x => x % (n : Int) == 0)

/-- The pattern lies within its endpoint (R220, step 3). -/
def insideOk (s : State) (d : Descriptor) (w : Word) (st : Vector Int 4) (n : Nat) : Bool :=
  decide (0 ≤ (endBase w : Int) + lowest d st) && decide ((endBase w : Int) + highest d st + n ≤ endLimit (endKind w)) &&
    (endKind w != 1 || (resolveTile s (endTile w)).isSome)

/-- The pages of a pattern in element order, or its first address whose page is not at hand (R220, step 4; R357). -/
def patternPages (s : State) (addr : Nat → Nat) (write : Bool) (e n : Nat) (acc : List Page) : List Page × Option Nat :=
  match n with
  | 0 => (acc, none)
  | k + 1 =>
    if acc.any (fun g => coversVa g (addr e)) then patternPages s addr write (e + 1) k acc
    else
      match pageNow s (addr e) write with
      | some g => patternPages s addr write (e + 1) k (acc ++ [g])
      | none => (acc, some (addr e))

/-- The pattern's pages are translated at BIND: an address whose page is not at hand is walked or fails (R220, R356). -/
def withPattern (s : State) (addr : Nat → Nat) (write : Bool) (n : Nat) (f : State → List Page → Res) : Res :=
  match patternPages s addr write 0 n [] with
  | (ps, none) => f s ps
  | (ps, some va) =>
    withPage s (BitVec.ofNat 64 va) write (fun s c sub => trapSub s c sub (BitVec.ofNat 64 va)) (fun s => f s ps)

/-- Stream-TLB entries pinned by the tile's bound and running contexts (R357). -/
def pinned (x : Tile) : Nat := x.eng.streams.toList.foldl (fun n c => n + c.pages.length) 0

/-- The absolute tile of an endpoint of kind 0 or 1 (R20). -/
def copyTile (s : State) (w : Word) : Option Nat := if endKind w = 1 then resolveTile s (endTile w) else some s.cur.tile

/-- STRM.BIND (R220). -/
def bodyStrmBind (a b : GReg) (s : State) : Res :=
  let off := s.g a
  let ctx := s.g b
  if 16 ≤ ctx.toNat then trapHere s 0x06 ctx
  else if off.toNat % 64 ≠ 0 ∨ off.toNat + 64 > Config.storeSize then trapHere s 0x06 off
  else withEngines s (fun s =>
    match heldIn s.here off.toNat 64 with
    | some k => waitRetry (wakeBank s s.cur.tile k)
    | none => readingStore s off.toNat 64 fun s =>
      let c := s.here.stream ctx.toNat
      let bs := storeBytes s.here off.toNat 64
      let d := readDescriptor bs
      let n := 2 ^ d.esz
      if c.st = 1 ∨ c.st = 2 then trapHere s 0x06 ctx
      else if !formOk bs d then trapHere s 0x06 off
      else if !alignedOk d then trapHere s 0x03 off
      else if !insideOk s d d.src d.sstr n ∨ !insideOk s d d.dst d.dstr (if endKind d.dst = 6 then 1 else n) then
        trapHere s 0x06 off
      else
        let count (k : Nat) (kinds : List Nat) : Nat := if kinds.contains k then d.total else 0
        withPattern s (srcAddr d) false (count (endKind d.src) [3, 5]) (fun s sp =>
          withPattern s (dstAddr d) true (count (endKind d.dst) [3]) (fun s dp =>
            if pinned s.here + sp.length + dp.length > 128 then trapHere s 0x06 ctx
            else
              .done (s.setHere (s.here.setStream ctx.toNat { Stream.reset with
                st := 1, cnum := c.cnum, desc := some d, pages := sp ++ dp, thread := s.cur.thread, node := c.node
                srcTile := (copyTile s d.src).getD s.cur.tile, dstTile := (copyTile s d.dst).getD s.cur.tile })))))

/-- A bound context begins (R223, R49). -/
def startStream (s : State) (tile ctx : Nat) (n : BitVec 32) : State :=
  let x := s.tile tile
  let c := x.stream ctx
  (s.setTile tile (x.setStream ctx { c with st := 2, cnum := n, can := false, done := 0, next := 0, out := 0 })).after 1
    (.streamElement tile ctx)

/-- STRM.START (R223). -/
def bodyStrmStart (a : GReg) (s : State) : Res :=
  let ctx := s.g a
  if 16 ≤ ctx.toNat then trapHere s 0x06 ctx
  else withEngines s (fun s =>
    if (s.here.stream ctx.toNat).st ≠ 1 then trapHere s 0x06 ctx
    else takeNumber s ctx (fun s n => .done (startStream s s.cur.tile ctx.toNat n)))

/-- STRM.CANCEL (R224). -/
def bodyStrmCancel (a : GReg) (s : State) : Res :=
  let ctx := s.g a
  if 16 ≤ ctx.toNat then trapHere s 0x06 ctx
  else withEngines s (fun s =>
    let c := s.here.stream ctx.toNat
    if c.st ≠ 2 then trapHere s 0x06 ctx
    else .done ((s.setHere (s.here.setStream ctx.toNat { c with can := true })).event (.streamComplete s.cur.tile ctx.toNat)))

/-- Context status word (Table 09-4). -/
def streamStatus (c : Stream) : Word :=
  BitVec.ofNat 64 (c.st.toNat + 4 * boolNat c.can + 16 * c.done.toNat + 2 ^ 32 * c.cnum.toNat)

/-- STRM.STAT (R225). -/
def bodyStrmStat (d a : GReg) (s : State) : Res :=
  let v := s.g a
  withEngines s (fun s =>
    let e := s.here.eng
    if v.toNat < 16 then .done (writeReg s d (streamStatus (s.here.stream v.toNat)))
    else if h : v.toNat - 0x10 < 4 then .done (writeReg s d (zx e.vcnt[v.toNat - 0x10]))
    else if v = 0x20 then .done (writeReg s d (zx s.me.lastCnum))
    else if v = 0x21 then .done (writeReg s d (BitVec.ofNat 64 e.csdiv))
    else trapHere s 0x06 v)

def execStrmBind (a b : GReg) (p : PReg) (s : State) : Out := seq p (bodyStrmBind a b) s
def execStrmStart (a : GReg) (p : PReg) (s : State) : Out := seq p (bodyStrmStart a) s
def execStrmCancel (a : GReg) (p : PReg) (s : State) : Out := seq p (bodyStrmCancel a) s
def execStrmStat (d a : GReg) (p : PReg) (s : State) : Out := seq p (bodyStrmStat d a) s

/-! ### Elements (R221, R222) -/

/-- A line of the LLC is valid at its home slice; otherwise its fill begins. Gated ways are woken first (R79). -/
def lineReady (s : State) (pid : Nat) (tag : BitVec 60) : State × Option Line :=
  let home := homeSlice (s.part pid) tag
  if (s.tile home).ctl.wayOff = 0xFFFF then (wakeWay s home, none)
  else
    match lineHit (s.part pid) tag with
    | some l => (s, some l)
    | none => (startFill s pid tag, none)

/-- The PE of a tile that PE[5:0] = 8j + i names, by absolute fabric coordinate (Table 09-2, R21). -/
def tilePe (tile n : Nat) : Nat := 512 * (8 * (tile / 64) + n / 8 % 8) + 8 * (tile % 64) + n % 8

/-- The arcs of a live launch that leave a node, with their numbers. -/
def arcsFrom (s : State) (pid lnum node : Nat) : List (Nat × ArcImage) :=
  match (tabGet Binding.reset (s.part pid).bindings (s.launch pid lnum).bind).image with
  | none => []
  | some i => (List.zip (List.range i.arcs.length) i.arcs).filter (fun (_, a) => a.fromNode == node)

/-- One token crosses each arc of a node between units of one tile: sent and received there (R47). -/
def countToken (s : State) (tile node : Nat) : State :=
  match (s.tile tile).place with
  | none => s
  | some pl =>
    let s := s.modTile tile (fun x => { x with sent := x.sent + 1, received := x.received + 1 })
    match imageOf s pl.pid pl.lnum with
    | none => s
    | some i =>
      (arcsFrom s pl.pid pl.lnum node).foldl (fun s (n, a) =>
        let l := s.launch pl.pid pl.lnum
        let x := tabGet ArcState.reset l.arcs n
        arcTakes (s.setLaunch pl.pid pl.lnum { l with arcs := tabPut l.arcs n { x with sent := x.sent + 1 } }) i pl.pid pl.lnum
          tile n a 1) s

/-- The drain tokens of a node's output arcs (R222, R298). -/
def drainNode (s : State) (tile node : Nat) : State :=
  match (s.tile tile).place with
  | none => s
  | some pl => (arcsFrom s pl.pid pl.lnum node).foldl (fun s (n, _) => s.event (.drainToken tile n)) s

/-- What reading an element's source gives: its bytes, or the element must be tried again in the state. -/
inductive Fetched where
  | bytes (bs : List Byte)
  | again
  deriving DecidableEq, Repr

/-- Reads 2^ESZ bytes at the source of the next element (R221). -/
def readSource (s : State) (tile ctx : Nat) (c : Stream) (d : Descriptor) : State × Fetched :=
  let n := 2 ^ d.esz
  let a := srcAddr d c.next
  match endKind d.src with
  | 0 | 1 =>
    let t := c.srcTile
    match heldIn (s.tile t) a n with
    | some b => (wakeBank s t b, .again)
    | none =>
      match readWords s tile 1 (inStore t a n) with
      | (s, true) => (s, .again)
      | (s, false) => (reachBanks s t a n, .bytes (storeBytes (s.tile t) a n))
  | 3 =>
    match lineReady s (pidOf s tile) (flatTag a) with
    | (s, some l) =>
      if lost s (· == .line (pidOf s tile) (flatTag a)) then (strikeTile s tile 2, .again)
      else (s, .bytes ((l.data.drop (a % 1024)).take n))
    | (s, none) => (s, .again)
  | _ =>
    match c.fetched with
    | some bs => (s, .bytes bs)
    | none =>
      match c.pages.find? (fun g => coversVa g a) with
      | none => (s, .again)
      | some g =>
        let pa := pageAddr g a
        if inHost pa then (s, .bytes (physBytes s pa n))
        else if c.asked then (s, .again)
        else
          let s := s.modTile tile (fun x => x.setStream ctx { c with asked := true })
          (sendDemand s (chanOf pa) ⟨pidOf s tile, 0, pa % 2 ^ 31 / 1024, .stream tile ctx (pa % 2 ^ 31) n, none⟩, .again)

/-- A demand slot returns the bytes of a kind 5 element. -/
def streamFetched (s : State) (ch tile ctx off n : Nat) : State :=
  (s.modTile tile (fun x => x.setStream ctx { x.stream ctx with fetched := some (memBytes (s.chan ch).mem off n) })).event
    (.streamElement tile ctx)

/-- The element counts as performed at once. -/
def elementDone (x : Tile) (ctx : Nat) : Tile := let c := x.stream ctx; x.setStream ctx { c with done := c.done + 1 }

/-- Writes an element at its destination; none where it must be tried again (R222). -/
def writeDest (s : State) (tile ctx : Nat) (c : Stream) (d : Descriptor) (bs : List Byte) : State × Bool :=
  let a := dstAddr d c.next
  let last := c.next + 1 = d.total
  let full := d.lastf && last && !c.can
  match endKind d.dst with
  | 0 =>
    match heldIn (s.tile tile) a bs.length with
    | some b => (wakeBank s tile b, false)
    | none =>
      let s := (reachBanks s tile a bs.length).modTile tile (fun x => elementDone (storeWrite x a bs) ctx)
      (if full then changeBit s tile (a / 8) true else s, true)
  | 1 =>
    let s := s.modTile tile (fun x => x.setStream ctx { x.stream ctx with out := (x.stream ctx).out + 1 })
    (sendFlit s tile c.dstTile (endVc d.dst) (8 + ctx) (.bytes a bs full), true)
  | 2 =>
    let x := s.tile tile
    let b := endBuf d.dst
    have h : b < 16 := Nat.mod_lt _ (by decide)
    let o := x.matrix.ob[b]
    if c.next = 0 ∧ o.full then (s, false)
    else
      let o := { o with mem := memWrite o.mem a bs, full := o.full || last }
      (s.setTile tile (elementDone { x with matrix := { x.matrix with ob := x.matrix.ob.set b o h } } ctx), true)
  | 3 =>
    let pid := pidOf s tile
    match lineReady s pid (flatTag a) with
    | (s, some l) =>
      let s := writeLine s pid tile (flatTag a) l (a % 1024) bs.length (bytesNat bs)
      (s.modTile tile (fun x => elementDone x ctx), true)
    | (s, none) => (s, false)
  | _ =>
    let k := tilePe tile (endBase d.dst)
    let p := s.pe k
    if p.m.full then (s, false)
    else
      let s := s.setPe k { p with m := ⟨BitVec.ofNat 32 (bytesNat bs), true⟩ }
      let s := s.modTile tile (fun x => elementDone x ctx)
      (match c.node with | some n => countToken s tile n | none => s, true)

/-! ### The rate of an engine: 128 bytes a cycle, shared among its contexts and transfers (R221, R228) -/

/-- Bytes that an engine of a tile has moved in this cycle. -/
def movedNow (s : State) (tile eng : Nat) : Nat :=
  let m := (s.tile tile).eng.moved[eng % 2]'(Nat.mod_lt _ (by decide))
  if m.1 = s.cycle then m.2 else 0

/-- An engine moves more bytes in this cycle. -/
def moveBytes (s : State) (tile eng n : Nat) : State :=
  s.modTile tile (fun x => { x with eng := { x.eng with
    moved := x.eng.moved.set (eng % 2) (s.cycle, movedNow s tile eng + n) (Nat.mod_lt _ (by decide)) } })

/-- A running context of the engine was left without bytes in the cycle before and has not had its turn. -/
def othersWait (s : State) (tile ctx : Nat) : Bool :=
  (List.range 8).any (fun k => k != ctx % 8 && ((s.tile tile).stream (ctx / 8 * 8 + k)).short)

/-- The context's turn: it may move `n` bytes now, waits behind those left out in the cycle before, or is left out itself. -/
def takeTurn (s : State) (tile ctx n : Nat) : State × Option Bool :=
  let c := (s.tile tile).stream ctx
  let s := s.modTile tile (fun x => x.setStream ctx { c with short := false })
  if !c.short && othersWait s tile ctx then (s, none)
  else if movedNow s tile (ctx / 8) + n ≤ 128 then (s, some true)
  else (s.modTile tile (fun x => x.setStream ctx { c with short := true }), some false)

/-- The element at hand is read and written, if both ends are ready. -/
def moveElement (s : State) (tile ctx : Nat) (c : Stream) (d : Descriptor) : Out :=
  let again (s : State) : Out := .next (s.after 1 (.streamElement tile ctx))
  match readSource s tile ctx c d with
  | (s, .again) => if ((s.tile tile).stream ctx).asked then .next s else again s
  | (s, .bytes bs) =>
    match writeDest s tile ctx c d bs with
    | (s, false) => again s
    | (s, true) =>
      again ((moveBytes s tile (ctx / 8) bs.length).modTile tile (fun x =>
        x.setStream ctx { x.stream ctx with next := c.next + 1, asked := false, fetched := none }))

/-- STREAM_ELEMENT: the next element in loop order, within the rate of its engine (R221, R222); a stopped launch makes no
progress (R54). -/
def execStreamElement (tile ctx : Nat) (s : State) : Out :=
  let x := s.tile tile
  let c := x.stream ctx
  let again (s : State) : Out := .next (s.after 1 (.streamElement tile ctx))
  match c.desc with
  | none => .next s
  | some d =>
    if c.st ≠ 2 then .next s
    else if x.stopped || elementIsCut s tile (.stream tile ctx) || tileWaits s tile (fun n _ => c.node == some n) ctx then again s
    else if (c.can ∧ !c.asked) ∨ c.next ≥ d.total then .next (s.event (.streamComplete tile ctx))
    else
      match takeTurn s tile ctx (2 ^ d.esz) with
      | (s, none) => .next (s.event (.streamElement tile ctx))
      | (s, some false) => again s
      | (s, some true) => moveElement s tile ctx { c with short := false } d

/-- STREAM_COMPLETE: every element is performed; the number is posted, the pins are dropped, drain tokens go out
(R222, R224, R357). -/
def execStreamComplete (tile ctx : Nat) (s : State) : Out :=
  let c := (s.tile tile).stream ctx
  match c.desc with
  | none => .next s
  | some d =>
    if c.st = 2 ∧ c.out = 0 ∧ !c.asked ∧ (c.can ∨ c.next ≥ d.total) then
      let s := s.modTile tile (fun x => x.setStream ctx { c with st := 3, pages := [] })
      let s := postNumber s tile c.cnum
      .next (match c.node with | some n => drainNode s tile n | none => s)
    else .next s

/-! ### Copies (R226, R227, R405) -/

/-- Edge table entry `v` of a partition: valid bit (Table 05-4). -/
def edgeEntry (p : Partition) (v : Nat) : BitVec 64 := tabGet 0 p.edges v
def edgeValid (e : BitVec 64) : Bool := e.getLsbD 9

/-- L, D and B of Table 09-5. An endpoint of kind 1 that names the copy's own tile counts as local: the table does not say
(DESIGN CHOICE, log 16). -/
def promiseTerms (src dst csdiv : Nat) (peer : Bool) : Nat × Nat × Nat :=
  if peer then (2048, csdiv, 20) else if src = dst then (24, 1, 64) else (24 + 2 * hops src dst, csdiv, 32)

/-- The cycles that a copy takes by its promise: L + ceil(N D / B) (R227). -/
def copyCycles (src dst csdiv n : Nat) (peer : Bool) : Nat :=
  match promiseTerms src dst csdiv peer with
  | (l, d, b) => l + (n * d + b - 1) / b

/-- A flit waits at an eyelet's transmitter. -/
def eyeletQueue (s : State) (e : Nat) (f : EyeletFlit) : State :=
  let x := s.eyelet e
  s.setEyelet e { x with tx := { x.tx with queue := x.tx.queue ++ [f] } }

/-- The data flits of a peer copy; bytes of the last one beyond the length are unstated (log 10). -/
def peerData (s : State) (e : Nat) (tag : BitVec 5) (bs : List Byte) (fuel : Nat) : State :=
  match fuel with
  | 0 => s
  | k + 1 =>
    let d := bytesNat ((bs.take 32 ++ (List.range 32).map (fun i => Config.unstatedByte (s.free + i))).take 32)
    peerData (eyeletQueue (if bs.length < 32 then s.nextFree else s) e ⟨3, tag, 0, BitVec.ofNat 256 d⟩) e tag (bs.drop 32) k

/-- The head of a tile's copy channel is replaced. -/
def setHead (s : State) (tile : Nat) (c : Copy) : State :=
  s.modTile tile (fun x => { x with eng := { x.eng with copies := c :: x.eng.copies.tail } })

/-- Cycles that the copy channel gives to the next 128 bytes of a copy: 64 bytes a cycle within a tile, 32 in CSDIV cycles
through the mesh (Table 09-5). -/
def chunkCycles (c : Copy) (csdiv : Nat) : Nat := if c.srcTile = c.dstTile then 2 else 4 * csdiv

/-- A bank without power at either end of the next bytes of a copy (R79): its tile and number. -/
def copyHeld (s : State) (c : Copy) (n : Nat) : Option (Nat × Nat) :=
  let at_ (t off : Nat) : Option (Nat × Nat) := (heldIn (s.tile t) off n).map (fun b => (t, b))
  (at_ c.srcTile (endOff c.src + c.moved)).or (if endKind c.dst = 0 then at_ c.dstTile (endOff c.dst + c.moved) else none)

/-- The next bytes of a copy, at most 128, are read and written, or sent to the destination's store (R226). -/
def moveCopy (s : State) (tile : Nat) (c : Copy) (n : Nat) : State :=
  let bs := storeBytes (s.tile c.srcTile) (endOff c.src + c.moved) n
  let s := reachBanks s c.srcTile (endOff c.src + c.moved) n
  let off := endOff c.dst + c.moved
  if endKind c.dst = 1 then
    sendFlit (setHead s tile { c with moved := c.moved + n, out := c.out + 1 }) tile c.dstTile (endVc c.dst) 24 (.bytes off bs false)
  else
    (reachBanks (setHead s tile { c with moved := c.moved + n }) c.dstTile off n).modTile c.dstTile (fun x => storeWrite x off bs)

/-- The header and data of a copy to a peer module are queued at its eyelet (R405). -/
def sendPeer (s : State) (tile : Nat) (c : Copy) : State :=
  let bytes := storeBytes (s.tile c.srcTile) (endOff c.src) c.len
  let e := edgeEntry (s.part (pidOf s tile)) (endVc c.dst)
  let eye := e.toNat % 512
  let tag : BitVec 5 := e.extractLsb' 40 5
  let n := (c.len + 31) / 32
  let x := s.eyelet eye
  let id := (x.lastCopy + 1) % 2 ^ 32
  let head := endOff c.dst + 2 ^ 25 * endTile c.dst + 2 ^ 37 * n + 2 ^ 64 * id
  let s := reachBanks s c.srcTile (endOff c.src) c.len
  let s := setHead (s.setEyelet eye { x with lastCopy := id }) tile { c with sent := true, ident := id, moved := c.len }
  peerData (eyeletQueue s eye ⟨2, tag, 0, BitVec.ofNat 256 head⟩) eye tag bytes n

/-- The copy at the head of the tile's channel begins; a remote source answers over the mesh (R226, Table 09-5). -/
def beginCopy (s : State) (tile : Nat) : State :=
  match (s.tile tile).eng.copies with
  | [] => s
  | c :: _ => s.after (if c.srcTile = tile then 1 else 1 + 4 + 2 * hops c.srcTile tile) (.copyComplete tile)

/-- Whether the byte ranges of two endpoints in one store meet. -/
def overlaps (a b n : Nat) : Bool := decide (a < b + n) && decide (b < a + n)

/-- SCOPY (R226, R227). -/
def bodyScopy (d a b : GReg) (s : State) : Res :=
  let n := s.g d
  let src := s.g a
  let dst := s.g b
  if n.toNat % 8 ≠ 0 ∨ n = 0 ∨ n.toNat > 2 ^ 24 then trapHere s 0x06 n
  else if !endOk [0, 1] src then trapHere s 0x06 src
  else if !endOk [0, 1, 8] dst ∨ (endKind src ≠ 0 ∧ endKind dst ≠ 0) then trapHere s 0x06 dst
  else
    match copyTile s src with
    | none => trapHere s 0x06 src
    | some st =>
      if endOff src % 8 ≠ 0 then trapHere s 0x03 src
      else if endOff src + n.toNat > Config.storeSize then trapHere s 0x06 src
      else
        let peer := endKind dst = 8
        match (if peer then some 0 else copyTile s dst) with
        | none => trapHere s 0x06 dst
        | some dt =>
          if !peer ∧ endOff dst % 8 ≠ 0 then trapHere s 0x03 dst
          else if !peer ∧ endOff dst + n.toNat > Config.storeSize then trapHere s 0x06 dst
          else if !peer ∧ st = dt ∧ overlaps (endOff src) (endOff dst) n.toNat then trapHere s 0x06 dst
          else if peer ∧ !edgeValid (edgeEntry (s.part (pidOf s s.cur.tile)) (endVc dst)) then trapHere s 0x06 dst
          else withEngines s (fun s => takeNumber s n (fun s k =>
            let e := s.here.eng
            let last := (e.copies.getLast?).map (fun c => c.promise.toNat)
            let start := match last with | some p => max (s.ccnt s.cur.tile).toNat p | none => (s.ccnt s.cur.tile).toNat
            let p := BitVec.ofNat 64 (start + copyCycles st dt e.csdiv n.toNat peer)
            let c : Copy := ⟨k, s.cur.thread, src, dst, n.toNat, p, false, 0, st, dt, 0, 0⟩
            let s := s.setHere { s.here with eng := { e with
              copies := e.copies ++ [c], promises := e.promises ++ [(k, s.cur.thread, p)] } }
            let s := if e.copies.isEmpty then beginCopy s s.cur.tile else s
            .done (writeReg s d p)))

def execScopy (d a b : GReg) (p : PReg) (s : State) : Out := seq p (bodyScopy d a b) s

/-- The head copy is finished: its number is posted and the next copy begins (R226). -/
def endCopy (s : State) (tile : Nat) : State :=
  match (s.tile tile).eng.copies with
  | [] => s
  | c :: r => beginCopy (postNumber (s.modTile tile (fun x => { x with eng := { x.eng with copies := r } })) tile c.cnum) tile

/-- COPY_COMPLETE: the copy channel goes on with the head copy at the rate of its promise (R227), holds at a bank without power
(R79) and while its launch stands still (R54); once every byte is written its number is posted and the next copy begins
(R226). A copy to a peer is sent whole and completes when its done flit is accepted (R405). -/
def execCopyComplete (tile : Nat) (s : State) : Out :=
  let again (s : State) (n : Nat) : Out := .next (s.after n (.copyComplete tile))
  match (s.tile tile).eng.copies with
  | [] => .next s
  | c :: _ =>
    let peer := endKind c.dst == 8
    let n := if peer then c.len else min 128 (c.len - c.moved)
    if (s.tile tile).stopped then again s 1
    else if c.moved = c.len then .next (if peer || c.out != 0 then s else endCopy s tile)
    else
      match copyHeld s c n, readWords s tile 1 (inStore c.srcTile (endOff c.src + c.moved) n) with
      | some (t, b), _ => again (wakeBank s t b) 1
      | none, (s, true) => again s 1
      | none, (s, false) =>
        if peer then .next (sendPeer s tile c)
        else if endKind c.dst = 1 ∧ c.moved + n = c.len then .next (moveCopy s tile c n)
        else again (moveCopy s tile c n) (chunkCycles c (s.tile tile).eng.csdiv)

/-! ### Vertical transfers (R228) -/

/-- VXFER (R228, Table 09-6). -/
def bodyVxfer (a b : GReg) (s : State) : Res :=
  let u := s.g a
  let v := s.g b
  let soff := u.toNat % 2 ^ 25
  let kind := u.toNat / 2 ^ 25 % 4
  let unit := u.toNat / 2 ^ 27 % 16
  let uoff := u.toNat / 2 ^ 31 % 2 ^ 15
  let dir := u.getLsbD 46
  let len := v.toNat % 2 ^ 16
  let setf := v.getLsbD 19
  if u.toNat ≥ 2 ^ 47 ∨ soff % 64 ≠ 0 ∨ uoff % 64 ≠ 0 ∨ 2 ≤ kind then trapHere s 0x06 u
  else if v.toNat ≥ 2 ^ 20 ∨ len = 0 ∨ len > 512 ∨ (setf ∧ (kind = 1 ∨ dir)) then trapHere s 0x06 v
  else if soff + 64 * len > Config.storeSize ∨ uoff + 64 * len > (if kind = 0 then 18432 else 32768) then trapHere s 0x06 u
  else withEngines s (fun s =>
    let x := s.here
    let idx := match x.eng.vxfers.getLast? with | some (k, _) => k + 1 | none => 0
    let t : Vxfer := ⟨soff, kind == 1, unit, uoff, dir, 64 * len, v.extractLsb' 16 2, v.extractLsb' 18 1, setf, 0⟩
    .done ((s.setHere { x with eng := { x.eng with vxfers := tabPut x.eng.vxfers idx t } }).after 1 (.vxferComplete s.cur.tile idx)))

def execVxfer (a b : GReg) (p : PReg) (s : State) : Out := seq p (bodyVxfer a b) s

/-- An entry in progress names an accumulator tile (R228). -/
def entryUses (m : Matrix) (unit : Nat) : Bool :=
  m.progress.any (fun p => (nth m.table.toList p.entry 0).toNat / 2 ^ 38 % 16 == unit)

/-- A transfer that must wait: its launch stands still, its operand buffer is full before the first write, or its accumulator
tile is in use (R54, R228). -/
def vxferWaits (x : Tile) (t : Vxfer) : Bool :=
  let o := x.matrix.ob[t.unit % 16]'(Nat.mod_lt _ (by decide))
  x.stopped || (!t.acc && !t.toStore && o.full && t.done == 0) || (t.acc && entryUses x.matrix (t.unit % 16))

/-- The next `n` bytes of a transfer are moved (R228). -/
def moveVxfer (x : Tile) (t : Vxfer) (n : Nat) : Tile :=
  have h : t.unit % 16 < 16 := Nat.mod_lt _ (by decide)
  let o := x.matrix.ob[t.unit % 16]
  let um := if t.acc then x.matrix.acc[t.unit % 16] else o.mem
  if t.toStore then storeWrite x (t.off + t.done) (memBytes um (t.uoff + t.done) n)
  else
    let m := memWrite um (t.uoff + t.done) (storeBytes x (t.off + t.done) n)
    if t.acc then { x with matrix := { x.matrix with acc := x.matrix.acc.set (t.unit % 16) m h } }
    else { x with matrix := { x.matrix with ob := x.matrix.ob.set (t.unit % 16) { o with mem := m } h } }

/-- Every write of a transfer is performed: its counter rises, then the full bit may be set (R101, R228). -/
def endVxfer (x : Tile) (idx : Nat) (t : Vxfer) : Tile :=
  have h : t.unit % 16 < 16 := Nat.mod_lt _ (by decide)
  have hc : t.ctr.toNat < 4 := t.ctr.isLt
  let e := x.eng
  let o := x.matrix.ob[t.unit % 16]
  let x := { x with eng := { e with
    vxfers := tabDel e.vxfers idx, vcnt := e.vcnt.set t.ctr.toNat (e.vcnt[t.ctr.toNat] + 1) hc } }
  if t.setf && !t.acc && !t.toStore then
    { x with matrix := { x.matrix with ob := x.matrix.ob.set (t.unit % 16) { o with full := true } h } }
  else x

/-- The words that the next `n` bytes of a transfer are read from (R380). -/
def vxferReads (tile : Nat) (t : Vxfer) (n : Nat) (p : FlawPlace) : Bool :=
  if !t.toStore then inStore tile (t.off + t.done) n p
  else if t.acc then p == .accumulator tile (t.unit % 16)
  else p == .buffer tile (t.unit % 16)

/-- VXFER_COMPLETE: the transfer goes on with what its engine can still move in this cycle, at most 128 bytes; once every write
is performed it ends (R221, R228). It holds as `vxferWaits` says and at a bank without power (R79). -/
def execVxferComplete (tile idx : Nat) (s : State) : Out :=
  match tabFind (s.tile tile).eng.vxfers idx with
  | none => .next s
  | some t =>
    let again (s : State) : Out := .next (s.after 1 (.vxferComplete tile idx))
    let eng := t.eng.toNat
    let n := min (128 - movedNow s tile eng) (t.len - t.done) / 64 * 64
    if vxferWaits (s.tile tile) t ∨ n = 0 then again s
    else
      match heldIn (s.tile tile) (t.off + t.done) n, readWords s tile (if t.toStore then 3 else 1) (vxferReads tile t n) with
      | some b, _ => again (wakeBank s tile b)
      | none, (s, true) => again s
      | none, (s, false) =>
        let s := (moveBytes (reachBanks s tile (t.off + t.done) n) tile eng n).modTile tile (fun x => moveVxfer x t n)
        let u := { t with done := t.done + n }
        if u.done < t.len then
          again (s.modTile tile (fun x => { x with eng := { x.eng with vxfers := tabPut x.eng.vxfers idx u } }))
        else .next (s.modTile tile (fun x => endVxfer x idx u))

end Sys2Proof.Machine
end

