-- ==== Sys2Proof/Machine/Collective.lean ====
section
/-! DEFINITION. Couching trees and collective nodes: combination, the exponent and data passes of A64, copies, the tags of
paths that leave the module, and the outputs of a call (spec 05 R118, R124 to R131, 03 R72, 09 R252, 18 R388, R404). -/

namespace Sys2Proof.Machine

/-! ### Tokens under a tag (R118, R388) -/

/-- The fragments of a token, under the peer's tag: 30 bytes each but the last (R388). -/
def tokenFlits (pvc : BitVec 5) (code : Nat) (bs : List Byte) : List EyeletFlit :=
  let n := (bs.length + 29) / 30
  (List.range n).map (fun i =>
    let part := (bs.drop (30 * i)).take 30
    ⟨1, pvc, 0, BitVec.ofNat 256 (bytesNat part + 2 ^ 240 * (part.length - 1) + 2 ^ 245 * i + (if i + 1 = n then 2 ^ 248 else 0) +
      2 ^ 249 * code)⟩)

/-- A flit's payload leaves the module under a tag, as a token of 128 bytes; it is counted once as sent (R47, R118). Under a
tag without an entry it goes nowhere. -/
def sendUnderTag (s : State) (tile tag : Nat) (payload : BitVec 1024) : State :=
  let w := edgeEntry (s.part (pidOf s tile)) tag
  if !edgeValid w then s
  else
    (tokenFlits (w.extractLsb' 40 5) 5 (natBytes 128 payload.toNat)).foldl (fun s f => eyeletQueue s (w.toNat % 512) f)
      (s.modTile tile (fun x => { x with sent := x.sent + 1 }))

/-- A flit of a tree on its way to a tile, or to the module that a tag reaches. -/
def sendTree (s : State) (tile dst vc owner : Nat) (exponent : Bool) (op : BitVec 4) (rid : Nat) (payload : BitVec 1024) : State :=
  if 4096 ≤ dst then sendUnderTag s tile (dst - 4096) payload
  else sendFlit s tile dst vc owner (if exponent then .exponent rid payload else .tree op rid payload)

/-! ### Tree nodes (R124 to R126) -/

/-- Lane-wise combination of two 1,024-bit payloads in lanes of `w` bits. -/
def combineLanes (f : Nat → Nat → Nat) (w n : Nat) (a b : Nat) : Nat :=
  match n with
  | 0 => 0
  | k + 1 => f (a % 2 ^ w) (b % 2 ^ w) % 2 ^ w + 2 ^ w * combineLanes f w k (a / 2 ^ w) (b / 2 ^ w)

/-- Table 05-6; a reserved OP does not reach a node (R123). The flags are those of `combineFlags` (R69, log 25). -/
def combine (op : BitVec 4) (a b : BitVec 1024) : BitVec 1024 :=
  match op.toNat with
  | 0 => BitVec.ofNat 1024 (combineLanes (· + ·) 64 16 a.toNat b.toNat)
  | 1 => BitVec.ofNat 1024 (combineLanes (· + ·) 32 32 a.toNat b.toNat)
  | 2 => BitVec.ofNat 1024 (combineLanes max 8 128 a.toNat b.toNat)
  | 3 => BitVec.ofNat 1024 (combineLanes (fun x y => (fpMinMax fp32 false x y).1) 32 32 a.toNat b.toNat)
  | 4 => BitVec.ofNat 1024 (combineLanes (fun x y => (fpMinMax fp32 true x y).1) 32 32 a.toNat b.toNat)
  | _ => a ||| b

/-- Lanes of `w` bits of a payload, lowest first. -/
def lanesOf (w n : Nat) (v : Nat) : List Nat := (List.range n).map (fun i => v / 2 ^ (w * i) % 2 ^ w)

/-- Flags of a combination: invalid where a lane of FMIN32 or FMAX32 has a signalling NaN (R69). The rule names no flag word
for a couching unit: the model keeps them in the node's own (DESIGN CHOICE, log 25). -/
def combineFlags (op : BitVec 4) (a b : BitVec 1024) : BitVec 5 :=
  if op = 3 ∨ op = 4 then
    ((lanesOf 32 32 a.toNat).zip (lanesOf 32 32 b.toNat)).foldl (fun f p => f ||| (fpMinMax fp32 (op == 4) p.1 p.2).2) 0
  else 0

/-- The result lanes of a data-pass flit of an A64 reduction: lane i of the flit belongs to the block whose exponent maximum
is byte `block` of the exponent pass; each is converted by R72, and rounded to BF16 where the output is BF16. -/
def a64Lanes (n : Nat) (half : Bool) (eb : Nat) (payload : BitVec 1024) : List (Nat × BitVec 5) :=
  (lanesOf 64 16 payload.toNat).map (fun v =>
    let r := a64Result eb n (BitVec.ofNat 64 v)
    if half then
      let q := fp32Narrow bf16 r.1
      (q.1, r.2 ||| q.2)
    else r)

/-- What the root of a node delivers for a combined payload: the converted lanes of an A64 data pass, in 64-bit lanes with
their flags from bit 32 up, and all the flags; the exponent pass and other reductions as they are (R72, R125). -/
def rootResult (n : TreeNode) (exponent : Bool) (payload : BitVec 1024) : BitVec 1024 × BitVec 5 :=
  match n.maxima with
  | some m =>
    if !exponent && n.op == 0 && decide (n.passed < 512) then
      let ls := a64Lanes n.declared n.half (m.toNat / 2 ^ (8 * (n.passed / 4)) % 256) payload
      (BitVec.ofNat 1024 ((ls.zipIdx).foldl (fun acc p => acc + (p.1.1 + 2 ^ 32 * p.1.2.toNat) * 2 ^ (64 * p.2)) 0),
        ls.foldl (fun f p => f ||| p.2) 0)
    else (payload, 0)
  | none => (payload, 0)

/-- What goes down a tree from a node: to each child (R125, R128). -/
def sendDown (s : State) (tile rid : Nat) (exponent : Bool) (payload : BitVec 1024) : State :=
  let n := s.node (4096 * tile + rid)
  n.children.foldl (fun s c => sendTree s tile c n.vc 254 exponent n.op rid payload) s

/-- Sends a node's combined flit up, or delivers it at the root: an exponent pass goes back to every child (R125), a data pass
is converted, its flags to the node that takes delivery (R72), and a collective's results go down the tree. -/
def nodeComplete (s : State) (tile rid : Nat) (exponent : Bool) (payload : BitVec 1024) : State :=
  let k := 4096 * tile + rid
  let n := s.node k
  match n.parent with
  | some p =>
    let s := if 4096 ≤ p then s.setNode k { n with asked := n.asked ++ [exponent] } else s
    sendTree s tile p n.vc 255 exponent n.op rid payload
  | none =>
    let r := rootResult n exponent payload
    let s := s.setNode k { n with
      results := if n.down then n.results else n.results ++ [r.1], flags := n.flags ||| r.2
      maxima := if exponent then some payload else n.maxima, passed := if exponent then 0 else n.passed + 1 }
    if exponent then sendDown s tile rid true payload else if n.down then sendDown s tile rid false r.1 else s

/-- The contributions of a node's children to the oldest payload position, once each is in (R124). -/
def nodeReady (n : TreeNode) : Option (List (Bool × BitVec 1024)) :=
  n.children.mapM (fun c => (tabGet [] n.waiting c).head?)

/-- Combines the oldest position of a node and sends it on, if every child's contribution is in (R124). What comes under a tag
does not say whether it is of an exponent pass: the tiles' flits of the position do (log 24). -/
def nodeStep (s : State) (tile rid : Nat) : State :=
  let k := 4096 * tile + rid
  let n := s.node k
  match nodeReady n with
  | none | some [] => s
  | some (p :: r) =>
    let e := (p :: r).any (·.1)
    let op : BitVec 4 := if e then 2 else n.op
    let step (acc : BitVec 1024 × BitVec 5) (x : Bool × BitVec 1024) : BitVec 1024 × BitVec 5 :=
      (combine op acc.1 x.2, acc.2 ||| combineFlags op acc.1 x.2)
    let total := r.foldl step (p.2, 0)
    let rest : Tab (List (Bool × BitVec 1024)) :=
      n.waiting.map (fun (c, l) => (c, if n.children.contains c then l.tail else l))
    nodeComplete (s.setNode k { n with waiting := rest, flags := n.flags ||| total.2 }) tile rid e total.1

/-- A child's contribution waits at a node, which combines the oldest position if it can. -/
def contributeTree (s : State) (tile rid child : Nat) (exponent : Bool) (op : BitVec 4) (payload : BitVec 1024) : State :=
  let k := 4096 * tile + rid
  let n := s.node k
  nodeStep (s.setNode k { n with
    op := if exponent then n.op else op
    waiting := tabPut n.waiting child (tabGet [] n.waiting child ++ [(exponent, payload)]) }) tile rid

/-! ### Calls of a collective node (R128 to R131, R252) -/

/-- The placement of a tile, or its partition's if it has none. -/
def placeOf (s : State) (tile : Nat) : Place := ((s.tile tile).place).getD ⟨pidOf s tile, 0, 0, 0, 64, 64, 0⟩

/-- The number of a tile in its placement (R20). -/
def placeTile (pl : Place) (tile : Nat) : Nat := 64 * (tile / 64 - pl.y0) + (tile % 64 - pl.x0)

/-- The image of the launch on a tile, and a collective node of it that is bound to the tile. -/
def boundColl (s : State) (tile node : Nat) : Option CollImage :=
  let pl := placeOf s tile
  match imageOf s pl.pid pl.lnum with
  | none => none
  | some i =>
    match i.colls[node]? with
    | none => none
    | some c => if c.tiles.contains (placeTile pl tile) then some c else none

/-- A list of runs with one replaced. -/
def replaceRun (r : CollRun) (l : List CollRun) : List CollRun :=
  l.map (fun x => if x.node = r.node ∧ x.call = r.call then r else x)
def setRun (s : State) (tile : Nat) (r : CollRun) : State :=
  s.modTile tile (fun x => { x with core := { x.core with runs := replaceRun r x.core.runs } })

/-- The call of a node that runs at a tile: the oldest. -/
def runOf (s : State) (tile node : Nat) : Option CollRun := (s.tile tile).core.runs.find? (fun r => r.node == node)

/-- A path accepts bytes (R129). -/
def pathAccepts (s : State) (tile node j bytes : Nat) : State :=
  let k := 8 * node + j
  s.modTile tile (fun x => { x with core := { x.core with accepted := tabPut x.core.accepted k (tabGet 0 x.core.accepted k + bytes) } })

/-- Words as lanes of `w` bits of a payload, from bit 0. -/
def packLanes (w : Nat) (l : List Nat) : BitVec 1024 := BitVec.ofNat 1024 (l.foldr (fun v acc => v % 2 ^ w + 2 ^ w * acc) 0)

/-- The 64 words of block b of a path's part of the input. -/
def blockWords (ws : List Word32) (p : PathRun) (b : Nat) : List Word32 := (ws.drop (64 * (p.first + b))).take 64

/-- The exponent maximum that a tile contributes for a block (R72). -/
def blockMaximum (ws : List Word32) : Nat := ws.foldl (fun m w => max m (w.toNat / 2 ^ 23 % 256)) 0

/-- A tile's flit goes up a path's tree. -/
def sendUp (s : State) (tile node j : Nat) (c : CollImage) (exponent : Bool) (op : BitVec 4) (payload : BitVec 1024) : State :=
  let rid := nth c.rids j 0
  pathAccepts (sendTree s tile (leafTarget s tile rid) (s.node (4096 * tile + rid)).vc 253 exponent op rid payload) tile node j 128

/-- Blocks of one exponent-pass flit, or what is left of the path (R125). -/
def groupSize (p : PathRun) : Nat := min 128 (p.count - p.past)

/-- The words of blocks as 32-bit lanes, 32 to a flit. -/
def wordFlits (ws : List Word32) (fuel : Nat) : List (BitVec 1024) :=
  match fuel with
  | 0 => []
  | n + 1 => if ws.isEmpty then [] else packLanes 32 ((ws.take 32).map (·.toNat)) :: wordFlits (ws.drop 32) n

/-- The data-pass flits of one block for its exponent maximum: four of 16 contributions (R72, R125). -/
def dataFlits (n eb : Nat) (ws : List Word32) : List (BitVec 1024) :=
  (List.range 4).map (fun q => packLanes 64 (((ws.drop (16 * q)).take 16).map (fun w => (a64Contribution eb n w.toNat).toNat)))

/-- A broadcast's source: the root of its tree (Table 05-7). -/
def isSource (s : State) (tile rid : Nat) : Bool :=
  let n := s.node (4096 * tile + rid)
  n.parent.isNone && !n.children.isEmpty

/-- The next blocks of a path set out: an exponent pass, the operands of a combination, or a broadcast's bytes (R125, R128). -/
def startGroup (s : State) (tile j : Nat) (c : CollImage) (r : CollRun) (ws : List Word32) (p : PathRun) : State :=
  let bs := (List.range (groupSize p)).map (fun b => blockWords ws p (p.past + b))
  let rid := nth c.rids j 0
  let s := setRun s tile { r with paths := setNth r.paths j { p with asked := true } }
  let flits := wordFlits bs.flatten 256
  if c.kind = 3 then
    if isSource s tile rid then
      flits.foldl (fun s v => pathAccepts (sendDown s tile rid false v) tile r.node j 128) s
    else s
  else
    match c.op with
    | none => sendUp s tile r.node j c true 2 (packLanes 8 (bs.map blockMaximum))
    | some op => flits.foldl (fun s v => sendUp s tile r.node j c false op v) s

/-- The maxima have come back: the data passes of the blocks follow (R125). -/
def dataPass (s : State) (tile j : Nat) (c : CollImage) (r : CollRun) (p : PathRun) (maxima : BitVec 1024) : State :=
  match r.input with
  | none => s
  | some ws =>
    (List.range (groupSize p)).foldl (fun s b =>
      (dataFlits c.contributors (maxima.toNat / 2 ^ (8 * b) % 256) (blockWords ws p (p.past + b))).foldl (fun s v =>
        sendUp s tile r.node j c false 0 v) s) s

/-- The result lanes of a flit: 16 of A64, or 32 words (R125, Table 05-6). -/
def resultLanes (c : CollImage) (payload : BitVec 1024) : List Word :=
  (if c.kind < 2 ∧ c.op.isNone then lanesOf 64 16 payload.toNat else lanesOf 32 32 payload.toNat).map (BitVec.ofNat 64)

/-- Results join their path; when those of the blocks under way are in, the next ones can set out. -/
def takeResults (p : PathRun) (ls : List Word) : PathRun :=
  let p := { p with results := p.results ++ ls }
  let next := p.past + groupSize p
  if 64 * next ≤ p.results.length then { p with past := next, asked := false } else p

/-- A flit that comes down a tree reaches the call that waits for it at the tile (R125, R252). -/
def deliverDown (s : State) (tile rid : Nat) (exponent : Bool) (payload : BitVec 1024) : State :=
  let pl := placeOf s tile
  match imageOf s pl.pid pl.lnum with
  | none => s
  | some i =>
    match (List.zip (List.range i.colls.length) i.colls).find? (fun e => e.2.rids.contains rid) with
    | none => s
    | some (n, c) =>
      match runOf s tile n with
      | none => s
      | some r =>
        let j := c.rids.idxOf rid
        match r.paths[j]? with
        | none => s
        | some p =>
          if exponent then dataPass s tile j c r p payload
          else setRun s tile { r with paths := setNth r.paths j (takeResults p (resultLanes c payload)) }

/-- A flit that comes down goes on to a node's children; at a leaf, and at a node from itself, the tile takes it. -/
def passDown (s : State) (tile src rid : Nat) (exponent : Bool) (payload : BitVec 1024) : State :=
  let k := 4096 * tile + rid
  let n := s.node k
  if src = tile ∨ n.children.isEmpty then deliverDown s tile rid exponent payload
  else
    sendDown (s.setNode k { n with results := if exponent then n.results ++ [payload] else n.results }) tile rid exponent payload

/-! ### Copies (Table 05-7) -/

/-- The tile of a rank of this module's part of a collective. -/
def rankTile (s : State) (tile : Nat) (c : CollImage) (rank : Nat) : Nat :=
  let pl := placeOf s tile
  let rel := nth c.tiles rank 0
  64 * (pl.y0 + rel / 64) + pl.x0 + rel % 64

/-- The rank of a tile. -/
def rankOf (s : State) (tile : Nat) (c : CollImage) : Nat := c.tiles.idxOf (placeTile (placeOf s tile) tile)

/-- The path that carries a block (R131). -/
def pathOfBlock (r : CollRun) (b : Nat) : Nat :=
  (r.paths.zipIdx.find? (fun p => decide (p.1.first ≤ b) && decide (b < p.1.first + p.1.count))).elim 0 (·.2)

/-- A piece is sent to a rank. -/
def sendPiece (s : State) (tile rank : Nat) (c : CollImage) (q : Piece) : State :=
  pathAccepts (sendFlit s tile (rankTile s tile c rank) 0 253 (.piece q.node q.call q.path q.rank q.index q.data)) tile q.node q.path 128

/-- The words of a rank's share. -/
def share (ws : List Word32) (n rank : Nat) : List Word32 :=
  (ws.drop (ws.length * rank / n)).take (ws.length * (rank + 1) / n - ws.length * rank / n)

/-- A tile's pieces of a copy set out: all of them to the next rank of the ring, or each share to its rank (Table 05-7). -/
def startCopies (s : State) (tile : Nat) (c : CollImage) (r : CollRun) (ws : List Word32) : State :=
  let me := rankOf s tile c
  let n := c.tiles.length
  let pieces (first : Nat) (l : List Word32) : List Piece :=
    ((wordFlits l (l.length + 1)).zipIdx).map (fun v => ⟨r.node, r.call, pathOfBlock r ((first + 32 * v.2) / 64), me, v.2, v.1, false⟩)
  if n ≤ 1 then s
  else if c.kind = 2 then (pieces 0 ws).foldl (fun s q => sendPiece s tile ((me + 1) % n) c q) s
  else
    ((List.range n).filter (· != me)).foldl (fun s k =>
      (pieces (ws.length * k / n) (share ws n k)).foldl (fun s q => sendPiece s tile k c q) s) s

/-- A piece goes on round its ring until it would come back (Table 05-7). -/
def forwardPieces (s : State) (tile : Nat) : State :=
  let fresh := (s.tile tile).core.pieces.filter (·.onward)
  let s := s.modTile tile (fun x => { x with core := { x.core with pieces := x.core.pieces.map (fun q => { q with onward := false }) } })
  fresh.foldl (fun s q =>
    match boundColl s tile q.node with
    | none => s
    | some c =>
      let next := (rankOf s tile c + 1) % c.tiles.length
      if c.kind = 2 ∧ next ≠ q.rank then sendPiece s tile next c q else s) s

/-- The pieces that a call has from a rank, in order. -/
def piecesFrom (s : State) (tile : Nat) (r : CollRun) (rank : Nat) : List Word32 :=
  let ps := (s.tile tile).core.pieces.filter (fun q => q.node == r.node && q.call == r.call && q.rank == rank)
  (ps.mergeSort (fun a b => decide (a.index ≤ b.index))).flatMap (fun q => (lanesOf 32 32 q.data.toNat).map (BitVec.ofNat 32))

/-! ### The words of a call -/

/-- The words that a tile's copy gives, once every other rank's pieces are in. -/
def copyOutput (s : State) (tile : Nat) (c : CollImage) (r : CollRun) (ws : List Word32) : Option (List Word) :=
  let me := rankOf s tile c
  let n := c.tiles.length
  let size := if c.kind = 2 then ws.length else ws.length * (me + 1) / n - ws.length * me / n
  ((List.range n).mapM (fun k =>
    if k = me then some (if c.kind = 2 then ws else share ws n me)
    else
      let got := piecesFrom s tile r k
      if got.length < size then none else some (got.take size))).map (fun ls => ls.flatten.map (·.zeroExtend 64))

/-- The words that a call gives at its tile, once they are there: a reduction's or broadcast's results in block order, for
reduce-scatter the share of the tile's rank. -/
def callOutput (s : State) (tile : Nat) (c : CollImage) (r : CollRun) : Option (List Word) :=
  match r.input with
  | none => none
  | some ws =>
    if c.kind = 2 ∨ 4 ≤ c.kind then copyOutput s tile c r ws
    else if r.paths.any (fun p => decide (p.past < p.count)) then none
    else
      let all := r.paths.flatMap (fun p => p.results)
      let rank := c.rank + rankOf s tile c
      if c.kind = 1 then
        some ((all.drop (all.length * rank / c.contributors)).take
          (all.length * (rank + 1) / c.contributors - all.length * rank / c.contributors))
      else some all

/-- The input arcs of a collective node that end at a tile, with the words of a call: those from a PE of the tile, and those
that no port carries. -/
def inputsAt (i : Image) (pl : Place) (tile : Nat) (c : CollImage) : List (Nat × Nat) :=
  c.inputs.filter (fun e => match i.arcs[e.1]? with
    | some a => (match a.fromPort with | some (f, _) => peTile (placedPe (pl.x0, pl.y0) f) == tile | none => true)
    | none => false)

/-- A call takes its words once each of its input arcs at the tile has brought them (R252). -/
def takeInputs (s : State) (i : Image) (pl : Place) (tile : Nat) (c : CollImage) (r : CollRun) : State :=
  let ins := inputsAt i pl tile c
  let g := (s.tile tile).core.gathered
  if ins.any (fun e => decide ((tabGet [] g e.1).length < e.2)) then s
  else
    let s := setRun s tile { r with input := some (ins.flatMap (fun e => (tabGet [] g e.1).take e.2)) }
    s.modTile tile (fun x => { x with core := { x.core with
      gathered := ins.foldl (fun t e => tabPut t e.1 ((tabGet [] t e.1).drop e.2)) x.core.gathered } })

/-- The node of the graph that a collective is. -/
def collNode (i : Image) (n : Nat) : Option Nat := i.nodes.findIdx? (fun k => k == .coll n)

/-- The flags of results go to the flag word of the region that takes delivery (R72). -/
def deliveryFlags (s : State) (k : Nat) (pl : Place) (flags : BitVec 5) : State :=
  { s with regions := s.regions.map (fun (n, r) =>
      (n, if r.pid = pl.pid ∧ r.lnum = pl.lnum ∧ r.fx ≤ k % 512 ∧ k % 512 < r.fx + r.w ∧ r.fy ≤ k / 512 ∧ k / 512 < r.fy + r.h
        then { r with flags := r.flags ||| flags } else r)) }

/-- One arc of a call takes the words that it has room for: sent and received once (R47, R252, R306). -/
def giveArc (s : State) (i : Image) (pl : Place) (tile : Nat) (out : List Word) (r : CollRun) (n : Nat) (a : ArcImage) :
    State × CollRun :=
  let l := s.launch pl.pid pl.lnum
  let x := tabGet ArcState.reset l.arcs n
  let had := tabGet 0 r.given n
  match a.toPort with
  | some (f, _) =>
    let k := placedPe (pl.x0, pl.y0) f
    if peTile k ≠ tile then (s, { r with given := tabPut r.given n out.length })
    else
      let ws := (out.drop had).take (a.depth - arcHeld x)
      let s := s.setLaunch pl.pid pl.lnum { l with arcs := tabPut l.arcs n { x with
        sent := x.sent + ws.length, received := x.received + ws.length, buffer := x.buffer ++ ws.map (·.truncate 32) } }
      let s := s.modTile tile (fun x => { x with sent := x.sent + ws.length, received := x.received + ws.length })
      (deliveryFlags s k pl (ws.foldl (fun f w => f ||| w.extractLsb' 32 5) 0), { r with given := tabPut r.given n (had + ws.length) })
  | none =>
    let m := 4 * (out.length - had) / a.width
    let s := s.setLaunch pl.pid pl.lnum { l with arcs := tabPut l.arcs n { x with sent := x.sent + m } }
    let s := s.modTile tile (fun x => { x with sent := x.sent + m, received := x.received + m })
    (arcTakes s i pl.pid pl.lnum tile n a m, { r with given := tabPut r.given n out.length })

/-- The output tokens of a call go to their consumers; when the last is delivered, the call is complete (R252). -/
def giveOutput (s : State) (i : Image) (pl : Place) (tile : Nat) (r : CollRun) (out : List Word) : State :=
  let arcs := (List.zip (List.range i.arcs.length) i.arcs).filter (fun (_, a) => !a.memoryOrder && some a.fromNode == collNode i r.node)
  let (s, r) := arcs.foldl (fun (s, r) (n, a) => giveArc s i pl tile out r n a) (s, r)
  if arcs.all (fun (n, _) => decide (out.length ≤ tabGet 0 r.given n)) then
    (s.modTile tile (fun x => { x with core := { x.core with
      runs := x.core.runs.filter (fun y => !(y.node == r.node && y.call == r.call))
      pieces := x.core.pieces.filter (fun q => !(q.node == r.node && q.call == r.call)) } })).event
      (.collectiveCallComplete pl.pid pl.lnum tile r.node r.call)
  else setRun s tile r

/-- A call advances: it takes its input, its paths send what they can, and its output goes on (R125, R252). -/
def advanceCall (s : State) (i : Image) (pl : Place) (tile : Nat) (r : CollRun) : State :=
  match i.colls[r.node]? with
  | none => s
  | some c =>
    match r.input with
    | none =>
      let source := (List.range c.rids.length).any (fun j => isSource s tile (nth c.rids j 0))
      if c.kind = 3 ∧ !source then setRun s tile { r with input := some [] } else takeInputs s i pl tile c r
    | some ws =>
      if (c.kind = 2 ∨ 4 ≤ c.kind) ∧ r.paths.any (fun p => !p.asked) then
        startCopies (setRun s tile { r with paths := r.paths.map (fun p => { p with asked := true }) }) tile c r ws
      else if c.kind = 2 ∨ 4 ≤ c.kind then
        match callOutput s tile c r with
        | some out => giveOutput s i pl tile r out
        | none => s
      else
        match r.paths.zipIdx.find? (fun p => !p.1.asked && decide (p.1.past < p.1.count)) with
        | some (p, j) => startGroup s tile j c r ws p
        | none =>
          match callOutput s tile c r with
          | some out => giveOutput s i pl tile r out
          | none => s

/-- The calls of a tile in one cycle: the oldest of each node runs (R252). -/
def collectiveWork (s : State) (pid lnum tile : Nat) : State :=
  match (s.tile tile).place, imageOf s pid lnum with
  | some pl, some i =>
    let s := forwardPieces s tile
    let nodes := ((s.tile tile).core.runs.map (·.node)).eraseDups
    nodes.foldl (fun s n => match runOf s tile n with
      | none => s
      | some r => advanceCall s i pl tile r) s
  | _, _ => s

/-- The calls of a launch's tiles in one cycle. -/
def launchCalls (s : State) (pid lnum : Nat) : State :=
  ((launchTiles s pid lnum).filter (fun t => !(s.tile t).core.runs.isEmpty || (s.tile t).core.pieces.any (·.onward))).foldl
    (fun s t => collectiveWork s pid lnum t) s

/-- RATE of the paths takes what they accepted in the sweep window that ends (R129). -/
def closeRates (x : Tile) : Tile :=
  { x with core := { x.core with rates := x.core.accepted.map (fun (k, n) => (k, BitVec.ofNat 32 n)), accepted := [] } }

/-! ### What arrives -/

/-- A flit of a PRED binding, which its tile counted as sent, counts as received where a node takes it (R47, R279). -/
def countLeaf (s : State) (tile : Nat) (f : MeshFlit) : State :=
  if 256 ≤ f.owner then s.modTile tile (fun x => { x with received := x.received + 1 }) else s

/-- TREE_NODE_COMBINE: a contribution not seen before is combined; when every child's is in, one flit goes up. What comes down
the tree, exponent maxima or a collective's results, goes on to the children and to the calls at the leaves (R124 to R126,
R252). A contribution of a sender that the node does not have as a child lies beyond the declared ones: it is not added, and a
reduction fault with SUB 3 is recorded (R72, R366). -/
def execTreeNodeCombine (tile : Nat) (f : MeshFlit) (s : State) : Out :=
  let go (exponent : Bool) (op : BitVec 4) (rid : Nat) (payload : BitVec 1024) : State :=
    let k := 4096 * tile + rid
    let n := s.node k
    if decide (f.seq ≤ tabGet 0 n.last (tripleKey f.src tile f.vc)) then s
    else
      let s := countLeaf (s.setNode k { n with last := tabPut n.last (tripleKey f.src tile f.vc) f.seq }) tile f
      if f.owner = 254 then passDown s tile f.src rid exponent payload
      else if !n.children.contains f.src then flitFault s tile 3 f
      else contributeTree s tile rid f.src exponent op payload
  match f.body with
  | .tree op rid payload => .next (go false op rid payload)
  | .exponent rid payload => .next (go true 2 rid payload)
  | _ => .next s

/-- A token of 128 bytes under a tag goes on by the module's routes (R118): as a contribution to the tree node that has the tag
as a child, or down from the one that has it as its parent. It counts once as received (R47). -/
def routeTagged (s : State) (pid tag : Nat) (token : List Byte) : Option State :=
  let v := BitVec.ofNat 1024 (bytesNat token)
  let here := s.nodes.filter (fun (k, _) => pidOf s (k / 4096) == pid)
  let counted (k : Nat) : State := s.modTile (k / 4096) (fun x => { x with received := x.received + 1 })
  match here.find? (fun (_, n) => n.children.contains (4096 + tag)), here.find? (fun (_, n) => n.parent == some (4096 + tag)) with
  | some (k, n), _ => some (contributeTree (counted k) (k / 4096) (k % 4096) (4096 + tag) false n.op v)
  | none, some (k, n) =>
    some (sendDown ((counted k).setNode k { n with asked := n.asked.tail }) (k / 4096) (k % 4096) ((n.asked.head?).getD false) v)
  | none, none => none

end Sys2Proof.Machine
end

