-- ==== Sys2Proof/Machine/Coord.lean ====
section
/-! DEFINITION. Barriers, collective steps and event counters (spec 09 R251, R252, R254, 05 R128 to R131, 17 R377). -/

namespace Sys2Proof.Machine

def Launch.barrier (l : Launch) (b : Nat) : Barrier := l.barriers[b % 16]'(Nat.mod_lt _ (by decide))
def Launch.setBarrier (l : Launch) (b : Nat) (x : Barrier) : Launch :=
  { l with barriers := l.barriers.set (b % 16) x (Nat.mod_lt _ (by decide)) }

/-! ### BAR, BARA and BARW (R251) -/

/-- The operand value of a barrier and N, and the barrier and N that a value names. -/
def barrierValue (bar parties : Nat) : Word := BitVec.ofNat 64 (2 ^ 16 * parties + bar)
def barrierOf (v : Word) : Nat := v.toNat % 16
def partiesOf (v : Word) : Nat := v.toNat / 2 ^ 16

/-- Bits that the entry does not name are 0 and N is 1 to 32,768 (R215). -/
def barrierOk (v : Word) : Bool :=
  decide (v.toNat < 2 ^ 32) && decide (v.toNat / 16 % 2 ^ 12 = 0) && decide (1 ≤ partiesOf v) && decide (partiesOf v ≤ 32768)

/-- The thread's arrival sets out for the counting point. -/
def sendArrival (s : State) (v : Word) : State :=
  let pl := placeOf s s.cur.tile
  let s := s.setMe { s.me with arrivals := tabPut s.me.arrivals (barrierOf v) (.sent s.cur.ipc) }
  s.event (.barrierArrival pl.pid pl.lnum (barrierOf v) (partiesOf v) s.cur.tile s.cur.thread)

/-- BARA: the checks, FENCE.P's ordering, the arrival; then `f`. -/
def arriveThen (f : State → Res) (v : Word) (s : State) : Res :=
  if !barrierOk v then trapHere s 0x06 v
  else if (tabFind s.me.arrivals (barrierOf v)).isSome then trapHere s 0x06 v
  else fenceBody readyP (fun s => f (sendArrival s v)) s

/-- The thread waits for its arrival's phase, or takes the completion that is there. -/
def awaitPhase (v : Word) (s : State) : Res :=
  match tabFind s.me.arrivals (barrierOf v) with
  | some .complete => .done (s.setMe { s.me with arrivals := tabDel s.me.arrivals (barrierOf v) })
  | _ => .hold (s.setMe { s.me with st := .parked (.barrier (barrierOf v)) })

def bodyBar (a : GReg) (s : State) : Res := arriveThen (awaitPhase (s.g a)) (s.g a) s
def bodyBara (a : GReg) (s : State) : Res := arriveThen .done (s.g a) s
def bodyBarw (a : GReg) (s : State) : Res :=
  let v := s.g a
  if !barrierOk v then trapHere s 0x06 v
  else if (tabFind s.me.arrivals (barrierOf v)).isNone then trapHere s 0x06 v
  else awaitPhase v s

def execBar (a : GReg) (p : PReg) (s : State) : Out := seq p (bodyBar a) s
def execBara (a : GReg) (p : PReg) (s : State) : Out := seq p (bodyBara a) s
def execBarw (a : GReg) (p : PReg) (s : State) : Out := seq p (bodyBarw a) s

/-- Distance in hops of a tile from the counting point. -/
def hopsFrom (origin tile : Nat) : Nat :=
  (tile % 64 - origin % 64) + (origin % 64 - tile % 64) + (tile / 64 - origin / 64) + (origin / 64 - tile / 64)

/-- Threads of a launch whose arrivals the barrier has counted in a phase: tile, thread and instruction address. -/
def countedArrivals (s : State) (pid lnum bar phase : Nat) : List (Nat × Nat × Word) :=
  (launchTiles s pid lnum).flatMap (fun tile =>
    (List.range 8).filterMap (fun t =>
      match tabFind (s.thread tile t).arrivals bar with
      | some (.counted k e) => if k = phase then some (tile, t, e) else none
      | _ => none))

/-- An arrival is counted; the Nth completes the phase, and the completion sets out for every tile (R251). -/
def countArrival (s : State) (pid lnum bar parties tile t : Nat) (e : Word) : State :=
  let l := s.launch pid lnum
  let b := l.barrier bar
  let h := s.thread tile t
  let s := s.setThread tile t { h with arrivals := tabPut h.arrivals bar (.counted b.phase e) }
  if parties ≤ b.arrivals + 1 then
    let s := s.setLaunch pid lnum (l.setBarrier bar { b with phase := b.phase + 1, parties := 0, arrivals := 0 })
    let tiles := launchTiles s pid lnum
    tiles.foldl (fun s d => s.after (4 + 2 * hopsFrom (tiles.headD 0) d) (.barrierCompletion pid lnum bar d)) s
  else s.setLaunch pid lnum (l.setBarrier bar { b with parties := parties, arrivals := b.arrivals + 1 })

/-- A thread whose arrival disagrees takes cause 0x06 at the arriving instruction; its arrival is withdrawn (R215, R251). -/
def disagree (s : State) (bar parties tile t : Nat) (e : Word) : State :=
  let h := s.thread tile t
  let s := s.setThread tile t { h with arrivals := tabDel h.arrivals bar }
  if h.st = .halted then s else takeTrap s tile t 0x06 0 (barrierValue bar parties) e

/-- BARRIER_ARRIVAL: at the counting point, the router of the placement's origin tile (R251). Of the threads whose arrivals
disagree in N, a free choice traps the newcomer, or an earlier one and looks again (log 7). -/
def execBarrierArrival (pid lnum bar parties tile t : Nat) (s : State) : Out :=
  let b := (s.launch pid lnum).barrier bar
  match tabFind (s.thread tile t).arrivals bar with
  | some (.sent e) =>
    if b.arrivals = 0 ∨ b.parties = parties then .next (countArrival s pid lnum bar parties tile t e)
    else
      let newcomer := Config.barrierNewcomerTraps s.free
      let s := s.nextFree
      match newcomer, countedArrivals s pid lnum bar b.phase with
      | false, (tile', t', e') :: _ =>
        let l := s.launch pid lnum
        let s := s.setLaunch pid lnum (l.setBarrier bar { b with arrivals := b.arrivals - 1 })
        .next ((disagree s bar b.parties tile' t' e').event (.barrierArrival pid lnum bar parties tile t))
      | _, _ => .next (disagree s bar parties tile t e)
  | _ => .next s

/-- A thread whose arrival was counted in the completed phase is told of it. -/
def tellThread (tile bar phase : Nat) (s : State) (t : Nat) : State :=
  let h := s.thread tile t
  match tabFind h.arrivals bar with
  | some (.counted k _) =>
    if k = phase then
      let s := s.setThread tile t { h with arrivals := tabPut h.arrivals bar .complete }
      if h.st = .parked (.barrier bar) then s.event (.threadWake tile t) else s
    else s
  | _ => s

/-- BARRIER_COMPLETION: the completion of the tile's next phase reaches it, and parked threads wake (R33, R251). -/
def execBarrierCompletion (pid lnum bar tile : Nat) (s : State) : Out :=
  let l := s.launch pid lnum
  let b := l.barrier bar
  let phase := tabGet 0 b.told tile
  if phase < b.phase then
    let s := s.setLaunch pid lnum (l.setBarrier bar { b with told := tabPut b.told tile (phase + 1) })
    .next ((List.range 8).foldl (tellThread tile bar phase) s)
  else .next s

/-! ### CSTEP (R131, R252) -/

/-- DOWN of a path: the eyelet of its tag has ESTAT.TX.LST 0, 1, 3 or 4 (R399, Table 05-8); a path without one is not. -/
def pathDown (s : State) (pid : Nat) (c : CollImage) (j : Nat) : Bool :=
  match c.paths[j]? with
  | some (some v) =>
    let w := edgeEntry (s.part pid) v
    edgeValid w && (s.eyelet (w.toNat % 512)).tx.lst != 2
  | _ => false

/-- w_j of R131. -/
def pathWeight (s : State) (x : Tile) (pid node : Nat) (c : CollImage) (j : Nat) : Nat :=
  let k := 8 * node + j
  let w := (tabGet 0 x.core.weights k).toNat
  if pathDown s pid c j then 0 else if w ≠ 0 then w else (tabGet 0 x.core.rates k).toNat

/-- The block counts of the paths, or none while every path is down (R131). -/
def splitBlocks (s : State) (x : Tile) (pid node : Nat) (c : CollImage) : Option (List Nat) :=
  let js := List.range c.paths.length
  let ws := js.map (pathWeight s x pid node c)
  if js.all (pathDown s pid c) then none
  else
    let ws := if ws.all (· == 0) then js.map (fun j => if pathDown s pid c j then 0 else 1) else ws
    let total := ws.foldl (· + ·) 0
    let ns := ws.map (fun w => c.blocks * w / total)
    let first := (js.find? (fun j => !pathDown s pid c j)).getD 0
    some (setNth ns first (nth ns first 0 + (c.blocks - ns.foldl (· + ·) 0)))

/-- The paths of a call from their block counts: path 0 carries the first blocks, and so on (R131). -/
def pathRuns (ns : List Nat) (first : Nat) : List PathRun :=
  match ns with
  | [] => []
  | n :: r => ⟨first, n, 0, false, []⟩ :: pathRuns r (first + n)

/-- CSTEP: the next call of a collective node latches its split, which the first tile that makes the call gives to the others
(DESIGN CHOICE, log 24); a third call waits (R131, R252). -/
def bodyCstep (a : GReg) (s : State) : Res :=
  let v := s.g a
  let n := v.toNat
  if 4096 ≤ n then trapHere s 0x06 v
  else
    match boundColl s s.cur.tile n with
    | none => trapHere s 0x06 v
    | some c =>
      let k := s.here.core.calls
      let made := (tabGet (0, 0) k n).1
      let complete := (tabGet (0, 0) k n).2
      if complete + 2 ≤ made then waitRetry s
      else
        let pl := placeOf s s.cur.tile
        let l := s.launch pl.pid pl.lnum
        let key := 4096 * (made + 1) + n
        let latched := (tabFind l.calls key).map (·.1)
        match latched.or (splitBlocks s s.here pl.pid n c) with
        | none => waitRetry s
        | some ns =>
          let s := s.setLaunch pl.pid pl.lnum { l with calls := tabPut l.calls key (ns, (tabGet ([], 0) l.calls key).2) }
          let x := s.here
          .done (s.setHere { x with core := { x.core with
            calls := tabPut k n (made + 1, complete), runs := x.core.runs ++ [⟨n, made + 1, none, pathRuns ns 0, []⟩] } })

/-- CSTEP is T7's (R35). -/
def execCstep (a : GReg) (p : PReg) (s : State) : Out := seqStep 0 true p (bodyCstep a) s

/-- COLLECTIVE_CALL_COMPLETE: the device places the call's entry in q0 (R252); a full queue holds it. The split goes with the
last tile's completion. -/
def execCollectiveCallComplete (pid lnum tile node call : Nat) (s : State) : Out :=
  let x := s.tile tile
  if (recvQueue x false).length < 32 then
    let k := tabGet (0, 0) x.core.calls node
    let l := s.launch pid lnum
    let done := (tabGet ([], 0) l.calls (4096 * call + node)).2 + 1
    let last := decide (((boundColl s tile node).elim 1 (fun c => c.tiles.length)) ≤ done)
    let s := s.setLaunch pid lnum { l with
      calls := if last then tabDel l.calls (4096 * call + node)
        else tabPut l.calls (4096 * call + node) ((tabGet ([], 0) l.calls (4096 * call + node)).1, done) }
    let x := { x with core := { x.core with calls := tabPut x.core.calls node (k.1, k.2 + 1) } }
    let x := setRecv x false (recvQueue x false ++ [BitVec.ofNat 64 (2 ^ 32 * call + node)])
    .next (wakeQueue (s.setTile tile x) tile false)
  else .next (s.after 1 (.collectiveCallComplete pid lnum tile node call))

/-! ### EVSIG and EVWAIT (R254) -/

/-- Threads of a partition parked on a counter are told (R33). -/
def wakeEvent (s : State) (pid c : Nat) : State :=
  s.tiles.foldl (fun s (tile, x) =>
    (List.range 8).foldl (fun s t =>
      match (x.thread t).st with
      | .parked (.event k _) => if k = c ∧ pidOf s tile = pid then s.event (.threadWake tile t) else s
      | _ => s) s) s

/-- 1 is added to an event counter of a partition; waiting threads and heads are told (R254, R341). -/
def signalEvent (s : State) (pid c : Nat) : State :=
  let p := s.part pid
  let s := s.setPart pid { p with counters := tabPut p.counters c (tabGet 0 p.counters c + 1) }
  (wakeEvent s pid c).event (.dispatch pid)

/-- EVSIG: at issue the check, then FENCE.S's ordering; under a snapshot interval the effect waits for the next cut (R377). -/
def bodyEvsig (a : GReg) (s : State) : Res :=
  let v := s.g a
  if 4096 ≤ v.toNat then trapHere s 0x06 v
  else fenceBody readyS (fun s =>
    let pl := placeOf s s.cur.tile
    if (s.part pl.pid).snapi = 0 then .done (signalEvent s pl.pid v.toNat)
    else
      let l := s.launch pl.pid pl.lnum
      .done (s.setLaunch pl.pid pl.lnum { l with heldEvents := l.heldEvents ++ [v.toNat] })) s

/-- EVWAIT (R254). -/
def bodyEvwait (a : GReg) (s : State) : Res :=
  let v := s.g a
  let c := v.toNat % 4096
  let target : Word32 := v.extractLsb' 32 32
  if v.toNat / 4096 % 2 ^ 20 ≠ 0 then trapHere s 0x06 v
  else if eventReached (tabGet 0 (s.part (pidOf s s.cur.tile)).counters c) target then .done s
  else .hold (s.setMe { s.me with st := .parked (.event c target) })

def execEvsig (a : GReg) (p : PReg) (s : State) : Out := seq p (bodyEvsig a) s
def execEvwait (a : GReg) (p : PReg) (s : State) : Out := seq p (bodyEvwait a) s

end Sys2Proof.Machine
end

