-- ==== Sys2Proof/Machine/Matrix.lean ====
section
/-! DEFINITION. The matrix engine: its table and checks, the MX instructions, the matrix words, and its cycle
(spec 11, 09 R256, 06 R156, R157). -/

namespace Sys2Proof.Machine

/-! ### Matrix words (Table 06-13) -/

def Matrix.entry (m : Matrix) (e : Nat) : BitVec 64 := m.table[e % 64]'(Nat.mod_lt _ (by decide))

def mxOp (w : BitVec 64) : Nat := w.toNat / 2 ^ 58
def mxSlot (w : BitVec 64) : Nat := w.toNat / 2 ^ 50 % 256
def mxA (w : BitVec 64) : Nat := w.toNat / 2 ^ 46 % 16
def mxB (w : BitVec 64) : Nat := w.toNat / 2 ^ 42 % 16
def mxAt (w : BitVec 64) : Nat := w.toNat / 2 ^ 38 % 16
def mxVc (w : BitVec 64) : Nat := w.toNat / 2 ^ 33 % 32
def mxAfmt (w : BitVec 64) : Nat := w.toNat / 2 ^ 28 % 32

def isMma (w : BitVec 64) : Bool := mxOp w == 1 || mxOp w == 2
/-- d of Table 11-5 in slots; 0 for an entry that uses no resource. -/
def mxSlots (w : BitVec 64) : Nat :=
  match mxOp w with
  | 1 | 2 => if mxAfmt w = 2 then 16 else 8
  | 3 => 1
  | 6 => 16
  | _ => 0
/-- An entry uses its accumulator tile (Table 11-5). -/
def usesAcc (w : BitVec 64) : Bool := isMma w || mxOp w == 3 || mxOp w == 6

/-! ### Checks (R157, R285, R286, R293) -/

/-- The four-byte field at an offset of the parameter block (Table 11-2). -/
def paramField (ps : List Byte) (o : Nat) : Word32 := BitVec.ofNat 32 (bytesNat ((ps.drop o).take 4))

/-- Channel entry c of a parameter block (Table 11-3). -/
def channelWord (ps : List Byte) (c : Nat) : Word32 := paramField ps (128 + 4 * c)
def readChannel (w : Word32) : ChannelEntry :=
  ⟨w.getLsbD 0, w.extractLsb' 1 5, w.extractLsb' 6 4, w.extractLsb' 10 4⟩

/-- The buffers of a channel's ring (R286). -/
def ringBuffers (c : ChannelEntry) : List Nat := (List.range (c.nobm1.toNat + 1)).map (fun i => (c.obf.toNat + i) % 16)

/-- R285. -/
def paramOk (ps : List Byte) : Bool :=
  (bytesNat ((ps.drop 76).take 52) == 0) && decide ((paramField ps 72).toNat % 8 = 0) &&
    decide ((paramField ps 72).toNat + 128 ≤ Config.storeSize)

/-- R286: a valid entry's format, its reserved bits, and rings that share no buffer. -/
def channelOk (ps : List Byte) (c : Nat) : Bool :=
  let w := channelWord ps c
  let e := readChannel w
  decide (w.toNat < 2 ^ 14) && (!e.v || (decide (0x10 ≤ e.wfmt.toNat) && decide (e.wfmt.toNat ≤ 0x13) &&
    (List.range 32).all (fun d =>
      let f := readChannel (channelWord ps d)
      d == c || !f.v || (ringBuffers e).all (fun b => !(ringBuffers f).contains b))))

/-- Whether two intervals of slots share one, modulo Q (R292). -/
def slotsMeet (q a n b k : Nat) : Bool := (List.range n).any (fun i => (List.range k).any (fun j => (a + i) % q == (b + j) % q))

/-- Two entries that use one resource have intervals that share a slot (R293). -/
def entriesClash (q : Nat) (v w : BitVec 64) : Bool :=
  ((isMma v && isMma w) || (mxOp v == 6 && mxOp w == 6) || (usesAcc v && usesAcc w && mxAt v == mxAt w)) &&
    slotsMeet q (mxSlot v) (mxSlots v) (mxSlot w) (mxSlots w)

/-- The checks of R157 and R293 on entry `e` of a table with period `q`. -/
def entryOk (ps : List Byte) (table : List (BitVec 64)) (q e : Nat) : Bool :=
  let w := nth table e 0
  let earlier := table.take e
  let ch := readChannel (channelWord ps (mxVc w))
  (decodeMatrix w.toNat).isSome && decide (mxSlot w < q) && earlier.all (fun v => decide (mxSlot v ≤ mxSlot w)) &&
    (!isMma w || (mxA w != mxB w && ch.v && (ringBuffers ch).contains (mxB w) &&
      (List.range 32).all (fun c =>
        let f := readChannel (channelWord ps c)
        !f.v || !(ringBuffers f).contains (mxA w)))) &&
    decide (mxSlots w ≤ q) && earlier.all (fun v => !entriesClash q v w)

/-- TVAL of the first failing check of a table image, in the order of R256. -/
def checkTable (ps : List Byte) (table : List (BitVec 64)) (q : Nat) : Option Nat :=
  if !paramOk ps then some 0x80
  else
    match (List.range 32).find? (fun c => !channelOk ps c) with
    | some c => some (0x40 + c)
    | none => (List.range table.length).find? (fun e => !entryOk ps table q e)

/-- The engine with a checked table and parameter block (R284). -/
def loadTable (m : Matrix) (ps : List Byte) (table : List (BitVec 64)) (q : Nat) : Matrix :=
  { m with
    table := Vector.ofFn (fun (i : Fin 64) => nth table i.val 0)
    em1 := BitVec.ofNat 6 (table.length - 1)
    qm1 := BitVec.ofNat 8 (q - 1)
    ts := Vector.ofFn (fun (i : Fin 16) => paramField ps (4 * i.val))
    skey := paramField ps 64
    sctr := paramField ps 68
    sigbase := paramField ps 72
    channels := Vector.ofFn (fun (i : Fin 32) => readChannel (channelWord ps i.val))
    st := 1 }

/-! ### MX instructions (R256) -/

/-- ST = 2 or 3. -/
def mxRunning (m : Matrix) : Bool := m.st == 2 || m.st == 3

/-- Runs `f` on the bytes of a store range, waking a gated bank first (R79). -/
def withBanks (s : State) (off n : Nat) (f : State → Res) : Res :=
  match heldIn s.here off n with
  | some b => waitRetry (wakeBank s s.cur.tile b)
  | none => f s

/-- The table words of an image of E entries. -/
def tableWords (bs : List Byte) (n : Nat) : List (BitVec 64) :=
  (List.range n).map (fun i => BitVec.ofNat 64 (bytesNat ((bs.drop (8 * i)).take 8)))

/-- The channels whose entries differ in two tables. -/
def changedChannels (m n : Matrix) : List Nat :=
  (List.range 32).filter (fun c => nth m.channels.toList c ⟨false, 0, 0, 0⟩ != nth n.channels.toList c ⟨false, 0, 0, 0⟩)

/-- An MXLOAD that may have waited is refused: it holds no channel back any more. -/
def refuseLoad (s : State) (c : BitVec 8) (v : Word) : Res :=
  let u := s.setHere { s.here with matrix := { s.here.matrix with reload := [] } }
  .hold (takeTrap u s.cur.tile s.cur.thread c 0 v s.cur.ipc)

/-- MXLOAD (R256, R284 to R287, R293). One that changes the entry of a channel whose expansion is in progress waits, and no
later tile of the channels that it changes begins under the old entry (R287). -/
def bodyMxload (a b : GReg) (s : State) : Res :=
  let v := s.g a
  let w := s.g b
  let e := w.toNat % 64 + 1
  let q := w.toNat / 256 % 256 + 1
  if v.toNat % 8 ≠ 0 ∨ v.toNat + 8 * e + 256 > Config.storeSize then trapHere s 0x06 v
  else if w.toNat ≥ 2 ^ 16 ∨ w.toNat / 64 % 4 ≠ 0 then trapHere s 0x06 w
  else if mxRunning s.here.matrix then refuseLoad s 0x06 v
  else withEngines s (fun s => withBanks s v.toNat (8 * e + 256) (fun s => readingStore s v.toNat (8 * e + 256) (fun s =>
    let m := s.here.matrix
    let bs := storeBytes s.here v.toNat (8 * e + 256)
    let ps := bs.drop (8 * e)
    let table := tableWords bs e
    match checkTable ps table q with
    | some t => refuseLoad s 0x01 (BitVec.ofNat 64 t)
    | none =>
      let n := { loadTable m ps table q with reload := [] }
      let changed := changedChannels m n
      if s.here.bobbin.expanding.any (fun x => changed.contains x.vc) then
        waitRetry (s.setHere { s.here with matrix := { m with reload := changed } })
      else .done (s.setHere { s.here with matrix := n }))))

/-- The table holds an MEND entry. -/
def hasMend (m : Matrix) : Bool := (List.range (m.em1.toNat + 1)).any (fun e => mxOp (m.entry e) == 7)

/-- MXGO (R256, R298). DESIGN CHOICE (log 26): a second start that comes before the first has begun replaces its rounds, and the
engine starts at the earlier slot. -/
def bodyMxgo (a : GReg) (s : State) : Res :=
  let v := s.g a
  let m := s.here.matrix
  if v.toNat ≥ 2 ^ 32 then trapHere s 0x06 v
  else if m.st = 0 ∨ mxRunning m ∨ (v = 0 ∧ !hasMend m) then trapHere s 0x06 v
  else withEngines s (fun s =>
    .done ((s.setHere { s.here with matrix := { s.here.matrix with go := some (v.truncate 32) } }).after
      ((s.cycle + 16 + 7) / 8 * 8 - s.cycle) (.matrixStart s.cur.tile)))

/-- The element (m, n) of an accumulator tile, as a pattern. -/
def accElement (acc : Mem) (m n : Nat) : Nat := memLoad acc (4 * (128 * m + n)) 4

def Matrix.accTile (m : Matrix) (a : Nat) : Mem := m.acc[a % 16]'(Nat.mod_lt _ (by decide))
def Matrix.setAcc (m : Matrix) (a : Nat) (v : Mem) : Matrix :=
  { m with acc := m.acc.set (a % 16) v (Nat.mod_lt _ (by decide)) }
def Matrix.buffer (m : Matrix) (b : Nat) : OperandBuffer := m.ob[b % 16]'(Nat.mod_lt _ (by decide))
def Matrix.setBuffer (m : Matrix) (b : Nat) (v : OperandBuffer) : Matrix :=
  { m with ob := m.ob.set (b % 16) v (Nat.mod_lt _ (by decide)) }
def Matrix.scale (m : Matrix) (t : Nat) : Nat := (m.ts[t % 16]'(Nat.mod_lt _ (by decide))).toNat

/-- The generator value of an element's stochastic drain (R296). -/
def drainRandom (m : Matrix) (rounds : Word32) (a row n : Nat) : Nat :=
  (kcg (m.sctr + BitVec.ofNat 32 (2 ^ 17 * rounds.toNat + 2 ^ 13 * a + 128 * row + n)) m.skey).toNat

/-- Element (row, n) of an accumulator tile converted by R67. -/
def drained (m : Matrix) (a tsel : Nat) (ofmt : BitVec 2) (srnd : Bool) (rounds : Word32) (row n : Nat) : Rounded :=
  drainValue (accElement (m.accTile a) row n) (m.scale tsel) ofmt srnd (drainRandom m rounds a row n)

/-- Bytes of an output element. -/
def drainSize (ofmt : BitVec 2) : Nat := if ofmt = 0 then 4 else if ofmt = 1 then 2 else 1

/-- MXDRAIN (R256, R67). -/
def bodyMxdrain (a b : GReg) (s : State) : Res :=
  let v := s.g a
  let w := s.g b
  let ofmt : BitVec 2 := v.extractLsb' 8 2
  let srnd := v.getLsbD 10
  let n := drainSize ofmt
  if v.toNat ≥ 2 ^ 11 ∨ ofmt = 3 ∨ (srnd ∧ ofmt = 0) then trapHere s 0x06 v
  else if w.toNat % 64 ≠ 0 ∨ w.toNat + 8192 * n > Config.storeSize then trapHere s 0x06 w
  else if mxRunning s.here.matrix then trapHere s 0x06 v
  else withEngines s (fun s => withBanks s w.toNat (8192 * n) (fun s => readingUnit s 3 (· == .accumulator s.cur.tile (v.toNat % 16)) (fun s =>
    let x := s.here
    let m := x.matrix
    let es := (List.range 8192).map (fun i =>
      drained m (v.toNat % 16) (v.toNat / 16 % 16) ofmt srnd m.rounds (i / 128) (i % 128))
    let y := storeWrite x w.toNat (es.flatMap (fun r => natBytes n r.1))
    .done (s.setHere { y with matrix := { m with flags := es.foldl (fun f r => f ||| r.2) m.flags } }))))

/-- MXCLR (R256). -/
def bodyMxclr (a : GReg) (s : State) : Res :=
  let v := s.g a
  if v.toNat ≥ 2 ^ 16 ∨ mxRunning s.here.matrix then trapHere s 0x06 v
  else withEngines s (fun s =>
    let m := s.here.matrix
    .done (s.setHere { s.here with matrix :=
      ((List.range 16).filter (fun i => v.getLsbD i)).foldl (fun m i => m.setAcc i []) m }))

/-- The MXSTAT status word (Table 09-13). -/
def mxStatus (m : Matrix) : Word :=
  BitVec.ofNat 64 (m.mslot.toNat + 2 ^ 8 * m.qm1.toNat + 2 ^ 16 * m.em1.toNat + 2 ^ 22 * m.st.toNat + 2 ^ 32 * m.rounds.toNat)

/-- Store word index of signal word `n` (R297). -/
def signalWord (m : Matrix) (n : Nat) : Nat := m.sigbase.toNat / 8 + n

/-- MXSTAT (R256, R297); the signal bits wait for their banks (R79). -/
def bodyMxstat (d a : GReg) (s : State) : Res :=
  let v := s.g a
  if v.toNat ≥ 3 then trapHere s 0x06 v
  else withEngines s (fun s =>
    let m := s.here.matrix
    if v = 0 then .done (writeReg s d (mxStatus m))
    else if v = 1 then .done (writeReg s d (zx m.flags))
    else withBanks s m.sigbase.toNat 128 (fun s => .done (writeReg s d (BitVec.ofNat 64
      ((List.range 16).foldl (fun n i => n + (if isFull s.here (signalWord m i) then 2 ^ i else 0)) 0)))))

def execMxload (a b : GReg) (p : PReg) (s : State) : Out := seq p (bodyMxload a b) s
def execMxgo (a : GReg) (p : PReg) (s : State) : Out := seq p (bodyMxgo a) s
def execMxdrain (a b : GReg) (p : PReg) (s : State) : Out := seq p (bodyMxdrain a b) s
def execMxclr (a : GReg) (p : PReg) (s : State) : Out := seq p (bodyMxclr a) s
def execMxstat (d a : GReg) (p : PReg) (s : State) : Out := seq p (bodyMxstat d a) s

/-! ### Firing (R291, Table 11-5) -/

def State.modMatrix (s : State) (tile : Nat) (f : Matrix → Matrix) : State :=
  s.modTile tile (fun x => { x with matrix := f x.matrix })
def State.hereMatrix (s : State) : Matrix := s.here.matrix

/-- A vertical transfer of an accumulator tile is in progress (R228). -/
def transferOn (x : Tile) (a : Nat) : Bool := x.eng.vxfers.any (fun (_, t) => t.acc && t.unit == a)

/-- The M latches of a tile's PEs are all empty (Table 11-5). -/
def latchesEmpty (s : State) (tile : Nat) : Bool := (List.range 64).all (fun i => !(s.pe (tilePe tile i)).m.full)

/-- A due entry fires if its condition holds; otherwise the engine freezes, and later entries do not fire (R291). -/
def fireWhen (ready : State → Bool) (f : State → State) (s : State) : Out :=
  let m := s.hereMatrix
  if m.st ≠ 2 ∨ m.ending then .next s
  else if ready s then
    .next (f (s.modMatrix s.cur.tile (fun m => { m with due := m.due.erase s.cur.entry, firings := m.firings + 1 })))
  else .next (s.modMatrix s.cur.tile (fun m => { m with st := 3 }))

/-- The entry is in progress from now on (R292). -/
def beginEntry (s : State) : State :=
  s.modMatrix s.cur.tile (fun m => { m with progress := m.progress ++ [⟨s.cur.entry, m.firings, 0, m.rounds⟩] })

def mmaReady (a b acc : BitVec 4) (s : State) : Bool :=
  let m := s.hereMatrix
  (m.buffer a.toNat).full && (m.buffer b.toNat).full && !transferOn s.here acc.toNat

def execMnop (_ : BitVec 8) (s : State) : Out := fireWhen (fun _ => true) (fun s => s) s
/-- MMA and MMAS: the step is performed when the entry completes (R294). -/
def execMma (_ : BitVec 8) (a b acc : BitVec 4) (_ _ : BitVec 5) (_ : BitVec 1) (s : State) : Out :=
  fireWhen (mmaReady a b acc) beginEntry s
def execMmas (_ : BitVec 8) (a b acc : BitVec 4) (_ _ : BitVec 5) (_ : BitVec 1) (s : State) : Out :=
  fireWhen (mmaReady a b acc) beginEntry s
/-- MZERO (R295). -/
def execMzero (_ : BitVec 8) (acc : BitVec 4) (s : State) : Out :=
  fireWhen (fun s => !transferOn s.here acc.toNat)
    (fun s => beginEntry (s.modMatrix s.cur.tile (fun m => m.setAcc acc.toNat []))) s
/-- MSIG: the signal takes a place in the queue of 4 (R297). -/
def execMsig (slot : BitVec 8) (sig : BitVec 4) (s : State) : Out :=
  fireWhen (fun s => decide (s.hereMatrix.signals.length < 4))
    (fun s => s.modMatrix s.cur.tile (fun m => { m with signals := m.signals ++
      [⟨sig, m.rounds.zeroExtend 64 <<< 32 ||| slot.zeroExtend 64, m.progress.map (·.fired)⟩] })) s
/-- MWAIT: fires when the signal word is full, and takes it; otherwise the engine freezes and the word's bank tests it each time
the bit changes (R297). A bank without power is woken first (R79). -/
def execMwait (_ : BitVec 8) (sig : BitVec 4) (s : State) : Out :=
  let w := signalWord s.hereMatrix sig.toNat
  let frozen (s : State) : Out := .next (s.modMatrix s.cur.tile (fun m => { m with st := 3 }))
  if s.hereMatrix.st ≠ 2 ∨ s.hereMatrix.ending then .next s
  else if s.hereMatrix.taken then fireWhen (fun _ => true) (fun s => s.modMatrix s.cur.tile (fun m => { m with taken := false })) s
  else if bankHeld s.here (w % 32) then frozen (wakeBank s s.cur.tile (w % 32))
  else if isFull s.here w then fireWhen (fun _ => true) (fun s => changeBit s s.cur.tile w false) s
  else frozen (s.modMatrix s.cur.tile (fun m => { m with waits := some w }))
/-- MDRAIN: one column per unfrozen cycle follows (R296). -/
def execMdrain (_ : BitVec 8) (acc _ : BitVec 4) (_ : BitVec 2) (_ : BitVec 1) (s : State) : Out :=
  fireWhen (fun s => latchesEmpty s s.cur.tile && !transferOn s.here acc.toNat) beginEntry s
/-- MEND: no later entry fires (R298). -/
def execMend (_ : BitVec 8) (s : State) : Out :=
  fireWhen (fun _ => true) (fun s => s.modMatrix s.cur.tile (fun m => { m with ending := true, due := [] })) s

/-! ### The engine's cycle (R291, R292, R298) -/

/-- The entries due in a slot, in table order. -/
def dueIn (m : Matrix) (slot : Nat) : List Nat :=
  (List.range (m.em1.toNat + 1)).filter (fun e => mxSlot (m.entry e) == slot)

/-- An entry already firing whose condition fails, which only MDRAIN can do (R291). -/
def drainBlocked (s : State) (tile : Nat) : Bool :=
  let m := (s.tile tile).matrix
  m.progress.any (fun p => mxOp (m.entry p.entry) == 6) && !latchesEmpty s tile

/-- The firings of a cycle, then its work. -/
def enqueueMatrix (s : State) (tile : Nat) : State :=
  { s with agenda := s.agenda ++ ((s.tile tile).matrix.due.map (Work.matrix tile)) ++ [Work.matrixWork tile] }

/-- An entry in progress would read a lost word of an operand buffer or an accumulator tile (R380). -/
def entryLost (s : State) (tile : Nat) : Bool :=
  let m := (s.tile tile).matrix
  !s.flaws.isEmpty && m.progress.any (fun p =>
    let w := m.entry p.entry
    lost s (fun q =>
      (isMma w && (q == .buffer tile (mxA w) || q == .buffer tile (mxB w))) ||
        ((mxOp w == 1 || mxOp w == 6) && q == .accumulator tile (mxAt w))))

/-- The matrix table or its parameter block is being written again (R379). -/
def matrixReloads (s : State) (tile : Nat) : Bool := s.reloading.contains (.matrix tile) || s.reloading.contains (.parameters tile)

/-- A cycle of the engine begins. It freezes while a table is written again (R379) and at a lost word, which strikes the launch
(R380). -/
def matrixTurn (s : State) (tile : Nat) : State :=
  if (s.tile tile).matrix.held then s
  else if entryLost s tile then strikeTile (s.modMatrix tile (fun m => { m with st := 3 })) tile 3
  else if drainBlocked s tile || matrixReloads s tile ||
      tileWaits s tile (fun _ k => k == .matrix) (s.tile tile).matrix.mslot.toNat then s.modMatrix tile (fun m => { m with st := 3 })
  else enqueueMatrix (s.modMatrix tile (fun m => { m with st := 2 })) tile

/-- MSLOT_ADVANCE: a cycle of a running engine (R291). -/
def execMslotAdvance (tile : Nat) (s : State) : Out := .next (if (s.tile tile).matrix.st = 2 then matrixTurn s tile else s)
/-- MATRIX_RESUME: a frozen engine tries its cycle again (R44, R291). -/
def execMatrixResume (tile : Nat) (s : State) : Out := .next (if (s.tile tile).matrix.st = 3 then matrixTurn s tile else s)

/-- The engine starts a run of `n` rounds: MSLOT, CYC and ROUNDS are 0 (R256). -/
def beginMatrix (m : Matrix) (n : Word32) : Matrix :=
  { m with go := none, limit := n, mslot := 0, cyc := 0, rounds := 0, st := 2, ending := false, due := dueIn m 0 }

/-- MATRIX_START (R256): the start that was set for this slot. -/
def execMatrixStart (tile : Nat) (s : State) : Out :=
  let m := (s.tile tile).matrix
  match m.go with
  | none => .next s
  | some n =>
    if m.held then .next (s.after 1 (.matrixStart tile)) else .next (s.modMatrix tile (fun m => beginMatrix m n))

/-- MSLOT, CYC and ROUNDS advance (R43, R298). -/
def advanceSlot (m : Matrix) : Matrix :=
  if m.ending then m
  else if m.cyc ≠ 7 then { m with cyc := m.cyc + 1 }
  else if m.mslot ≠ m.qm1 then { m with cyc := 0, mslot := m.mslot + 1, due := dueIn m (m.mslot.toNat + 1) }
  else
    let r := m.rounds + 1
    if r = m.limit then { m with cyc := 0, mslot := 0, rounds := r, ending := true, due := [] }
    else { m with cyc := 0, mslot := 0, rounds := r, due := dueIn m 0 }

/-- The arcs of a tile's matrix node: those into its M latches (R296). -/
def matrixArcs (s : State) (tile : Nat) : List (Nat × ArcImage) :=
  match (s.tile tile).place with
  | none => []
  | some pl =>
    match imageOf s pl.pid pl.lnum with
    | none => []
    | some i =>
      (launchArcs s pl.pid pl.lnum).filter (fun (_, a) => nth i.nodes a.fromNode (.seq 0) == .matrix &&
        (match a.toPort with
         | some (t, .m) => 64 * (pl.y0 + t / 512 / 8) + pl.x0 + t % 512 / 8 == tile
         | _ => false))

/-- A value reaches an M latch: one token of its arc (R47, R296). -/
def drainToken (s : State) (tile i : Nat) (v : Word32) : State :=
  let k := tilePe tile i
  let s := s.setPe k { s.pe k with m := ⟨v, true⟩ }
  let s := s.modTile tile (fun x => { x with sent := x.sent + 1, received := x.received + 1 })
  match (s.tile tile).place with
  | none => s
  | some pl =>
    ((matrixArcs s tile).filter (fun (_, a) => match a.toPort with
      | some (t, _) => 512 * (8 * pl.y0 + t / 512) + 8 * pl.x0 + t % 512 == k | none => false)).foldl (fun s (n, _) =>
        let l := s.launch pl.pid pl.lnum
        let a := tabGet ArcState.reset l.arcs n
        s.setLaunch pl.pid pl.lnum { l with arcs := tabPut l.arcs n { a with sent := a.sent + 1, received := a.received + 1 } }) s

/-- One drain cycle: column `p.done` of the accumulator tile (R296). -/
def drainColumn (s : State) (tile : Nat) (p : Progress) : State :=
  let m := (s.tile tile).matrix
  let w := m.entry p.entry
  let ofmt : BitVec 2 := w.extractLsb' 22 2
  (List.range 64).foldl (fun s i =>
    let r := drained m (mxAt w) (w.toNat / 2 ^ 24 % 16) ofmt (w.getLsbD 21) p.rounds i p.done
    (drainToken s tile i (BitVec.ofNat 32 r.1)).modMatrix tile (fun m => { m with flags := m.flags ||| r.2 })) s

/-- The run has ended: MEND or the last round, and nothing in progress or queued (R298). -/
def matrixDone (m : Matrix) : Bool := mxRunning m && m.ending && m.progress.isEmpty && m.signals.isEmpty
def checkRunEnd (s : State) (tile : Nat) : State :=
  if matrixDone (s.tile tile).matrix then s.event (.matrixRunEnd tile) else s

/-- The end of an unfrozen cycle: every entry in progress does a cycle of work, and the slot advances (R291). -/
def matrixWork (tile : Nat) (s : State) : State :=
  let m := (s.tile tile).matrix
  if m.st ≠ 2 then s
  else
    let s := m.progress.foldl (fun s p => if mxOp (m.entry p.entry) = 6 then drainColumn s tile p else s) s
    let s := s.modMatrix tile (fun m => { m with progress := m.progress.map (fun p => { p with done := p.done + 1 }) })
    let s := s.modMatrix tile advanceSlot
    let m := (s.tile tile).matrix
    let s := m.progress.foldl (fun s p =>
      if 8 * mxSlots (m.entry p.entry) ≤ p.done then s.event (.matrixEntryComplete tile p.entry) else s) s
    checkRunEnd s tile

/-! ### An MMA step (R289, R290, R294) -/

/-- An expanded weight (Table 11-4). -/
def weightCode (b w : Nat) : Nat := b / 2 ^ (18 * w) % 2 ^ 18
def weightElem (c : Nat) : Elem :=
  if c / 2 ^ 10 % 4 = 0 then .fin (c % 2 == 1) (c / 2 % 16) ((c / 32 % 32 : Nat) - 16 : Int)
  else if c / 2 ^ 10 % 4 = 1 then .inf (c % 2 == 1)
  else .nan
/-- Column n of a B buffer read as one number: its scale and its 64 weights (R290). -/
def columnOf (b n : Nat) : Nat × List Elem :=
  ((List.range 8).foldl (fun a k => a + 2 ^ k * (weightCode b (64 * n + k) / 2 ^ 12 % 2)) 0,
   (List.range 64).map (fun k => weightElem (weightCode b (64 * n + k))))

/-- Row m of an A buffer: its scale and its 64 elements (R289). -/
def rowOf (afmt : Nat) (a : Mem) (m : Nat) : Nat × List Elem :=
  if afmt = 2 then (127, (List.range 64).map (fun k => expandBf16 (memLoad a (128 * m + 2 * k) 2)))
  else
    ((memGet a (65 * m)).toNat, (List.range 64).map (fun k =>
      let b := (memGet a (65 * m + 1 + k)).toNat
      if afmt = 0x10 then expandE4m3 b else expandE5m2 b))

/-- One accumulator element of an MMA step (R66, R294). -/
def mmaElement (fp8 set : Bool) (acc : Nat) (row col : Nat × List Elem) : Rounded :=
  let b := blockTerm fp8 row.1 col.1 row.2 col.2
  let r := fpAdd fp32 (if set then 0 else acc) b.1
  (r.1, b.2 ||| r.2)

/-- The results of an MMA step, row by row. -/
def mmaStep (w : BitVec 64) (a b acc : Mem) : List Rounded :=
  let bn := memLoad b 0 18432
  let cols := (List.range 128).map (columnOf bn)
  (List.range 64).flatMap (fun m =>
    let row := rowOf (mxAfmt w) a m
    (List.zip (List.range 128) cols).map (fun (n, col) =>
      mmaElement (mxAfmt w != 2) (mxOp w == 2) (accElement acc m n) row col))

/-- The effect of an entry at the end of its last cycle (R294). -/
def completeEntry (m : Matrix) (w : BitVec 64) : Matrix :=
  if isMma w then
    let rs := mmaStep w (m.buffer (mxA w)).mem (m.buffer (mxB w)).mem (m.accTile (mxAt w))
    let m := { m.setAcc (mxAt w) (memWrite [] 0 (rs.flatMap (fun r => natBytes 4 r.1))) with
      flags := rs.foldl (fun f r => f ||| r.2) m.flags }
    if w.getLsbD 20 then
      let m := m.setBuffer (mxA w) { m.buffer (mxA w) with full := false }
      m.setBuffer (mxB w) { m.buffer (mxB w) with full := false }
    else m
  else m

/-- MATRIX_ENTRY_COMPLETE (R292, R294). -/
def execMatrixEntryComplete (tile entry : Nat) (s : State) : Out :=
  let m := (s.tile tile).matrix
  match m.progress.find? (fun p => p.entry == entry && decide (8 * mxSlots (m.entry entry) ≤ p.done)) with
  | none => .next s
  | some p =>
    .next (checkRunEnd (s.modMatrix tile (fun m => completeEntry { m with progress := m.progress.erase p } (m.entry entry))) tile)

/-- The head of the signal queue may be performed: every entry that fired before its MSIG has completed (R297). -/
def signalReady (m : Matrix) : Option Signal :=
  match m.signals with
  | [] => none
  | g :: _ => if m.progress.any (fun p => g.after.contains p.fired) then none else some g

/-- SIGNAL_WRITE: STF on the signal word (R297). -/
def execSignalWrite (tile : Nat) (s : State) : Out :=
  let x := s.tile tile
  match signalReady x.matrix with
  | none => .next s
  | some g =>
    let w := signalWord x.matrix g.sig.toNat
    if bankHeld x (w % 32) then .next (wakeBank s tile (w % 32))
    else
      let s := s.modMatrix tile (fun m => { m with signals := m.signals.tail })
      .next (checkRunEnd (performStf s tile w g.value) tile)

/-- MATRIX_RUN_END: ST := 4, and a drain token down each output arc (R298). -/
def execMatrixRunEnd (tile : Nat) (s : State) : Out :=
  if matrixDone (s.tile tile).matrix then
    .next ((matrixArcs s tile).foldl (fun s (n, _) => s.event (.drainToken tile n))
      (s.modMatrix tile (fun m => { m with st := 4 })))
  else .next s

end Sys2Proof.Machine
end

