-- ==== Sys2Proof/Machine/Zwilu.lean ====
section
/-! DEFINITION. The Zwilu layer: transmitter timetables, delivery and refusal, expansion by the bobbin, overruns and the
domain halt (spec 05 R109 to R117, 11 R287, 17 R382). -/

namespace Sys2Proof.Machine

/-! ### Groups and timetables (R109 to R113) -/

def groupKey (origin n : Nat) : Nat := 4096 * origin + n
def State.group (s : State) (origin n : Nat) : Group := tabGet Group.reset s.groups (groupKey origin n)

/-- Wavelengths of a group: the bits of WMASK. -/
def wavelengths (g : Group) : Nat := onesBelow (g.wmask.zeroExtend 64) 16
/-- Slots that one flit of a group takes (R112). -/
def runSlots (g : Group) : Nat := if wavelengths g = 4 then 4 else if wavelengths g = 8 then 2 else 1

/-- KIND and GROUP of the quarters of a timetable entry (R111). -/
def quarters (w : BitVec 64) : List (Nat × Nat) :=
  (List.range 4).map (fun q => (w.toNat / 2 ^ (16 * q + 14) % 4, w.toNat / 2 ^ (16 * q) % 4096))

/-- The entry that a transmitter uses in a slot (R111). -/
def timetableEntry (t : Transmitter) (slot : Nat) : BitVec 64 :=
  if t.entries.isEmpty then 0 else nth t.entries ((slot - t.s0 + t.phi) % t.entries.length) 0

def Transmitter.send (t : Transmitter) (g : Nat) : GroupSend := tabGet GroupSend.reset t.sends g
def Transmitter.setSend (t : Transmitter) (g : Nat) (x : GroupSend) : Transmitter := { t with sends := tabPut t.sends g x }

/-! ### Overruns (R116) -/

/-- A flit on every eyelet that is in service. -/
def onEyelets (s : State) (f : EyeletFlit) : State := s.eyelets.foldl (fun s (e, _) => eyeletQueue s e f) s

/-- The halt notice that names slot H (Table 18-3, class 4, kind 3). -/
def haltNoticeFlit (h : Nat) : EyeletFlit := ⟨4, 0, 0, BitVec.ofNat 256 (3 + 2 ^ 48 * h)⟩

/-- The first multiple of 128 at least 128 slots away. -/
def haltSlot (now : Nat) : Nat := (now + 128 + 127) / 128 * 128

/-- A halt at slot H; the smaller of two applies (R116). -/
def setHalt (s : State) (h : Nat) (who : Nat × Nat × Nat × Nat) : State :=
  match s.halt.declared with
  | none => { s with halt := { s.halt with declared := some h, who := who } }
  | some k => { s with halt := { s.halt with declared := some (min h k), who := if h < k then who else s.halt.who } }

/-- OVERRUN: declared unless a halt is in effect; the notice goes out on every eyelet (R116). -/
def overrun (s : State) (skind src group vc : Nat) : State :=
  if s.halt.active then s
  else onEyelets (setHalt s (haltSlot s.gslot) (skind, src, group, vc)) (haltNoticeFlit (haltSlot s.gslot))

/-! ### A transmitter's slot (R111 to R113, R115) -/

/-- A flit reaches every drop tile of its group; it is checked and staged at the end of a cycle, so that what follows sees it in
the next one (R14, R114). -/
def deliverFlit (s : State) (origin : Nat) (f : ZwiluFlit) (cycles : Nat) : State :=
  (s.group origin f.group).drops.foldl (fun s d => s.after cycles (.zwiluFlitReceive d f [])) s

/-- A group has a refused flit that has not been resent. -/
def Transmitter.owes (t : Transmitter) (f : ZwiluFlit) : Bool := (t.send f.group).refused.any (fun r => r.1 == f.seq)

/-- The last 64 flits sent on the waveguide: one that is sent again is the newest (R113). -/
def retain (t : Transmitter) (f : ZwiluFlit) : Transmitter :=
  { t with retained := (f :: t.retained.filter (fun g => !(g.group == f.group && g.seq == f.seq))).take 64 }

/-- The group whose data run in this slot would evict a refused flit that has not been resent; `k` flits leave before it (R116). -/
def overrunGroup (t : Transmitter) (gs : List (Nat × Nat)) (k : Nat) : Option Nat :=
  match gs with
  | [] => none
  | (kind, g) :: r =>
    if kind = 1 ∧ !(t.send g).queue.isEmpty ∧ !t.runs.any (fun e => e.1 == g) then
      if (t.retained[63 - k]?).any t.owes then some g else overrunGroup t r (k + 1)
    else overrunGroup t r k

/-- The oldest refused flit of a group that may be resent in a slot (R113, R115): `refused` stands in SEQ order. -/
def resendable (x : GroupSend) (slot : Nat) : Option Nat := (x.refused.find? (fun r => decide (r.2 ≤ slot))).map (·.1)

/-- A refused flit of a group is taken for its resend. -/
def takeResend (t : Transmitter) (g q : Nat) : Transmitter × Option ZwiluFlit :=
  let x := t.send g
  let t := t.setSend g { x with refused := x.refused.filter (fun r => r.1 != q) }
  match t.retained.find? (fun f => f.group == g && f.seq == q) with
  | none => (t, none)
  | some f => (retain t f, some { f with resend := true })

/-- What a run of a group sends: the next flit, a refused one, or nothing (R113). -/
def pickFlit (t : Transmitter) (g kind slot : Nat) : Transmitter × Option ZwiluFlit :=
  let x := t.send g
  if kind = 1 then
    match x.queue with
    | [] => (t, none)
    | f :: r => (retain (t.setSend g { x with queue := r }) f, some f)
  else
    match resendable x slot with
    | none => (t, none)
    | some q => takeResend t g q

/-- The runs of a slot: one that is under way goes on, another group of the entry begins one. A run's flit is checked at the end of
the slot after its last (R114). -/
def slotRuns (s : State) (n : Nat) (gs : List (Nat × Nat)) : State :=
  gs.foldl (fun s (kind, g) =>
    let t := s.tx n
    let grp := s.group t.origin g
    match t.runs.find? (fun r => r.1 == g) with
    | some (_, left, f) =>
      let rest := t.runs.filter (fun r => r.1 != g)
      if left ≤ 1 then
        let s := s.setTx n { t with runs := rest }
        match f with
        | none => s
        | some f => deliverFlit s t.origin f 16
      else s.setTx n { t with runs := rest ++ [(g, left - 1, f)] }
    | none =>
      let p := pickFlit t g kind s.gslot
      let s := s.setTx n p.1
      if runSlots grp = 1 then (match p.2 with | none => s | some f => deliverFlit s t.origin f 16)
      else s.setTx n { p.1 with runs := p.1.runs ++ [(g, runSlots grp - 1, p.2)] }) s

/-- TRANSMITTER_SLOT: the entry of this slot; a transmitter that stands still or is blocked sends nothing, nor does one that
declares an overrun in this slot (R54, R116). -/
def execTransmitterSlot (n : Nat) (s : State) : Out :=
  let t := s.tx n
  if t.blocked ∨ t.held ∨ s.halt.active then .next s
  else
    let gs := ((quarters (timetableEntry t s.gslot)).filter (fun q => q.1 == 1 || q.1 == 2)).eraseDups
    match overrunGroup t gs 0 with
    | some g => .next (overrun (s.setTx n { t with blocked := true }) 2 n g (s.group t.origin g).vc)
    | none => .next (slotRuns s n gs)

/-! ### Reception (R114) -/

def Bobbin.expect (b : Bobbin) (vc : Nat) : Nat := tabGet 0 b.expected vc
def Bobbin.staged (b : Bobbin) (vc : Nat) : List ZwiluFlit := tabGet [] b.staging vc

/-- Inserts a flit in SEQ order. -/
def insertFlit (l : List ZwiluFlit) (f : ZwiluFlit) : List ZwiluFlit :=
  match l with
  | [] => [f]
  | g :: r => if g.seq < f.seq then g :: insertFlit r f else f :: g :: r

/-- The next expected SEQ once the staged flits that follow are counted. -/
def nextExpected (l : List ZwiluFlit) (e : Nat) : Nat := l.foldl (fun e f => if f.seq = e then e + 1 else e) e

/-- The transmitter and the placement's origin of a tile's group. -/
def groupHome (s : State) (tile g : Nat) : Option (Nat × Nat) :=
  (s.tile tile).place.map (fun pl => ((s.group (64 * pl.y0 + pl.x0) g).wg, 64 * pl.y0 + pl.x0))

/-- CRC-64 of ECMA-182: the remainder of the bytes, most significant bit first, by its polynomial (Table 05-2). -/
def crc64 (bs : List Byte) : BitVec 64 :=
  bs.foldl (fun (r : BitVec 64) (b : Byte) =>
    (List.range 8).foldl (fun r _ => if r.getLsbD 63 then (r <<< 1) ^^^ 0x42F0E1EBA9EA3693#64 else r <<< 1)
      (r ^^^ BitVec.ofNat 64 (2 ^ 56 * b.toNat))) 0

/-- The 632 bytes of a flit before its CRC (Table 05-2). -/
def flitBody (f : ZwiluFlit) : List Byte :=
  (f.payload ++ List.replicate 576 0).take 576 ++ natBytes 4 f.seq ++ natBytes 2 f.group ++ natBytes 1 f.vc ++
    natBytes 1 (boolNat f.last + 2 * boolNat f.resend) ++ natBytes 4 f.blk ++ natBytes 2 f.off ++ natBytes 2 f.payload.length ++
    List.replicate 40 0

/-- A flit as its 640 bytes (Table 05-2). -/
def flitBytes (f : ZwiluFlit) : List Byte := flitBody f ++ natBytes 8 (crc64 (flitBody f)).toNat

/-- The flit that 640 bytes are (Table 05-2). -/
def readFlit (bs : List Byte) : ZwiluFlit :=
  let at_ (o n : Nat) : Nat := field bs o n
  ⟨at_ 580 2, at_ 582 1, at_ 576 4, decide (at_ 583 1 % 2 = 1), decide (at_ 583 1 / 2 % 2 = 1), at_ 584 4, at_ 588 2,
    bs.take (at_ 590 2)⟩

/-- Where byte `j` of a flit travels, with `k` wavelengths: the wavelength, the slot of the run, the byte there (R112). -/
def lightPlace (k j : Nat) : Nat × Nat × Nat := (j / 40 % k, j / 40 / k, j % 40)

/-- The bytes of a flit as a tile receives them. -/
def receivedBytes (f : ZwiluFlit) (k : Nat) (d : List LightError) : List Byte :=
  (List.zip (List.range 640) (flitBytes f)).map (fun (j, b) =>
    d.foldl (fun b e => if (e.wavelength, e.slot, e.byte) = lightPlace k j then b ^^^ e.bits else b) b)

/-- The flit that passes a tile's CRC check, if it does (R114). -/
def checkedFlit (f : ZwiluFlit) (k : Nat) (d : List LightError) : Option ZwiluFlit :=
  let bs := receivedBytes f k d
  if d.isEmpty then some f
  else if crc64 (bs.take 632) = BitVec.ofNat 64 (field bs 632 8) then some (readFlit bs) else none

/-- A good flit is staged in SEQ order, or discarded where its SEQ has been accepted; fewer than 128 free entries are an overrun
(R114, R116). -/
def stageFlit (s : State) (tile : Nat) (f : ZwiluFlit) : State :=
  let b := (s.tile tile).bobbin
  let l := b.staged f.vc
  if f.seq < b.expect f.vc ∨ l.any (fun g => g.seq == f.seq) then s
  else
    let l := insertFlit l f
    let b := { b with staging := tabPut b.staging f.vc l, expected := tabPut b.expected f.vc (nextExpected l (b.expect f.vc)) }
    let s := s.modTile tile (fun x => { x with bobbin := b })
    let s := arcReceives s tile f.vc (tokensIn f.off f.payload.length)
    if 256 - l.length < 128 then overrun s 0 tile f.group f.vc else s

/-- Light damages a flit that is on its way to a tile: its arrival there takes the damage. -/
def damageFlit (s : State) (tile : Nat) (f : ZwiluFlit) (d : List LightError) : Option State :=
  let clean := Work.event (.zwiluFlitReceive tile f [])
  let hit (w : Work) : Work := if w = clean then .event (.zwiluFlitReceive tile f d) else w
  if s.agenda.contains clean || s.timers.any (fun (_, w) => w == clean) then
    some { s with agenda := s.agenda.map hit, timers := s.timers.map (fun (t, w) => (t, hit w)) }
  else none

/-- ZWILU_FLIT_RECEIVE (R114): the flit is staged or discarded if it is good, else refused. Damage that light does to a flit still
on its way comes from outside (log 9), and counts when the flit arrives. -/
def execZwiluFlitReceive (tile : Nat) (f : ZwiluFlit) (damage : List LightError) (s : State) : Out :=
  match (if damage.isEmpty then none else damageFlit s tile f damage) with
  | some s => .next s
  | none =>
    let k := match groupHome s tile f.group with | some (_, o) => wavelengths (s.group o f.group) | none => 16
    match checkedFlit f k damage with
    | some g => .next (stageFlit s tile g)
    | none =>
      match groupHome s tile f.group with
      | none => .next s
      | some (n, _) => .next (s.event (.refusalReceive n f.group f.seq))

/-- Refused flits in SEQ order, with the slot from which each may be resent. -/
def insertRefused (l : List (Nat × Nat)) (r : Nat × Nat) : List (Nat × Nat) :=
  match l with
  | [] => [r]
  | e :: l => if r.1 < e.1 then r :: e :: l else e :: insertRefused l r

/-- REFUSAL_RECEIVE: the flit is to be resent, at the earliest 2 slots after the slot in which it ended, which is the one that
begins as it is checked (R114, R115). -/
def execRefusalReceive (n g seq : Nat) (s : State) : Out :=
  let t := s.tx n
  let x := t.send g
  if x.refused.any (fun r => r.1 == seq) then .next s
  else .next (s.setTx n (t.setSend g { x with refused := insertRefused x.refused (seq, s.gslot) }))

/-! ### Expansion (R287, R290) -/

/-- Bytes of a packed G64 block (Table 03-3). -/
def blockSize (wfmt : BitVec 5) : Nat := if wfmt = 0x12 then 33 else if wfmt = 0x13 then 25 else 65

/-- The expanded weight of an element (Table 11-4): Inf and NaN carry M = 0 and XB = 0; `neg` is the sign of a NaN. -/
def encodeElem (neg : Bool) (e : Elem) : Nat :=
  match e with
  | .fin s m x => boolNat s + 2 * m + 2 ^ 5 * (x + 16).toNat
  | .inf s => boolNat s + 2 ^ 10
  | .nan => boolNat neg + 2 ^ 11

/-- Element k of a packed block (R64, R65). -/
def blockElem (wfmt : BitVec 5) (bs : List Byte) (k : Nat) : Elem :=
  match wfmt.toNat with
  | 0x10 => expandE4m3 (nth bs (1 + k) 0).toNat
  | 0x11 => expandE5m2 (nth bs (1 + k) 0).toNat
  | 0x12 => expandInt 4 ((nth bs (1 + k / 2) 0).toNat / 2 ^ (4 * (k % 2)) % 16)
  | _ => expandInt 3 (bytesNat (bs.drop 1) / 2 ^ (3 * k) % 8)

/-- The 64 expanded weights of a block, with the bits of its scale in weights 0 to 7 (R290). -/
def expandBlock (wfmt : BitVec 5) (bs : List Byte) : List Nat :=
  (List.range 64).map (fun k =>
    encodeElem ((nth bs (1 + k) 0).getLsbD 7) (blockElem wfmt bs k) + (if k < 8 then 2 ^ 12 * ((nth bs 0 0).toNat / 2 ^ k % 2) else 0))

/-- The number that a list of 18-bit weights makes. -/
def packWeights (l : List Nat) : Nat :=
  match l with
  | [] => 0
  | w :: r => w + 2 ^ 18 * packWeights r

/-- The 18,432 bytes of the buffer that a weight tile expands to. -/
def expandTile (wfmt : BitVec 5) (bs : List Byte) : List Byte :=
  let n := blockSize wfmt
  let bs := (bs ++ List.replicate (128 * n) 0).take (128 * n)
  natBytes 18432 (packWeights ((List.range 128).flatMap (fun i => expandBlock wfmt ((bs.drop (n * i)).take n))))

/-- The flits of the channel's next block, if every flit of it is staged (R114). -/
def readyBlock (b : Bobbin) (vc : Nat) : Option (List ZwiluFlit) :=
  let n := tabGet 0 b.nextBlk vc
  let l := (b.staged vc).filter (fun f => f.blk == n)
  if l.any (fun f => f.last && decide (f.seq < b.expect vc)) then some l else none

/-- The bytes of a block's flits. -/
def blockBytes (l : List ZwiluFlit) : List Byte := l.flatMap (fun f => f.payload)

/-- An MXLOAD that changes the channel's entry waits for its expansions to end (R287). -/
def loadWaits (x : Tile) (vc : Nat) : Bool :=
  x.matrix.reload.contains vc && (List.range 8).any (fun t => (x.thread t).st == .waiting .retry)

/-- Whether the next weight tile of a channel can begin to expand: a valid entry, a whole block, an empty buffer, and no
expansion of the channel or into the buffer (R287, R288). -/
def canExpand (x : Tile) (vc : Nat) : Option (List ZwiluFlit × BitVec 4) :=
  let c := nth x.matrix.channels.toList vc ⟨false, 0, 0, 0⟩
  let buf : BitVec 4 := BitVec.ofNat 4 (c.obf.toNat + tabGet 0 x.bobbin.nextBlk vc % (c.nobm1.toNat + 1))
  match readyBlock x.bobbin vc with
  | none => none
  | some l =>
    if c.v && !loadWaits x vc && !(x.matrix.buffer buf.toNat).full && !x.bobbin.expanding.any (fun e => e.vc == vc || e.buffer == buf) then
      some (l, buf)
    else none

/-- BLOCK_EXPANSION: the expansion of the channel's next weight tile begins; a wrong length is recorded (R287). None begins while
the tile's channel table is written again (R379). -/
def execBlockExpansion (tile vc : Nat) (s : State) : Out :=
  let x := s.tile tile
  if x.stopped ∨ s.reloading.contains (.channels tile) then .next s
  else
    match canExpand x vc with
    | none => .next s
    | some (l, buf) =>
      let blk := tabGet 0 x.bobbin.nextBlk vc
      let c := nth x.matrix.channels.toList vc ⟨false, 0, 0, 0⟩
      let s := s.setTile tile { x with bobbin := { x.bobbin with expanding := x.bobbin.expanding ++ [⟨vc, blk, buf⟩] } }
      let s := s.after 64 (.expansionComplete tile vc)
      .next (if (blockBytes l).length = 128 * blockSize c.wfmt then s
        else postAt s tile 0x08 0 0 (natBytes 1 vc ++ [0, 0, 0] ++ natBytes 4 blk))

/-- EXPANSION_COMPLETE: the buffer is written and full, and the block leaves the staging (R287, R288). -/
def execExpansionComplete (tile vc : Nat) (s : State) : Out :=
  let x := s.tile tile
  match x.bobbin.expanding.find? (fun e => e.vc == vc) with
  | none => .next s
  | some e =>
    if x.stopped then .next (s.after 1 (.expansionComplete tile vc))
    else
      let c := nth x.matrix.channels.toList vc ⟨false, 0, 0, 0⟩
      let l := (x.bobbin.staged vc).filter (fun f => f.blk == e.blk)
      let b := { x.bobbin with
        expanding := x.bobbin.expanding.erase e
        staging := tabPut x.bobbin.staging vc ((x.bobbin.staged vc).filter (fun f => f.blk != e.blk))
        nextBlk := tabPut x.bobbin.nextBlk vc (e.blk + 1) }
      .next (s.setTile tile { x with
        bobbin := b
        matrix := x.matrix.setBuffer e.buffer.toNat ⟨memWrite [] 0 (expandTile c.wfmt (blockBytes l)), true⟩ })

/-! ### The domain halt (R116, R117, R382) -/

/-- Partitions with a live launch. -/
def livePartitions (s : State) : List Nat := (s.parts.filter (fun (_, p) => !(liveLaunches p).isEmpty)).map (·.1)

/-- A record to every partition that has a live launch; in the partition of the launch whose unit is the source, it names that
launch and its queue (Table 17-2). -/
def postLive (s : State) (typ cause sub skind src : Nat) (own : Option (Nat × Nat)) (data : List Byte) : State :=
  (livePartitions s).foldl (fun s p =>
    match own with
    | some (pid, lnum) =>
      if p = pid then post s p typ cause sub skind src (launchQueue s pid lnum) lnum data
      else post s p typ cause sub skind src 0xFF 0 data
    | none => post s p typ cause sub skind src 0xFF 0 data) s

/-- The launch of the tile or transmitter that declared a halt. -/
def declaringLaunch (s : State) (skind src : Nat) : Option (Nat × Nat) :=
  match skind with
  | 0 => (s.tile src).place.map (fun pl => (pl.pid, pl.lnum))
  | 2 => (s.tx src).launch
  | _ => none

/-- HALT_NOTICE: another module of the domain halts at slot H (R116). -/
def execHaltNotice (h : Nat) (s : State) : Out :=
  .next (if s.halt.active then s else setHalt s h (6, 0, 0xFFFF, 0xFF))

/-- DOMAIN_HALT_START: the slot counter stops at slot H; one record of type overrun per partition with a live launch, and
the transmitters resend (R116, R117). -/
def execDomainHaltStart (s : State) : Out :=
  match s.halt.declared with
  | none => .next s
  | some h =>
    if s.halt.active ∨ s.gslot < h then .next s
    else
      let (skind, src, group, vc) := s.halt.who
      let s := { s with halt := { s.halt with active := true, since := 0, timedOut := false } }
      let s := postLive s 0x04 0 0 skind src (declaringLaunch s skind src) (natBytes 2 group ++ natBytes 1 vc ++ [0, 0, 0, 0, 0] ++ natBytes 8 h)
      .next (s.txs.foldl (fun s (n, _) => s.event (.haltResend n)) s)

/-- Groups with refused flits, those with the fewest turns first, then in increasing number: groups that share wavelengths take
turns, one flit each (R117). -/
def resendOrder (t : Transmitter) : List Nat :=
  let gs := (t.sends.filter (fun (_, x) => !x.refused.isEmpty)).map (fun (g, x) => (x.turns, g))
  (gs.foldl (fun l e => (l.filter (fun k => decide (k.1 < e.1) || (k.1 == e.1 && decide (k.2 < e.2)))) ++ [e] ++
    l.filter (fun k => !(decide (k.1 < e.1) || (k.1 == e.1 && decide (k.2 < e.2))))) []).map (·.2)

/-- The group's next resend of a halt begins, if its wavelengths are free (R117). -/
def haltRun (n : Nat) (s : State) (g : Nat) : State :=
  let t := s.tx n
  let grp := s.group t.origin g
  if t.resends.any (fun (h, _) => (s.group t.origin h).wmask &&& grp.wmask != 0) then s
  else
    match (t.send g).refused with
    | [] => s
    | (q, _) :: _ =>
      let (t, f) := takeResend (t.setSend g { t.send g with turns := (t.send g).turns + 1 }) g q
      let s := s.setTx n { t with resends := t.resends ++ [(g, s.cycle + 8 * runSlots grp)] }
      match f with
      | none => s
      | some f => deliverFlit s t.origin f (8 * runSlots grp + 8)

/-- HALT_RESEND: a slot time of the halt: groups with refused flits resend the lowest SEQ of each on their own wavelengths, those
that share none at the same time (R117). -/
def execHaltResend (n : Nat) (s : State) : Out :=
  let t := s.tx n
  if !s.halt.active then .next s
  else
    let s := s.setTx n { t with resends := t.resends.filter (fun e => decide (s.cycle < e.2)) }
    .next (((resendOrder t).foldl (haltRun n) s).after 8 (.haltResend n))

/-- A Zwilu flit is on its way to a tile. -/
def flitsInFlight (s : State) : Bool :=
  s.timers.any (fun (_, w) => match w with | .event (.zwiluFlitReceive _ _ _) => true | _ => false)

/-- No refused flit remains, none is on its way, and every bobbin has 128 free entries for each VC (R117). -/
def haltIsClear (s : State) : Bool :=
  s.txs.all (fun (_, t) => t.sends.all (fun (_, x) => x.refused.isEmpty)) && !flitsInFlight s &&
    s.tiles.all (fun (_, x) => x.bobbin.staging.all (fun (_, l) => decide (l.length ≤ 128)))

/-- The other modules of the domain: those that eyelets in service reach (R116; DEDUCED, log 9). -/
def domainModules (s : State) : List Nat :=
  (s.eyelets.filterMap (fun (_, x) => if x.tx.lst = 0 then none else x.peer)).eraseDups

/-- Once every module has reported clear, counting resumes 128 slot times after the last report (R117). -/
def awaitResume (s : State) : State :=
  if s.halt.reported && (domainModules s).all s.halt.reports.contains &&
      !s.timers.any (fun (_, w) => w == .event .haltClear) then
    s.after (s.halt.lastReport + 1024 - s.cycle) .haltClear
  else s

/-- The halt's reports with one more, made at a cycle; `m` is the module, or none for this one (R117). -/
def haltReport (s : State) (m : Option Nat) (cycle : Nat) : State :=
  let h := s.halt
  awaitResume { s with halt := { h with
    reported := h.reported || m.isNone
    reports := (match m with | some k => setInsert h.reports k | none => h.reports)
    lastReport := max h.lastReport cycle } }

/-- HALT_CLEAR: 128 slot times after the last module of the domain reported clear, counting resumes at slot H (R117). -/
def execHaltClear (s : State) : Out :=
  if s.halt.active then
    .next { s with
      slotError := 0
      halt := { s.halt with
        declared := none, active := false, since := 0, timedOut := false, reported := false, reports := [], lastReport := 0 }
      txs := s.txs.map (fun (n, t) => (n, { t with
        blocked := false, resends := [], sends := t.sends.map (fun (g, x) => (g, { x with turns := 0 })) })) }
  else .next s

/-- DOMAIN_STALL_TIMEOUT: a halt that lasts 2^20 slots is recorded; it goes on (R382). -/
def execDomainStallTimeout (s : State) : Out :=
  if s.halt.active ∧ !s.halt.timedOut then
    .next (postLive { s with halt := { s.halt with timedOut := true } } 0x05 0x15 0 6 0 none (natBytes 8 (s.halt.declared.getD s.gslot)))
  else .next s

end Sys2Proof.Machine
end

