-- ==== Sys2Proof/Machine/Hbm.lean ====
section
/-! DEFINITION. Memory sequencers: D-words, the command checker, frames and idle runs, lanes, refresh, demand windows and
the halt (spec 09 R238 to R250, 06 R158, R159). Times are MCK since power-up. -/

namespace Sys2Proof.Machine

/-! ### Words and commands (Tables 06-15, 06-16) -/

def dOp (w : BitVec 64) : Nat := w.toNat / 2 ^ 58
def dDelta (w : BitVec 64) : Nat := w.toNat / 2 ^ 46 % 2 ^ 12
/-- DFRAME, DLOOP and DEND (R245). -/
def isBoundary (w : BitVec 64) : Bool := dOp w == 0x0D || dOp w == 0x0F || dOp w == 0x10

def State.myChan (s : State) : Chan := s.chan s.cur.chan
def State.setMyChan (s : State) (c : Chan) : State := s.setChan s.cur.chan c

/-- Bank index 16 pc + 4 bg + ba. -/
def bankIndex (pc : BitVec 1) (bg ba : BitVec 2) : Nat := 16 * pc.toNat + 4 * bg.toNat + ba.toNat

/-- A command with its scope: OP code, pseudo-channel, and bank index (32 for all banks of the pseudo-channel). -/
structure Cmd where
  op : Nat
  pc : Nat
  bank : Nat
  row : Nat
  deriving DecidableEq, Repr

/-- DSRE and DSRX act on the channel. -/
def isChannelOp (op : Nat) : Bool := op == 0x0B || op == 0x0C
def isRead (op : Nat) : Bool := op == 4 || op == 5
def isWrite (op : Nat) : Bool := op == 6 || op == 7
/-- The banks that a command names. -/
def cmdBanks (c : Cmd) : List Nat :=
  if isChannelOp c.op then List.range 32
  else if c.bank < 32 then [c.bank]
  else (List.range 16).map (fun i => 16 * c.pc + i)

def Chan.bank (c : Chan) (b : Nat) : Bank := c.banks[b % 32]'(Nat.mod_lt _ (by decide))
def Chan.setBank (c : Chan) (b : Nat) (x : Bank) : Chan :=
  { c with banks := c.banks.set (b % 32) x (Nat.mod_lt _ (by decide)) }

/-- A bank is open at a time: it holds a row and no precharge of it has come (R240, R241). -/
def bankOpen (x : Bank) (t : Nat) : Bool :=
  x.row.isSome && (match x.precharged with | none => true | some p => decide (t < p))

/-! ### The checker (R239 to R241, Table 09-7) -/

/-- The command history that can matter: the longest separation is 432 MCK. -/
def historyAfter (l : List Command) (c : Command) : List Command := c :: l.filter (fun h => decide (c.at_ < h.at_ + 512))

/-- Two commands share a pseudo-channel. -/
def sharesPc (h : Command) (c : Cmd) : Bool := isChannelOp h.op || isChannelOp c.op || h.pc == c.pc
/-- An earlier command named a bank. -/
def named (h : Command) (b : Nat) : Bool := h.bank == b || (h.bank == 32 && h.pc == b / 16)

/-- The separations that one earlier command imposes: code and earliest MCK (Table 09-7). -/
def boundsFrom (ch : Chan) (t : Nat) (c : Cmd) (h : Command) : List (Nat × Nat) :=
  let b (on : Bool) (code sep : Nat) : List (Nat × Nat) := if on then [(code, h.at_ + sep)] else []
  let same := (cmdBanks c).any (named h)
  let group := h.bank / 4 == c.bank / 4
  let openSame := (cmdBanks c).any (fun k => named h k && bankOpen (ch.bank k) t)
  let column := isRead c.op || isWrite c.op
  let precharge := c.op == 2 || c.op == 3
  b (sharesPc h c) 0x16 1 ++
    b (h.op == 8 && sharesPc h c) 0x0F 420 ++
    b (h.op == 9 && same) 0x10 240 ++
    b (h.op == 0x0A && same) 0x12 240 ++
    b (h.op == 0x0C) 0x14 432 ++
    b (h.op == 0x11) 0x15 24 ++
    b (h.op == 0x0B && c.op == 0x0C) 0x13 12 ++
    b (h.op == 1 && c.op == 1 && same) 0x04 57 ++
    b (h.op == 1 && c.op == 1 && h.pc == c.pc && group) 0x06 5 ++
    b (h.op == 1 && c.op == 1 && h.pc == c.pc && !group) 0x05 3 ++
    b (h.op == 1 && column && same) 0x01 17 ++
    b (h.op == 1 && precharge && openSame) 0x03 40 ++
    b (((isRead h.op && isRead c.op) || (isWrite h.op && isWrite c.op)) && h.pc == c.pc) (if group then 0x09 else 0x08)
      (if group then 2 else 1) ++
    b (isRead h.op && isWrite c.op && h.pc == c.pc) 0x0A 8 ++
    b (isWrite h.op && isRead c.op && h.pc == c.pc) (if group then 0x0C else 0x0B) (if group then 16 else 10) ++
    b (isRead h.op && precharge && openSame) 0x0D 6 ++
    b (isWrite h.op && precharge && openSame) 0x0E 26 ++
    b (h.op == 9 && c.op == 9 && h.pc == c.pc && !same) 0x11 10

/-- tRP from the precharge of a bank (Table 09-7). -/
def prechargeBounds (ch : Chan) (c : Cmd) : List (Nat × Nat) :=
  if c.op = 1 ∨ c.op = 9 ∨ c.op = 0x0A ∨ c.op = 8 ∨ c.op = 0x0B ∨ c.op = 0x11 then
    (cmdBanks c).filterMap (fun b => (ch.bank b).precharged.map (fun p => (0x02, p + 17)))
  else []

/-- tFAW: the fourth last ACT of the pseudo-channel (Table 09-7). -/
def fawBound (ch : Chan) (c : Cmd) : List (Nat × Nat) :=
  if c.op = 1 then
    match (ch.history.filter (fun h => h.op == 1 && h.pc == c.pc))[3]? with
    | none => []
    | some h => [(0x07, h.at_ + 20)]
  else []

/-- The end of the demand window, its last slot included, which the next word must reach (R249). -/
def windowEnd (ch : Chan) : Nat := ch.windowAt + 124 * ch.window

/-- Every separation that applies to a command at a time. -/
def cmdBounds (ch : Chan) (t : Nat) (c : Cmd) : List (Nat × Nat) :=
  (ch.history.flatMap (boundsFrom ch t c)) ++ prechargeBounds ch c ++ fawBound ch c

/-- The first MCK at or after `t` that meets every separation. -/
def earliestFor (ch : Chan) (t : Nat) (c : Cmd) : Nat := (cmdBounds ch t c).foldl (fun m b => max m b.2) t

/-- Bank states (R241): 0, or subcode 7 (state) or 8 (row). -/
def stateCode (ch : Chan) (t : Nat) (c : Cmd) : Nat :=
  if ch.selfRefresh && c.op != 0x0C then 7
  else if isRead c.op ∨ isWrite c.op then
    if !bankOpen (ch.bank c.bank) t then 7 else if (ch.bank c.bank).row.map (·.toNat) = some c.row then 0 else 8
  else if (c.op = 1 ∨ c.op = 9 ∨ c.op = 0x0A ∨ c.op = 8 ∨ c.op = 0x0B ∨ c.op = 0x11) ∧
      (cmdBanks c).any (fun b => bankOpen (ch.bank b) t) then 7
  else 0

/-- A refresh would lower a debt below −8 (R244). -/
def overRefreshed (ch : Chan) (c : Cmd) : Bool :=
  (c.op == 8 || c.op == 9) && (cmdBanks c).any (fun b => decide ((ch.bank b).debt ≤ -8))

/-- A failed check: SUB, PARAM and EARLIEST (none: all ones) of Table 09-9. -/
structure Failed where
  sub : Nat
  param : Nat
  earliest : Option Nat
  deriving DecidableEq, Repr

/-- The broken separation whose bound falls latest, and among equals the lowest code (Table 09-9). -/
def worstBound (l : List (Nat × Nat)) : Option (Nat × Nat) :=
  l.foldl (fun m b => match m with
    | none => some b
    | some a => if a.2 < b.2 ∨ (a.2 = b.2 ∧ b.1 < a.1) then some b else m) none

/-- Subcode 1 where a separation is broken at `t`, with the earliest MCK at which the command would pass. -/
def separationFailure (bounds : List (Nat × Nat)) (t : Nat) (ok : Nat → Bool) : Option Failed :=
  match worstBound (bounds.filter (fun b => decide (t < b.2))) with
  | none => none
  | some (code, e) => some ⟨1, code, if ok e then some e else none⟩

/-- A word that sends nothing to the stack and only takes its time; a demand window must have ended (R249). -/
def windowFailure (c : Chan) (t : Nat) (ok : Nat → Bool) : Option Failed := separationFailure [(0x18, windowEnd c)] t ok

/-- Checks 4 to 6 of R239 on a command at a time. A refresh of an idle run that would lower a debt below −8 counts as DNOP
(R244). -/
def commandFailure (ch : Chan) (t : Nat) (c : Cmd) (idle : Bool) : Option Failed :=
  let st := stateCode ch t c
  if overRefreshed ch c && idle then windowFailure ch t (fun _ => true)
  else if st ≠ 0 then some ⟨st, 0, none⟩
  else if overRefreshed ch c then some ⟨6, 0, none⟩
  else separationFailure (cmdBounds ch t c ++ [(0x18, windowEnd ch)]) t (fun e => stateCode ch e c == 0)

/-! ### Issuing (R240 to R244) -/

/-- The bank after a command at a time. -/
def bankAfter (x : Bank) (c : Cmd) (t : Nat) : Bank :=
  match c.op with
  | 1 => { x with row := some (BitVec.ofNat 15 c.row), act := some t, precharged := none }
  | 2 | 3 => if x.row.isSome && bankOpen x t then { x with row := none, precharged := some t } else x
  | 5 => { x with precharged := some (max (t + 6) (x.act.getD 0 + 40)) }
  | 7 => { x with precharged := some (max (t + 26) (x.act.getD 0 + 40)) }
  | 8 | 9 => { x with debt := x.debt - 1 }
  | _ => x

/-- A command is issued: the history, the banks and self-refresh. -/
def issue (ch : Chan) (c : Cmd) (t : Nat) : Chan :=
  let ch := (cmdBanks c).foldl (fun ch b => ch.setBank b (bankAfter (ch.bank b) c t)) ch
  { ch with
    history := historyAfter ch.history ⟨c.op, c.pc, c.bank, t⟩
    selfRefresh := if c.op = 0x0B then true else if c.op = 0x0C then false else ch.selfRefresh }

/-! ### The halt (R250) -/

/-- DATA of a memory timing record (Table 09-9). -/
def timingData (n : Nat) (ch : Chan) (f : Failed) (index t : Nat) (w : BitVec 64) : List Byte :=
  let first : Nat := match f.earliest with | none => 2 ^ 64 - 1 | some e => e - ch.start
  let pad : List Byte := [0, 0]
  natBytes 2 n ++ natBytes 1 f.sub ++ natBytes 1 f.param ++ natBytes 2 index ++ pad ++ natBytes 8 (t - ch.start) ++
    natBytes 8 first ++ natBytes 8 w.toNat

/-- The position of the word at hand. -/
def Chan.pos (c : Chan) : Nat := c.idlePos.getD c.index

/-- DPREA to both pseudo-channels at the first cycles at which they are legal; the later of the two (R250). -/
def closeBanks (ch : Chan) (t : Nat) : Chan × Nat :=
  let a := earliestFor ch t ⟨3, 0, 32, 0⟩
  let ch := issue ch ⟨3, 0, 32, 0⟩ a
  let b := earliestFor ch t ⟨3, 1, 32, 0⟩
  (issue ch ⟨3, 1, 32, 0⟩ b, max a b)

/-- The refresh keeper takes the channel (R248). -/
def takeChannel (c : Chan) : Chan :=
  { c with
    keeper := true, words := [], index := 0, idle := none, idlePos := none, frameStart := none, waiting := none, loop := none
    noDelta := false, ended := false, halted := false, held := false, lanes := [], intervalHeld := false }

/-- The banks close and the idle frame runs (R250). -/
def haltChannel (s : State) (n t : Nat) : State :=
  let (c, last) := closeBanks (s.chan n) t
  (s.setChan n { c with
    halted := true, window := 0, windowAt := 0, last := last, loop := none, frameStart := none, waiting := none, idlePos := none
    noDelta := false }).event (.idleFrameRun n)

/-- Self-refresh is entered once every bank is closed: DPREA on both pseudo-channels, then DSRE (R379, Table 19-3). -/
def enterSelfRefresh (c : Chan) (t : Nat) : Chan :=
  let (c, last) := closeBanks c t
  let e := earliestFor c last ⟨0x0B, 0, 32, 0⟩
  { issue c ⟨0x0B, 0, 32, 0⟩ e with last := e }

/-- The sequencer halts with cause 0x08: the record, the bank closing, the idle frame, and the launch stands still. A
sequencer that has halted already goes on (R250). -/
def haltSequencer (s : State) (n : Nat) (f : Failed) (t : Nat) (w : BitVec 64) : State :=
  let ch := s.chan n
  match ch.launch with
  | none => s.setChan n (takeChannel (closeBanks ch t).1)
  | some (pid, lnum) =>
    let s := post s pid 0x03 0x08 f.sub 1 n (launchQueue s pid lnum) lnum (timingData n ch f ch.pos t w)
    stopLaunch (haltChannel s n t) pid lnum 0x08

/-- The next word; `last` is its predecessor's MCK (R238). -/
def stepWord (c : Chan) (t : Nat) : Chan :=
  match c.idlePos with
  | some p => { c with idlePos := some (p + 1), last := t, noDelta := false }
  | none => { c with index := c.index + 1, last := t, noDelta := false }

/-- A failed check: the sequencer halts, or the word of an idle run after a halt counts as DNOP; a boundary word still ends
the run, and the next one begins (R250). -/
def failWord (s : State) (f : Failed) (t : Nat) : State :=
  if !s.myChan.halted then haltSequencer s s.cur.chan f t s.cur.dword
  else if s.myChan.idlePos.isSome ∧ isBoundary s.cur.dword then
    (s.setMyChan { s.myChan with frameStart := none, last := t, noDelta := false }).event (.idleFrameRun s.cur.chan)
  else s.setMyChan (stepWord s.myChan t)

/-- The MCK of the word at hand (R238, R246, R247). -/
def wordTime (c : Chan) (delta : BitVec 12) : Nat := if c.noDelta then c.last else c.last + delta.toNat

/-- A D-word at its MCK: CH must be the sequencer's own channel (R159); then the checks, then the effect. -/
def dWord (delta : BitVec 12) (ch : BitVec 5) (check : State → Nat → Option Failed) (f : State → Nat → State)
    (s : State) : Out :=
  let t := wordTime s.myChan delta
  if ch.toNat ≠ s.cur.chan % 32 then .next (failWord s ⟨3, 0, none⟩ t)
  else
    match check s t with
    | some e => .next (failWord s e t)
    | none => .next (f s t)

/-- A command word. `over` of an idle run is not issued and counts as DNOP (R244). -/
def command (c : Cmd) (extra : State → Nat → Option Failed) (f : State → Nat → State) (delta : BitVec 12) (ch : BitVec 5)
    (s : State) : Out :=
  dWord delta ch
    (fun s t => match extra s t with
      | some e => some e
      | none => commandFailure s.myChan t c s.myChan.idlePos.isSome)
    (fun s t =>
      let s' := if overRefreshed s.myChan c then s else f (s.setMyChan (issue s.myChan c t)) t
      s'.setMyChan (stepWord s'.myChan t)) s

/-- No further check, no further effect. -/
def noCheck (_ : State) (_ : Nat) : Option Failed := none
def noEffect (s : State) (_ : Nat) : State := s

/-! ### Commands without data (R242) -/

def execDnop (delta : BitVec 12) (ch : BitVec 5) (s : State) : Out :=
  dWord delta ch (fun s t => windowFailure s.myChan t (fun _ => true)) (fun s t => s.setMyChan (stepWord s.myChan t)) s
def execDact (delta : BitVec 12) (ch : BitVec 5) (pc : BitVec 1) (bg ba : BitVec 2) (row : BitVec 15) (s : State) : Out :=
  command ⟨1, pc.toNat, bankIndex pc bg ba, row.toNat⟩ noCheck noEffect delta ch s
def execDpre (delta : BitVec 12) (ch : BitVec 5) (pc : BitVec 1) (bg ba : BitVec 2) (s : State) : Out :=
  command ⟨2, pc.toNat, bankIndex pc bg ba, 0⟩ noCheck noEffect delta ch s
def execDprea (delta : BitVec 12) (ch : BitVec 5) (pc : BitVec 1) (s : State) : Out :=
  command ⟨3, pc.toNat, 32, 0⟩ noCheck noEffect delta ch s
def execDrefab (delta : BitVec 12) (ch : BitVec 5) (pc : BitVec 1) (s : State) : Out :=
  command ⟨8, pc.toNat, 32, 0⟩ noCheck noEffect delta ch s
def execDrefpb (delta : BitVec 12) (ch : BitVec 5) (pc : BitVec 1) (bg ba : BitVec 2) (s : State) : Out :=
  command ⟨9, pc.toNat, bankIndex pc bg ba, 0⟩ noCheck noEffect delta ch s
def execDrfm (delta : BitVec 12) (ch : BitVec 5) (pc : BitVec 1) (bg ba : BitVec 2) (s : State) : Out :=
  command ⟨0x0A, pc.toNat, bankIndex pc bg ba, 0⟩ noCheck noEffect delta ch s
def execDsre (delta : BitVec 12) (ch : BitVec 5) (s : State) : Out := command ⟨0x0B, 0, 32, 0⟩ noCheck noEffect delta ch s
def execDsrx (delta : BitVec 12) (ch : BitVec 5) (s : State) : Out := command ⟨0x0C, 0, 32, 0⟩ noCheck noEffect delta ch s
/-- DMRS: only in a program loaded at privilege M (R159). -/
def execDmrs (delta : BitVec 12) (ch : BitVec 5) (pc : BitVec 1) (reg : BitVec 7) (value : BitVec 8) (s : State) : Out :=
  command ⟨0x11, pc.toNat, 32, 0⟩ (fun s _ => if s.myChan.loadedAtM then none else some ⟨9, 0, none⟩)
    (fun s _ => s.setMyChan { s.myChan with modes := tabPut s.myChan.modes (128 * pc.toNat + reg.toNat) value }) delta ch s

/-! ### Lanes (R243) -/

def laneKey (kind idx : Nat) : Nat := 64 * kind + idx
def Chan.lane (c : Chan) (kind idx : Nat) : Lane := tabGet Lane.reset c.lanes (laneKey kind idx)
def Chan.setLane (c : Chan) (kind idx : Nat) (l : Lane) : Chan := { c with lanes := tabPut c.lanes (laneKey kind idx) l }

/-- The transmitter and placement origin of the group that a Zwilu lane of a sequencer's launch fills. -/
def laneGroup (s : State) (c : Chan) (l : Lane) : Nat × Nat :=
  match c.launch with
  | none => (0, 0)
  | some (pid, lnum) =>
    let b := tabGet Binding.reset (s.part pid).bindings (s.launch pid lnum).bind
    let origin := 64 * ((s.part pid).y0 + b.y0) + (s.part pid).x0 + b.x0
    ((s.group origin l.target).wg, origin)

/-- A lane queue holds 64 flits or 64 KiB (R243). -/
def laneFull (s : State) (kind idx : Nat) : Bool :=
  let l := s.myChan.lane kind idx
  if kind = 1 then decide (64 ≤ (((s.tx (laneGroup s s.myChan l).1).send l.target).queue).length)
  else decide (2 ^ 16 < l.bytes.length + 32)

/-- Channel offset of 32 bytes at a column (R249). -/
def columnOffset (pc : BitVec 1) (bg ba : BitVec 2) (row : BitVec 15) (col : BitVec 6) : Nat :=
  2 ^ 16 * row.toNat + 2 ^ 15 * pc.toNat + 2 ^ 13 * bg.toNat + 2 ^ 11 * ba.toNat + 32 * col.toNat

def readCheck (lkind : BitVec 2) (lidx : BitVec 6) (s : State) (_ : Nat) : Option Failed :=
  if lkind = 0 then some ⟨3, 0, none⟩ else if laneFull s lkind.toNat lidx.toNat then some ⟨5, 0, none⟩ else none

/-- A read sends 32 bytes that enter the lane RL = 20 MCK later: 27 core cycles (R243, R4). Lost data strike the launch and do
not enter the lane (R380). -/
def readColumn (off : Nat) (lkind : BitVec 2) (lidx : BitVec 6) (close : BitVec 1) (s : State) (_ : Nat) : State :=
  if lost s (inChannel s.cur.chan off 32) then
    match s.myChan.launch with | none => s | some (pid, lnum) => s.event (.rollback pid lnum 4)
  else s.after 27 (.laneDataEntry s.cur.chan lkind.toNat lidx.toNat (memBytes s.myChan.mem off 32) (close == 1))

def execDrd (delta : BitVec 12) (ch : BitVec 5) (pc : BitVec 1) (bg ba : BitVec 2) (row : BitVec 15) (col : BitVec 6)
    (lkind : BitVec 2) (lidx : BitVec 6) (close : BitVec 1) (s : State) : Out :=
  command ⟨4, pc.toNat, bankIndex pc bg ba, row.toNat⟩ (readCheck lkind lidx)
    (readColumn (columnOffset pc bg ba row col) lkind lidx close) delta ch s
def execDrda (delta : BitVec 12) (ch : BitVec 5) (pc : BitVec 1) (bg ba : BitVec 2) (row : BitVec 15) (col : BitVec 6)
    (lkind : BitVec 2) (lidx : BitVec 6) (close : BitVec 1) (s : State) : Out :=
  command ⟨5, pc.toNat, bankIndex pc bg ba, row.toNat⟩ (readCheck lkind lidx)
    (readColumn (columnOffset pc bg ba row col) lkind lidx close) delta ch s

/-- The partition of the launch whose program a channel runs. -/
def Chan.pid (c : Chan) : Nat := match c.launch with | none => 0 | some (pid, _) => pid

/-- The line at which an LLC lane stands (log 35). -/
def Lane.line (l : Lane) : BitVec 60 := BitVec.ofNat 60 l.target

/-- The 32 bytes that a write takes from its lane: a mesh lane's are its tile's, an LLC lane's those of a valid line of its
path. A lane whose bank has no power, or whose line is not valid, holds no data (R79, R243, log 35). -/
def laneBytes (s : State) (kind idx : Nat) : Option (List Byte) :=
  let l := s.myChan.lane kind idx
  if kind = 2 then
    if (heldIn (s.tile l.target) l.off 32).isSome then none else some (storeBytes (s.tile l.target) l.off 32)
  else (lineHit (s.part s.myChan.pid) l.line).map (fun m => (m.data.drop l.off).take 32)

/-- The lane after a write has taken its bytes: an LLC lane goes on to the next line after 1,024 bytes. -/
def laneTaken (l : Lane) (kind : Nat) : Lane :=
  if kind ≠ 2 ∧ 1024 ≤ l.off + 32 then { l with off := 0, target := l.target + 1 } else { l with off := l.off + 32 }

/-- The line that an LLC lane has written back whole is clean (R243). -/
def lineWrittenBack (s : State) (l : Lane) : State :=
  if l.off + 32 < 1024 then s
  else
    match lineHit (s.part s.myChan.pid) l.line with
    | some m => setLine s s.myChan.pid l.line { m with dirty := false }
    | none => s

def writeCheck (lkind : BitVec 2) (lidx : BitVec 6) (s : State) (_ : Nat) : Option Failed :=
  if lkind = 0 ∨ lkind = 1 then some ⟨3, 0, none⟩
  else if (laneBytes s lkind.toNat lidx.toNat).isNone then some ⟨5, 0, none⟩ else none

def writeColumn (off : Nat) (lkind : BitVec 2) (lidx : BitVec 6) (s : State) (_ : Nat) : State :=
  match laneBytes s lkind.toNat lidx.toNat with
  | none => s
  | some bs =>
    let c := s.myChan
    let l := c.lane lkind.toNat lidx.toNat
    let s := s.setMyChan { c.setLane lkind.toNat lidx.toNat (laneTaken l lkind.toNat) with mem := memWrite c.mem off bs }
    if lkind = 2 then
      arcReceives (s.modTile l.target (fun x => takeBanks x s.cycle l.off 32)) l.target l.vc (tokensIn l.off 32)
    else lineWrittenBack s l

def execDwr (delta : BitVec 12) (ch : BitVec 5) (pc : BitVec 1) (bg ba : BitVec 2) (row : BitVec 15) (col : BitVec 6)
    (lkind : BitVec 2) (lidx : BitVec 6) (s : State) : Out :=
  command ⟨6, pc.toNat, bankIndex pc bg ba, row.toNat⟩ (writeCheck lkind lidx)
    (writeColumn (columnOffset pc bg ba row col) lkind lidx) delta ch s
def execDwra (delta : BitVec 12) (ch : BitVec 5) (pc : BitVec 1) (bg ba : BitVec 2) (row : BitVec 15) (col : BitVec 6)
    (lkind : BitVec 2) (lidx : BitVec 6) (s : State) : Out :=
  command ⟨7, pc.toNat, bankIndex pc bg ba, row.toNat⟩ (writeCheck lkind lidx)
    (writeColumn (columnOffset pc bg ba row col) lkind lidx) delta ch s

/-- A flit joins its group's send queue with the group's next SEQ (R113). -/
def queueFlit (s : State) (n origin g blk off : Nat) (last : Bool) (bs : List Byte) : State :=
  let t := s.tx n
  let x := t.send g
  let f : ZwiluFlit := ⟨g, (s.group origin g).vc, x.seq, last, false, blk, off, bs⟩
  s.setTx n (t.setSend g { x with queue := x.queue ++ [f], seq := x.seq + 1 })

/-- Packs a lane's open block: a flit leaves as soon as its 576 bytes are there; at a close the last one leaves with the bytes
it holds, which may be all 576 (R113, R243). -/
def packLane (s : State) (ch idx : Nat) (close : Bool) (fuel : Nat) : State :=
  match fuel with
  | 0 => s
  | k + 1 =>
    let c := s.chan ch
    let l := c.lane 1 idx
    let (n, origin) := laneGroup s c l
    if 576 < l.block.length ∨ (l.block.length = 576 ∧ close = false) then
      let s := queueFlit s n origin l.target l.blk l.packed false (l.block.take 576)
      packLane (s.setChan ch (c.setLane 1 idx { l with block := l.block.drop 576, packed := l.packed + 576 })) ch idx close k
    else if close then
      let s := queueFlit s n origin l.target l.blk l.packed true l.block
      s.setChan ch (c.setLane 1 idx { l with block := [], packed := 0, blk := l.blk + 1 })
    else s

/-- An LLC lane fills the line at which it stands once it holds the line's 1,024 bytes, and goes on to the next one (R90,
R243, log 35). -/
def fillLane (s : State) (ch idx : Nat) (l : Lane) : State :=
  let c := s.chan ch
  if l.bytes.length < 1024 then s.setChan ch (c.setLane 3 idx l)
  else
    let p := s.part c.pid
    let line : Line := ⟨l.bytes.take 1024, (blankLine p l.line).drop 1024, genOf p (tagTid l.line), false, homeSlice p l.line⟩
    placeLine (s.setChan ch (c.setLane 3 idx { l with bytes := l.bytes.drop 1024, target := l.target + 1 })) c.pid l.line line

/-- LANE_DATA_ENTRY (R243), which waits while the lane table is written again (R379): a Zwilu lane packs flits, a mesh lane writes to its tile, an LLC lane fills lines. -/
def execLaneDataEntry (ch kind idx : Nat) (data : List Byte) (close : Bool) (s : State) : Out :=
  let c := s.chan ch
  let l := c.lane kind idx
  if c.launch.isNone then .next s
  else if s.reloading.contains (.lanes ch) then .next (s.after 1 (.laneDataEntry ch kind idx data close))
  else if kind = 1 then
    .next (packLane (s.setChan ch (c.setLane 1 idx { l with block := l.block ++ data })) ch idx close (data.length + l.block.length + 1))
  else if kind = 2 then
    .next (sendFlit (s.setChan ch (c.setLane 2 idx { l with off := l.off + data.length })) l.target l.target l.vc 255
      (.bytes l.off data false))
  else .next (fillLane s ch idx { l with bytes := l.bytes ++ data })

/-! ### Frames (R245 to R247) -/

/-- The words from the boundary on wait for a memory-ordering arc into the program (R46). -/
def programWaits (s : State) (n : Nat) : Bool :=
  match (s.chan n).launch with
  | none => false
  | some (pid, lnum) =>
    orderWaits s pid lnum (fun _ k =>
      match k with
      | .dprog d => ((imageOf s pid lnum).bind (fun i => i.dprogs[d]?)).any (fun d => sequencerOf (s.part pid) d.stack d.ch == some n)
      | _ => false) (s.chan n).index

/-- A domain halt is in effect, the launch stands still, or it has ended, or the program waits (R46, R54, R93, R247, R248). -/
def programStalled (s : State) (n : Nat) (c : Chan) : Bool := s.halt.active || c.held || c.launch.isNone || programWaits s n

/-- The check of a frame that a boundary word closes (R245). -/
def frameFailure (c : Chan) (t : Nat) : Option Failed :=
  match c.frameStart with
  | none => none
  | some (_, at_) =>
    if t > at_ + 4096 ∨ c.banks.any (fun b => bankOpen b t && b.precharged.isNone) then some ⟨4, 0, none⟩ else none

/-- A boundary word: field checks, frame checks, the window; then the end of an idle run, the program's end, a stall, or
its own effect (R239, R245 to R247). -/
def boundaryWord (delta : BitVec 12) (ch : BitVec 5) (bad : State → Option Failed) (ends : Bool) (f : State → Nat → State)
    (s : State) : Out :=
  dWord delta ch
    (fun s t =>
      match bad s with
      | some e => some e
      | none =>
        match frameFailure s.myChan t with
        | some e => some e
        | none => windowFailure s.myChan t (fun e => (frameFailure s.myChan e).isNone))
    (fun s t =>
      let c := s.myChan
      let shut := { c with frameStart := none, last := t, noDelta := false }
      if c.idlePos.isSome then (s.setMyChan shut).event (.idleFrameRun s.cur.chan)
      else if ends then (s.setMyChan { shut with ended := true }).event (.idleFrameRun s.cur.chan)
      else if programStalled s s.cur.chan c then (s.setMyChan { shut with waiting := some c.index }).event (.idleFrameRun s.cur.chan)
      else f (s.setMyChan shut) t) s

/-- DFRAME opens a frame; the idle one ends the program (R245, R247). -/
def execDframe (delta : BitVec 12) (ch : BitVec 5) (idle : BitVec 1) (s : State) : Out :=
  boundaryWord delta ch (fun _ => none) (idle == 1)
    (fun s t => s.setMyChan { s.myChan with frameStart := some (s.myChan.index, t), index := s.myChan.index + 1 }) s

/-- The index of the last DFRAME among the first `i` words, counted from `k`; `best` is the last one seen so far. -/
def frameBefore (ws : List (BitVec 64)) (i k best : Nat) : Nat :=
  match i, ws with
  | 0, _ => best
  | _, [] => best
  | i + 1, w :: r => frameBefore r i (k + 1) (if dOp w = 0x0D then k else best)

/-- DLOOP: a count of 0 is subcode address; one that closes no frame is subcode frame (R242, R246). -/
def execDloop (delta : BitVec 12) (ch : BitVec 5) (runs : BitVec 15) (s : State) : Out :=
  boundaryWord delta ch
    (fun s => if runs = 0 then some ⟨3, 0, none⟩
      else if s.myChan.frameStart.isNone ∧ s.myChan.loop.isNone ∧ s.myChan.noDelta = false then some ⟨4, 0, none⟩ else none) false
    (fun s _ =>
      let c := s.myChan
      let count := match c.loop with | none => runs.toNat - 1 | some n => n - 1
      if count = 0 then s.setMyChan { c with loop := none, index := c.index + 1 }
      else s.setMyChan { c with loop := some count, index := frameBefore c.words c.index 0 c.index, noDelta := true }) s

/-- DEND (R247). -/
def execDend (delta : BitVec 12) (ch : BitVec 5) (s : State) : Out :=
  boundaryWord delta ch (fun _ => none) true (fun s _ => s) s

/-- The length of an idle run: the DELTAs up to and including the boundary word's, if it holds a word (R247). -/
def idleLength (ws : List (BitVec 64)) : Nat :=
  match ws with
  | [] => 0
  | w :: r => if isBoundary w then dDelta w else dDelta w + idleLength r

/-- An idle frame that holds a word and lasts at least 1 MCK. -/
def idleOk (c : Chan) : Bool :=
  match c.idle with
  | none => false
  | some i =>
    match c.words.drop (i + 1) with
    | [] => false
    | w :: r => !isBoundary w && decide (0 < idleLength (w :: r))

/-- IDLE_FRAME_RUN: the end of an idle run, or the first one (R247): the keeper takes the channel of a launch that has
ended, a boundary word that waited issues, or the next run begins. -/
def execIdleFrameRun (n : Nat) (s : State) : Out :=
  let c := s.chan n
  if c.launch.isNone then .next (s.setChan n (takeChannel c))
  else
    match c.waiting with
    | some i =>
      if !programStalled s n c then .next (s.setChan n { c with idlePos := none, index := i, waiting := none, noDelta := true })
      else if idleOk c then
        .next (s.setChan n { c with idlePos := (c.idle.map (· + 1)), frameStart := c.idle.map (fun k => (k, c.last)) })
      else .next (haltSequencer s n ⟨4, 0, none⟩ c.last (nth c.words c.pos 0))
    | none =>
      if idleOk c then
        .next (s.setChan n { c with idlePos := c.idle.map (· + 1), frameStart := c.idle.map (fun k => (k, c.last)) })
      else if c.halted then .next (s.setChan n { c with idlePos := none, index := c.words.length })
      else .next (haltSequencer s n ⟨4, 0, none⟩ c.last (nth c.words c.pos 0))

/-- UNDEFINED_D_WORD: OP 0x12 and above is subcode undefined, a field that is not 0 is subcode address (R159). -/
def execUndefinedDWord (w : BitVec 64) (s : State) : Out :=
  let t := wordTime s.myChan (BitVec.ofNat 12 (dDelta w))
  .next (failWord s ⟨if 0x12 ≤ dOp w then 2 else 3, 0, none⟩ t)

/-! ### Refresh (R244, R248) -/

/-- REFRESH_DEBT_RISE: every bank's debt rises by 1, but in self-refresh; a debt of 9 halts a program (R244). -/
def execRefreshDebtRise (n : Nat) (s : State) : Out :=
  let c := s.chan n
  let at_ := c.interval + 4680
  let c := { c with interval := at_ }
  if c.selfRefresh then .next (s.setChan n c)
  else
    let c := { c with banks := c.banks.map (fun b => { b with debt := b.debt + 1 }) }
    let s := s.setChan n c
    if c.banks.any (fun b => decide (9 ≤ b.debt)) ∧ !c.keeper ∧ !c.halted then
      .next (haltSequencer s n ⟨6, 0, none⟩ at_ (nth c.words c.pos 0))
    else .next s

/-- The keeper's last refresh of a pseudo-channel with a debt of 1, at the first MCK at which the checks allow it. -/
def lastRefresh (c : Chan) (t pc : Nat) : Chan :=
  let cmd : Cmd := ⟨8, pc, 32, 0⟩
  let e := max (earliestFor c t cmd) (windowEnd c)
  if (cmdBanks cmd).any (fun b => decide (1 ≤ (c.bank b).debt)) then { issue c cmd e with last := e, kept := max c.kept e } else c

/-- The keeper stops at a dispatch: it refreshes whatever has a debt (at most 9, R244) and issues nothing from then on; the
refresh interval is held until S0 (R244, R248). -/
def stopKeeper (c : Chan) (t : Nat) : Chan :=
  if c.keeper then
    { (List.range 18).foldl (fun c k => lastRefresh c t (k % 2)) c with keeper := false, intervalHeld := true }
  else c

/-- REFRESH_KEEPER_REFRESH: a DREFAB to a pseudo-channel with a debt of 1, as soon as the checks allow (R248). -/
def execRefreshKeeperRefresh (n pc : Nat) (s : State) : Out :=
  let c := s.chan n
  let cmd : Cmd := ⟨8, pc, 32, 0⟩
  let t := s.mck
  if c.keeper && (cmdBanks cmd).any (fun b => decide (1 ≤ (c.bank b).debt)) && (commandFailure c t cmd false).isNone then
    .next (s.setChan n { issue c cmd t with last := t, kept := t })
  else .next s

/-! ### Demand windows (R249) -/

/-- DDEM: every bank closed; a count of 0 is subcode address. -/
def execDdem (delta : BitVec 12) (ch : BitVec 5) (slots : BitVec 6) (s : State) : Out :=
  dWord delta ch
    (fun s t =>
      if slots = 0 then some ⟨3, 0, none⟩
      else if s.myChan.banks.any (fun b => bankOpen b t) then some ⟨7, 0, none⟩
      else windowFailure s.myChan t (fun _ => true))
    (fun s t => s.setMyChan { stepWord s.myChan t with window := slots.toNat, windowAt := t }) s

/-- ACT, then column commands, each at the earliest MCK that passes every check; none if the slot is too short. -/
def slotColumns (c : Chan) (pc bank row : Nat) (write : Bool) (t stop n : Nat) : Option Chan :=
  let cmd : Cmd := ⟨if write then (if n = 1 then 7 else 6) else (if n = 1 then 5 else 4), pc, bank, row⟩
  match n with
  | 0 => some c
  | k + 1 =>
    let e := earliestFor c t cmd
    if e < stop ∧ stateCode c e cmd = 0 then slotColumns (issue c cmd e) pc bank row write e stop k else none

/-- The commands of a slot on a 1,024-byte line, if the auto-precharge too falls within it (R249). -/
def slotCommands (c : Chan) (off : Nat) (write : Bool) (t : Nat) : Option Chan :=
  let row := off / 2 ^ 16 % 2 ^ 15
  let pc := off / 2 ^ 15 % 2
  let bank := 16 * pc + off / 2 ^ 11 % 16
  let stop := t + 124
  let act : Cmd := ⟨1, pc, bank, row⟩
  let e := earliestFor c t act
  if e < stop ∧ stateCode c e act = 0 then
    match slotColumns (issue c act e) pc bank row write e stop 32 with
    | none => none
    | some d => if (match (d.bank bank).precharged with | some p => decide (p < stop) | none => false) then some d else none
  else none

/-- The words that a request reads. -/
def demandReads (n : Nat) (d : Demand) (p : FlawPlace) : Bool :=
  match d.kind with
  | .read pieces => pieces.any (fun (_, off, k) => inChannel n off k p)
  | .stream _ _ off len => inChannel n off len p
  | .walk _ off => inChannel n off 8 p
  | .write _ | .save _ _ _ => false

/-- The tiles that wait for the data of a request. -/
def demandTiles (s : State) (d : Demand) : List Nat :=
  match d.kind with
  | .read _ => ((s.part d.pid).waitingFills.filter (fun r => r.tag == d.tag)).map (·.tile)
  | .stream tile _ _ _ => [tile]
  | .walk key _ => (tabGet ⟨0, 0, 0, 0, none, [], false, false⟩ (s.part d.pid).walks key).waiting.filterMap (fun w =>
      match w with | .thread tile _ _ _ _ => some tile | _ => none)
  | .write _ | .save _ _ _ => []

/-- The launches for which a fill or a write-back is served: those of the tiles that wait for it or asked for it, or of the line's
home (R52). -/
def demandLaunches (s : State) (d : Demand) : List (Nat × Nat) :=
  let tiles : List Nat := match d.kind with
    | .read _ => homeSlice (s.part d.pid) d.tag :: demandTiles s d
    | .write _ => homeSlice (s.part d.pid) d.tag :: (d.thread.map (·.1)).toList
    | _ => []
  tiles.filterMap (fun t => (s.tile t).place.map (fun pl => (pl.pid, pl.lnum)))

/-- The effect of a request that a slot serves; lost data strike the launches that wait for them and are not delivered (R380). -/
def serveDemand (s : State) (n : Nat) (d : Demand) : State :=
  if lost s (demandReads n d) then (demandTiles s d).foldl (fun s t => strikeTile s t 4) s
  else match d.kind with
  | .read pieces => demandRead s n d pieces
  | .write bytes =>
    let c := s.chan n
    let s := s.setChan n { c with mem := bytes.foldl (fun m (a, b) => memPut m a b) c.mem }
    match d.thread with
    | none => s
    | some (tile, t) =>
      let h := s.thread tile t
      s.setThread tile t { h with writebackOut := h.writebackOut - 1 }
  | .stream tile ctx off len => streamFetched s n tile ctx off len
  | .walk key off => walkRead s n d.pid key off
  | .save pid lnum bytes =>
    let c := s.chan n
    let s := s.setChan n { c with mem := bytes.foldl (fun m (a, b) => memPut m a b) c.mem }
    let l := s.launch pid lnum
    s.setLaunch pid lnum { l with saveOut := l.saveOut - 1 }

def isDemandWrite (k : DemandKind) : Bool :=
  match k with
  | .write _ => true
  | .save _ _ bytes => !bytes.isEmpty
  | _ => false

/-- Save and restore traffic (R374). -/
def isSave (d : Demand) : Bool :=
  match d.kind with
  | .save _ _ _ => true
  | _ => false

/-- The channel serves save and restore traffic in service slots: its keeper drives it, or the idle frame of a launch that
stands still leaves room for a slot and tRP before its next word (R248, R374). -/
def servesSlots (c : Chan) (t : Nat) : Bool :=
  decide (c.windowAt ≤ t) && c.demands.any isSave &&
    (c.keeper ||
      (c.held && c.idlePos.isSome && decide (t + 124 + 17 ≤ c.last + dDelta (nth c.words c.pos 0))))

/-- DEMAND_SLOT: the oldest waiting request is served, if its commands fit; otherwise the slot stays idle (R249). A slot
outside a demand window is a service slot, for save and restore traffic (R374). -/
def execDemandSlot (n : Nat) (s : State) : Out :=
  let c := s.chan n
  if c.window = 0 ∧ !servesSlots c s.mck then .next s
  else
    let t := if c.window = 0 then s.mck else c.windowAt
    let request := if c.window = 0 then c.demands.find? isSave else c.demands.head?
    let c := { c with
      window := c.window - 1, windowAt := t + 124, kept := if c.keeper then t + 124 else c.kept, serving := [] }
    let s := s.setChan n c
    match request with
    | none => .next s
    | some d =>
      match slotCommands { c with window := 0 } (1024 * d.line) (isDemandWrite d.kind) t with
      | none => .next s
      | some e => .next (serveDemand (s.setChan n { e with
        window := c.window, windowAt := c.windowAt, demands := c.demands.erase d, serving := demandLaunches s d }) n d)

/-! ### What is due (R238, R244, R248, R249) -/

/-- The word at hand and whether its MCK has come. -/
def commandDue (s : State) (n : Nat) : Bool :=
  let c := s.chan n
  match c.words[c.pos]? with
  | none => false
  | some w => !c.keeper && decide ((if c.noDelta then c.last else c.last + dDelta w) ≤ s.mck)

/-- The work of a channel in this cycle; a debt has risen at the end of the MCK before (R244). -/
def chanWork (s : State) (n : Nat) : List Work :=
  let c := s.chan n
  (if (c.window ≠ 0 ∧ c.windowAt ≤ s.mck) ∨ (c.window = 0 ∧ servesSlots c s.mck) then [Work.event (.demandSlot n)] else []) ++
    (if !c.intervalHeld && decide (c.interval + 4680 < s.mck) then [.event (.refreshDebtRise n)] else []) ++
    (if commandDue s n then [Work.command n] else []) ++
    (if !c.keeper && !c.intervalHeld && c.launch.isNone && (c.words[c.pos]?).isNone then [Work.event (.idleFrameRun n)] else []) ++
    (if c.keeper then
      (List.range 2).flatMap (fun pc =>
        if (List.range 16).any (fun i => decide (1 ≤ (c.bank (16 * pc + i)).debt)) then [Work.event (.refreshKeeperRefresh n pc)]
        else [])
     else [])

end Sys2Proof.Machine
end

