-- ==== Sys2Proof/Machine/Region.lean ====
section
/-! DEFINITION. Loading and checking phases, FLOAD to FSTAT, and the events of regions, chains and PRED flits
(spec 09 R255, 10 R260 to R282, R421, 02 R36 to R38, R41). -/

namespace Sys2Proof.Machine

/-! ### A phase image (R36, R171, R262) -/

/-- The PE image of a PE of the phase by relative coordinates; NOP, route none and 0 where the phase names none (R171). -/
def peImage (ph : PhaseImage) (x y : Nat) : PeImage :=
  (ph.pes.find? (fun p => p.x == x && p.y == y)).getD ⟨x, y, (0, 1), (0, 1), (0, 1), [], [], [], [], []⟩

/-- The words of an image's memories; unwritten entries are NOP, route none and 0 (Table 07-3). -/
def imageOp (p : PeImage) (e : Nat) : BitVec 24 := ((p.ops.find? (fun w => w.1 == e)).map (·.2)).getD 0x007FE0
def imageRoute (p : PeImage) (e : Nat) : BitVec 16 := ((p.routes.find? (fun w => w.1 == e)).map (·.2)).getD 0
def imageRa (p : PeImage) (e : Nat) : BitVec 16 := ((p.ras.find? (fun w => w.1 == e)).map (·.2)).getD 0

/-- The entries of a window. -/
def windowEntries (w : Nat × Nat) : List Nat := (List.range w.2).map (fun i => w.1 + i)
/-- The entry of a window in a slot (R36). -/
def windowAt (w : Nat × Nat) (slot : Nat) : Nat := w.1 + slot % w.2

/-- A window within its memory of 32 entries (R36). -/
def windowOk (w : Nat × Nat) : Bool := decide (1 ≤ w.2) && decide (w.1 + w.2 ≤ 32)

/-- P: the least common multiple of the lengths of all rings of all PEs (R36). -/
def phasePeriod (ps : List PeImage) : Nat :=
  ps.foldl (fun n p => Nat.lcm (Nat.lcm (Nat.lcm n p.opRing.2) p.routeRing.2) p.raRing.2) 1

/-- SMAX: the highest stage field of any op word in the rings (R37). -/
def phaseSmax (ps : List PeImage) : Nat :=
  ps.foldl (fun n p => (windowEntries p.opRing).foldl (fun n e => max n (opStage (imageOp p e))) n) 0

/-- Absolute tile of a placement-relative tile number 64 y + x. -/
def placedTile (r : Region) (rel : Nat) : Nat := 64 * (r.fy / 8 + rel / 64) + r.fx / 8 + rel % 64

/-- Chain table entry that a tile has once the phase is loaded (R273). -/
def phaseChain (s : State) (r : Region) (ph : PhaseImage) (tile n : Nat) : Word32 :=
  match ph.chains.find? (fun (t, e, _) => placedTile r t == tile && e == n) with
  | some (_, _, w) => w
  | none => chainEntry (s.tile tile) n

/-! ### Checks of FLOAD and FPHASE (R155, R282, R421) -/

/-- Whether an op code of Table 06-12 is defined. -/
def opDefined (c : Nat) : Bool :=
  decide (c ≤ 2) || (decide (4 ≤ c) && decide (c ≤ 0x0D)) || (decide (0x10 ≤ c) && decide (c ≤ 0x13)) ||
    (decide (0x18 ≤ c) && decide (c ≤ 0x25)) || (decide (0x28 ≤ c) && decide (c ≤ 0x30)) ||
    (decide (0x34 ≤ c) && decide (c ≤ 0x38)) || (decide (0x3A ≤ c) && decide (c ≤ 0x3C)) || c == 0x3E || c == 0x3F

/-- Whether an op reads source A, and source B (Table 06-12). -/
def readsA (c : Nat) : Bool := c != 0
def readsB (c : Nat) : Bool :=
  c == 2 || (decide (4 ≤ c) && decide (c ≤ 9)) || c == 0x0C || c == 0x0D || (decide (0x10 ≤ c) && decide (c ≤ 0x13)) ||
    (decide (0x18 ≤ c) && decide (c ≤ 0x25)) || c == 0x2B || c == 0x2E || c == 0x2F || c == 0x38 || c == 0x3B ||
    c == 0x3E || c == 0x3F

/-- A port has no neighbour: the edge, an unavailable tile, a tile outside the placement (R23). -/
def noNeighbour (s : State) (r : Region) (k : Nat) (p : Port) : Bool :=
  match facing k p with
  | none => true
  | some q =>
    let t := peTile q
    (s.tile t).ctl.unavailable ||
      (match (s.tile (peTile k)).place with
       | none => true
       | some pl => !(decide (pl.x0 ≤ t % 64) && decide (t % 64 < pl.x0 + pl.w) && decide (pl.y0 ≤ t / 64) &&
          decide (t / 64 < pl.y0 + pl.h))) ||
      (decide (q % 512 < r.fx) || decide (q / 512 < r.fy))

/-- A fabric port that has no neighbour. -/
def portMissing (s : State) (r : Region) (k : Nat) (p : Port) : Bool := (p != .v && p != .m) && noNeighbour s r k p

/-- A failure: CHECK, MEM and ENTRY as one number in the order of R421. -/
def failure (check mem entry : Nat) : Nat := 128 * check + 32 * mem + entry % 32

/-- OPs that a PRED binding allows (R278). -/
def bindingOk (b : BitVec 64) : Bool :=
  let o := (predOp b).toNat
  match predKind b with
  | 1 => decide (o < 8) || o == 0xA || o == 0xB
  | 2 => o == 1 || o == 3 || o == 4 || o == 5
  | _ => false

/-- The latch that a route selector code reads. -/
def selPort (c : Nat) : Option Port :=
  match c with
  | 2 => some .n | 3 => some .e | 4 => some .s | 5 => some .w | 6 => some .v | 7 => some .m | _ => none

/-- Selectors of a route word with the ports they drive. -/
def selectors (w : BitVec 16) : List (Port × Nat) :=
  [(Port.n, w.toNat / 2 ^ 12 % 16), (.e, w.toNat / 2 ^ 8 % 16), (.s, w.toNat / 2 ^ 4 % 16), (.w, w.toNat % 16)]

def isJoin (c : Nat) : Bool := c == 0x3E || c == 0x3F

/-- Failures of one op word by itself: checks 2 to 6 and 11 (R155, R281). -/
def opFailures (s : State) (r : Region) (k : Nat) (w : BitVec 24) (e : Nat) : List Nat :=
  let c := opCode w
  let a := opSrcA w
  let b := opSrcB w
  let we := w.getLsbD 0
  let ports := (srcPort a).toList ++ (srcPort b).toList
  (if opDefined c then [] else [failure 2 0 e]) ++
    (if we && (c == 0 || c == 0x3B || c == 0x3C || (c == 0x3A && a != 31)) then [failure 3 0 e] else []) ++
    (if (!readsA c && a != 31) || (!readsB c && b != 31) then [failure 4 0 e] else []) ++
    (if (c == 0x3A || c == 0x3B || c == 0x3C) && (a == 30 || b == 30) then [failure 5 0 e] else []) ++
    (if ports.any (portMissing s r k) then [failure 6 0 e] else []) ++
    (if isJoin c && (a == b || ports.length != 2 || !ports.all (synchronised r k)) then [failure 11 0 e] else [])

/-- Failures of the landing positions, charged to the later entry (R260). -/
def landingFailures (p : PeImage) : List Nat :=
  let b := p.opRing.1
  let l := p.opRing.2
  let pos (i : Nat) : Option Nat :=
    let lat := opLatency (imageOp p (b + i))
    if lat = 0 then none else some ((i + lat - 1) % l)
  ((List.range l).filter (fun i => (pos i).isSome && (List.range i).any (fun j => pos j == pos i))).map
    (fun i => failure 7 0 (b + i))

/-- Failures of the words that meet in one slot: checks 8, 9, 10 and 11 (R272, R276, R278, R281). DESIGN CHOICE (log 26): the
failing word of check 8 is the register-address word, which holds IMM12; that of checks 9 and 10 is the op word, whose entry
R421 also gives for checks 13 and 14. -/
def slotFailures (s : State) (r : Region) (ph : PhaseImage) (lenOf : Nat → Nat → Nat) (k : Nat) (p : PeImage) (i : Nat) :
    List Nat :=
  let e := windowAt p.opRing i
  let w := imageOp p e
  let c := opCode w
  let ra := windowAt p.raRing i
  let imm := (imageRa p ra).toNat % 2 ^ 12
  let tile := peTile k
  let rt := windowAt p.routeRing i
  let ch := phaseChain s r ph tile imm
  let len := lenOf tile (chainChn ch)
  let ports := (srcPort (opSrcA w)).toList ++ (srcPort (opSrcB w)).toList
  (if (c == 0x3A || c == 0x3B) && opSrcA w == 31 && imm % 4 != 0 then [failure 8 2 ra] else []) ++
    (if storeForm w && (chainFem ch == 3 || chainPred ch != (chainOwn ch + len - 1) % len ||
        chainSucc ch != (chainOwn ch + 1) % len) then [failure 9 0 e] else []) ++
    (if c == 0x3C && !bindingOk (tabGet 0 (s.tile tile).mem.preds imm) then [failure 10 0 e] else []) ++
    (if isJoin c && (selectors (imageRoute p rt)).any (fun (_, q) => (selPort q).any (fun x => ports.contains x)) then
      [failure 11 1 rt] else [])

/-- All failures of checks 1 to 11 at one PE (R421). DESIGN CHOICE (log 26): a ring window that breaks R36 has no failing word;
ENTRY is its start entry modulo 32. -/
def peFailures (s : State) (r : Region) (ph : PhaseImage) (lenOf : Nat → Nat → Nat) (k : Nat) (p : PeImage) : List Nat :=
  let bad := (if windowOk p.opRing then [] else [failure 1 0 p.opRing.1]) ++
    (if windowOk p.routeRing then [] else [failure 1 1 p.routeRing.1]) ++
    (if windowOk p.raRing then [] else [failure 1 2 p.raRing.1])
  if !bad.isEmpty then bad
  else
    (windowEntries p.opRing).flatMap (fun e => opFailures s r k (imageOp p e) e) ++
      (windowEntries p.routeRing).flatMap (fun e =>
        if (selectors (imageRoute p e)).any (fun (d, c) =>
          c != 0 && (portMissing s r k d || (selPort c).any (portMissing s r k))) then [failure 6 1 e] else []) ++
      landingFailures p ++
      (List.range (Nat.lcm (Nat.lcm p.opRing.2 p.routeRing.2) p.raRing.2)).flatMap (slotFailures s r ph lenOf k p)

/-- The store-form ops of a PE, lowest op entry first: op entry and chain entry. -/
def storeUses (p : PeImage) : List (Nat × Nat) :=
  (windowEntries p.opRing).flatMap (fun e =>
    if storeForm (imageOp p e) then
      (((List.range (Nat.lcm p.opRing.2 p.raRing.2)).filter (fun i => windowAt p.opRing i == e)).map
        (fun i => (e, (imageRa p (windowAt p.raRing i)).toNat % 2 ^ 12))).eraseDups
    else [])

/-- The CHN of the chains that a region names on a tile. -/
def regionChains (s : State) (r : Region) (tile : Nat) : List Nat :=
  ((regionPes r).filter (fun k => peTile k == tile)).flatMap (fun k =>
    (namedImms (s.pe k) (r.pm1.toNat + 1) storeForm).map (fun i => chainChn (chainEntry (s.tile tile) i)))

/-- A chain's OWN values among the ops that name it are 0 to LEN − 1, each once (R282). -/
def ownComplete (owns : List Nat) (len : Nat) : Bool :=
  decide (owns.length = len) && (List.range len).all (fun o => owns.contains o)

/-- TVAL of R421. -/
def phaseTval (r : Region) (k check mem entry : Nat) : Word :=
  BitVec.ofNat 64 (entry % 32 + 2 ^ 5 * mem + 2 ^ 8 * (k % 512 - r.fx) + 2 ^ 17 * (k / 512 - r.fy) + 2 ^ 26 * r.number +
    2 ^ 38 * check)

/-- The first failure of a phase in the order of R421. -/
def checkPhase (s : State) (key : Nat) (ph : PhaseImage) : Option Word :=
  let r := s.region key
  let ks := regionPes r
  let img (k : Nat) : PeImage := peImage ph (relativeAt r k % 512) (relativeAt r k / 512)
  let ok (k : Nat) : Bool := windowOk (img k).opRing && windowOk (img k).routeRing && windowOk (img k).raRing
  let uses : List (Nat × Nat × Nat × Word32) := (ks.filter ok).flatMap (fun k =>
    (storeUses (img k)).map (fun (e, i) => (k, e, peTile k, phaseChain s r ph (peTile k) i)))
  let ofChain (tile chn : Nat) : List (Nat × Nat × Nat × Word32) :=
    uses.filter (fun (_, _, t, w) => t == tile && chainChn w == chn)
  let lenOf (tile chn : Nat) : Nat := (ofChain tile chn).foldl (fun m (_, _, _, w) => max m (chainOwn w + 1)) 0
  match ks.findSome? (fun k => ((peFailures s r ph lenOf k (img k)).min?).map (fun f => (k, f))) with
  | some (k, f) => some (phaseTval r k (f / 128) (f / 32 % 4) (f % 32))
  | none =>
    if phasePeriod (ks.map img) > 256 then some (phaseTval r (ks.headD 0) 12 3 0)
    else
      match uses.find? (fun (_, _, t, w) => !ownComplete ((ofChain t (chainChn w)).map (fun u => chainOwn u.2.2.2))
          (lenOf t (chainChn w))) with
      | some (k, e, _, _) => some (phaseTval r k 13 0 e)
      | none =>
        match uses.find? (fun (_, _, t, w) => s.regions.any (fun (j, o) =>
            j != key && o.loaded && o.pid == r.pid && o.lnum == r.lnum && (regionChains s o t).contains (chainChn w))) with
        | some (k, e, _, _) => some (phaseTval r k 14 0 e)
        | none => none

/-- R155 alone, as a bind makes it (R337): no failure of checks 1 to 6 at any PE. -/
def wordsOk (s : State) (key : Nat) (ph : PhaseImage) : Bool :=
  let r := s.region key
  (regionPes r).all (fun k =>
    (peFailures s r ph (fun _ _ => 1) k (peImage ph (relativeAt r k % 512) (relativeAt r k / 512))).all
      (fun f => decide (6 < f / 128)))

/-! ### Loading (R255, R262) -/

/-- Entries of a memory written from an image's window. -/
def writeEntries {n : Nat} (m : Vector (BitVec n) 32) (es : List Nat) (f : Nat → BitVec n) : Vector (BitVec n) 32 :=
  es.foldl (fun m e => m.set (e % 32) (f e) (Nat.mod_lt _ (by decide))) m

/-- One PE takes its image; `keep` keeps k registers and scratch (FPHASE). -/
def loadPe (x : PE) (p : PeImage) (keep : Bool) (r : Nat) : PE :=
  { x with
    region := some r
    ops := writeEntries x.ops (windowEntries p.opRing) (imageOp p)
    routes := writeEntries x.routes (windowEntries p.routeRing) (imageRoute p)
    ras := writeEntries x.ras (windowEntries p.raRing) (imageRa p)
    opRing := ⟨p.opRing.1, p.opRing.2⟩
    routeRing := ⟨p.routeRing.1, p.routeRing.2⟩
    raRing := ⟨p.raRing.1, p.raRing.2⟩
    c := Vector.ofFn (fun (i : Fin 8) => nth p.cregs i.val 0)
    k := if keep then x.k else Vector.replicate 16 0
    scratch := if keep then x.scratch else p.scratch }

/-- The ring words of a phase's PEs, whose CRC-32 is the region's signature (R379). -/
def ringWords (ps : List PeImage) : List Nat :=
  ps.flatMap (fun p => (windowEntries p.opRing).map (fun e => (imageOp p e).toNat) ++
    (windowEntries p.routeRing).map (fun e => (imageRoute p e).toNat) ++ (windowEntries p.raRing).map (fun e => (imageRa p e).toNat))

/-- Writes a phase's configuration into the region's PEs and the chain tables, and takes its signature; ST becomes 0 (R37, R255,
R262, R379). -/
def loadPhase (s : State) (key : Nat) (ph : PhaseImage) (keep : Bool) : State :=
  let r := s.region key
  let ks := regionPes r
  let img (k : Nat) : PeImage := peImage ph (relativeAt r k % 512) (relativeAt r k / 512)
  let s := ks.foldl (fun s k => s.setPe k (loadPe (s.pe k) (img k) keep key)) s
  let s := ph.chains.foldl (fun s (t, e, w) => s.modTile (placedTile r t) (fun x =>
    { x with mem := { x.mem with chainTable := tabPut x.mem.chainTable e w } })) s
  s.setRegion key { r with
    pm1 := BitVec.ofNat 8 (phasePeriod (ks.map img) - 1), smax := BitVec.ofNat 3 (phaseSmax (ks.map img))
    loaded := true, st := 0, signature := Config.crc32 (ringWords (ks.map img)) }

/-! ### FAB instructions (R255) -/

/-- The key of a graph's region for the issuing tile, if the tile holds a PE of it (R255). -/
def namedRegion (s : State) (n : Nat) : Option Nat :=
  match s.here.place with
  | none => none
  | some pl =>
    let k := 4096 * (64 * pl.y0 + pl.x0) + n
    match tabFind s.regions k with
    | none => none
    | some r => if (regionPes r).any (fun p => peTile p == s.cur.tile) then some k else none

/-- Runs `f` on the region that g[ra][11:0] names; `mask` holds the named bits of g[ra] (R215, R255). -/
def withRegion (s : State) (v : Word) (limit : Nat) (f : State → Nat → Res) : Res :=
  if v.toNat ≥ limit then trapHere s 0x06 v
  else
    match namedRegion s (v.toNat % 4096) with
    | none => trapHere s 0x06 v
    | some k => withEngines s (fun s => f s k)

/-- ST = 0 or 3. -/
def regionIdle (r : Region) : Bool := r.st == 0 || r.st == 3

/-- FLOAD (R255). One that a check rejects leaves ST as it stands, 0 or 3, neither of which is a started region (DEDUCED,
R282); one that comes while an FPHASE waits for drain tokens is performed at once (DESIGN CHOICE, log 26). -/
def bodyFload (a b : GReg) (s : State) : Res :=
  let v := s.g a
  let w := s.g b
  if w.toNat ≥ 8 then trapHere s 0x06 w
  else withRegion s v 4096 (fun s k =>
    let r := s.region k
    if !regionIdle r then trapHere s 0x06 v
    else
      match r.phases[w.toNat]? with
      | none => trapHere s 0x06 w
      | some ph =>
        match checkPhase s k ph with
        | some t => trapHere s 0x01 t
        | none => .done (loadPhase s k ph false))

/-- Core cycles to the first slot that begins at least 16 cycles from now (R255, R256). -/
def goDelay (s : State) : Nat := (s.cycle + 16 + 7) / 8 * 8 - s.cycle

/-- A region's start is set for its slot (R255). DESIGN CHOICE (log 26): a second start that comes before the first has begun
replaces its TRIP, and the region starts at the earlier slot. -/
def scheduleStart (s : State) (k : Nat) (trip : Word32) : State :=
  (s.setRegion k { s.region k with go := some trip }).after (goDelay s) (.regionStart k)

/-- FGO (R255); one that comes while an FPHASE waits for drain tokens is performed at once (DESIGN CHOICE, log 26). -/
def bodyFgo (a b : GReg) (s : State) : Res :=
  let v := s.g a
  let w := s.g b
  if w.toNat ≥ 2 ^ 32 then trapHere s 0x06 w
  else withRegion s v 4096 (fun s k =>
    let r := s.region k
    if !r.loaded || !regionIdle r then trapHere s 0x06 v
    else .done (scheduleStart s k (w.truncate 32)))

/-- FPHASE: the thread waits until the rewrite is done (R255). -/
def bodyFphase (a b : GReg) (s : State) : Res :=
  let v := s.g a
  let w := s.g b
  if w.toNat % 2 ^ 32 ≥ 2 ^ 9 ∨ w.toNat / 8 % 32 ≠ 0 then trapHere s 0x06 w
  else withRegion s v 4096 (fun s k =>
    let r := s.region k
    if !r.loaded then trapHere s 0x06 v
    else if r.phases[w.toNat % 8]?.isNone then trapHere s 0x06 w
    else if r.rewrite.isSome then waitRetry s
    else
      let s := s.setRegion k { r with
        rewrite := some (w.truncate 3, w.getLsbD 8, w.extractLsb' 32 32, s.cur.tile, s.cur.thread) }
      .hold ((s.setMe { s.me with st := .waiting .unit }).event (.phaseRewrite k)))

/-- FSTOP: the region ends at its next boundary (R255). -/
def bodyFstop (a : GReg) (s : State) : Res :=
  let v := s.g a
  withRegion s v 4096 (fun s k =>
    let r := s.region k
    if regionIdle r then trapHere s 0x06 v else .done (s.setRegion k { r with stop := true }))

/-- The loop-context record (Table 02-2). -/
def recordLow (r : Region) : Word :=
  BitVec.ofNat 64 (r.slot.toNat + 2 ^ 8 * r.pm1.toNat + 2 ^ 16 * r.sv.toNat + 2 ^ 24 * r.rbase.toNat + 2 ^ 28 * r.st.toNat +
    2 ^ 32 * r.iter.toNat)
def recordHigh (r : Region) : Word := BitVec.ofNat 64 (r.trip.toNat + 2 ^ 32 * r.smax.toNat)

/-- FSTAT (R255): g[ra][13:12] selects the word. -/
def bodyFstat (d a : GReg) (s : State) : Res :=
  let v := s.g a
  if v.toNat / 4096 = 3 then trapHere s 0x06 v
  else withRegion s v 0x3000 (fun s k =>
    let r := s.region k
    .done (writeReg s d
      (if v.toNat / 4096 = 0 then recordLow r else if v.toNat / 4096 = 1 then recordHigh r else zx r.flags)))

def execFload (a b : GReg) (p : PReg) (s : State) : Out := seq p (bodyFload a b) s
def execFgo (a b : GReg) (p : PReg) (s : State) : Out := seq p (bodyFgo a b) s
def execFphase (a b : GReg) (p : PReg) (s : State) : Out := seq p (bodyFphase a b) s
def execFstop (a : GReg) (p : PReg) (s : State) : Out := seq p (bodyFstop a) s
def execFstat (d a : GReg) (p : PReg) (s : State) : Out := seq p (bodyFstat d a) s

/-! ### Region events -/

/-- The region's inputs and outputs that are named by arcs. -/
def regionInputs (s : State) (r : Region) : List (Nat × ArcImage) :=
  (launchArcs s r.pid r.lnum).filter (fun (_, a) => match a.toPort with
    | none => false | some (t, _) => inRegion r (fabricAt r t))
def regionOutputs (s : State) (r : Region) : List (Nat × ArcImage) :=
  (launchArcs s r.pid r.lnum).filter (fun (_, a) => match a.fromPort with
    | none => false | some (t, _) => inRegion r (fabricAt r t))

/-- A drain token goes down each output arc of a region (R255). -/
def sendRegionDrains (s : State) (k : Nat) : State :=
  let r := s.region k
  (regionOutputs s r).foldl (fun s (n, a) =>
    match a.fromPort, a.toPort with
    | some (f, _), some (t, _) =>
      let src := peTile (fabricAt r f)
      let dst := peTile (fabricAt r t)
      if src = dst then s.event (.drainToken dst n) else sendFlit s src dst a.vc 255 (.drain n)
    | _, _ => s) (s.setRegion k { r with drained := true })

/-- A region starts: SLOT, RBASE, SV, ITER and ST are set (R38). Drain tokens that the last run still owes go first (DESIGN
CHOICE, log 26). -/
def beginRegion (s : State) (k : Nat) (trip : Word32) : State :=
  let r := s.region k
  let s := if r.runs = 0 ∨ r.drained then s else sendRegionDrains s k
  s.setRegion k { s.region k with
    slot := 0, rbase := 0, sv := 1, iter := 1, st := 1, trip := trip, period := 0, runs := r.runs + 1, go := none
    stop := false, drained := false }

/-- REGION_START (R255): the start that was set for this slot; a launch that stands still starts nothing (R54). -/
def execRegionStart (k : Nat) (s : State) : Out :=
  let r := s.region k
  match r.go with
  | none => .next s
  | some trip => if r.held then .next (s.after 1 (.regionStart k)) else .next (beginRegion s k trip)

/-- The work of an unfrozen cycle: every PE's op word, then every route word, then the end of the cycle. -/
def enqueueCycle (s : State) (k : Nat) : State :=
  let ks := regionPes (s.region k)
  { s with agenda := s.agenda ++ ks.map (Work.peOp k) ++ ks.map (Work.peRoute k) ++ [Work.commit k] }

/-- A configuration store of the region is being written again (R379). -/
def regionReloads (s : State) (k : Nat) : Bool :=
  let tiles := (regionPes (s.region k)).map peTile
  s.reloading.any (fun c =>
    match c with
    | .pe p => (s.pe p).region == some k
    | .rings r => r == k
    | .chains t | .preds t => tiles.contains t
    | _ => false)

/-- The word of its scratch that a PE's op would read now is lost (R380). -/
def scratchLost (s : State) (r : Region) (k : Nat) : Bool :=
  let x := s.pe k
  let w := opAt x r.slot.toNat
  opCode w == 0x3A && opSrcA w == 31 && r.sv.getLsbD (opStage w) &&
    lost s (fun p => match p with
      | .scratch q n => q == k && n == (raAt x r.slot.toNat).toNat % 2 ^ 12 / 8
      | _ => false)

/-- A cycle of a running or frozen region: it freezes, or executes its slot in full (R41). It freezes too while a store of its
configuration is written again (R379), and where an op would read a lost word, which strikes its launch (R380). -/
def regionTurn (s : State) (k : Nat) : State :=
  let r := s.region k
  if r.held then s
  else if !s.flaws.isEmpty && (regionPes r).any (scratchLost s r) then
    (s.setRegion k { r with st := 2 }).event (.rollback r.pid r.lnum 1)
  else if regionBlocked s r || regionReloads s k then s.setRegion k { r with st := 2 }
  else enqueueCycle (s.setRegion k { r with st := 1 }) k

/-- REGION_CYCLE (R38, R41). -/
def execRegionCycle (k : Nat) (s : State) : Out := .next (if (s.region k).st = 1 then regionTurn s k else s)
/-- REGION_RESUME: the first cycle in which the freeze condition no longer holds (R41). -/
def execRegionResume (k : Nat) (s : State) : Out := .next (if (s.region k).st = 2 then regionTurn s k else s)

/-- The PRED flits of a region's tiles whose namers have all ended (R279). -/
def endedFlits (s : State) (r : Region) : List (Nat × Nat × Nat) :=
  ((regionPes r).map peTile).eraseDups.flatMap (fun t =>
    ((s.tile t).mem.predFlits.filter (fun f => (predNamers s t f.rid).all (fun (g, _) => g.st == 3))).map
      (fun f => (t, f.rid, f.q)))

/-- REGION_BOUNDARY (R38, R255, R366). -/
def execRegionBoundary (k : Nat) (s : State) : Out :=
  let r := s.region k
  let more := r.trip = 0 ∨ r.iter.toNat < r.trip.toNat
  let sv := (r.sv <<< 1) ||| (if more then 1 else 0)
  let ended := r.stop || sv.toNat % 2 ^ (r.smax.toNat + 1) == 0
  let s := s.setRegion k { r with
    slot := 0, sv := sv, iter := if more then r.iter + 1 else r.iter, rbase := r.rbase - 1, period := r.period + 1
    st := if ended then 3 else r.st, stop := false }
  let s := if ended then (endedFlits s (s.region k)).foldl (fun s (t, rid, q) => s.event (.predFlitSend t rid q)) s else s
  .next (if r.faults = 0 then s else stopLaunch s r.pid r.lnum 0x0D)

/-- Nothing of the region is in flight or waits in its chains (R262). -/
def regionSettled (s : State) (k : Nat) : Bool :=
  let r := s.region k
  (regionPes r).all (fun p => (s.pe p).inflight.isEmpty) &&
    ((regionPes r).map peTile).eraseDups.all (fun t =>
      (s.tile t).mem.chains.all (fun (_, c) => c.queue.all (fun o => o.region != k)))

/-- A run of the region has ended, and its drain tokens are not sent: the region may have been loaded again since (R262). -/
def owesDrains (r : Region) : Bool := regionIdle r && r.runs != 0 && !r.drained

/-- REGION_DRAIN_TOKENS: an ended region sends a drain token down each output arc, once it has settled (R255, R262). -/
def execRegionDrainTokens (k : Nat) (s : State) : Out :=
  let r := s.region k
  if !owesDrains r ∨ !regionSettled s k then .next s else .next (sendRegionDrains s k)

/-- The thread of an FPHASE goes on behind it, or takes cause 0x01 (R255). -/
def phaseAnswer (s : State) (tile t : Nat) (fail : Option Word) : State :=
  if (s.thread tile t).st = .waiting .unit then
    match fail with
    | none => passThread s tile t
    | some v => takeTrap s tile t 0x01 0 v (s.thread tile t).pc
  else s

/-- An input has passed its drain token; at an M latch the producer has ended and its last value is consumed (R298). -/
def inputDrained (s : State) (r : Region) (n : Nat) (a : ArcImage) : Bool :=
  (tabGet ArcState.reset (s.launch r.pid r.lnum).arcs n).drained &&
    (match a.toPort with
     | some (t, .m) => !(s.pe (fabricAt r t)).m.full
     | _ => true)

/-- PHASE_REWRITE: with ST = 3 and a drain token on each synchronised input, or with ST = 0, the configuration is
rewritten, ST := 0, and a start may follow (R255). One that is rejected leaves ST as it stands (DEDUCED, R282); with ST = 0 it
waits while a start is set for its slot, and for the end of that run (DESIGN CHOICE, log 26). -/
def execPhaseRewrite (k : Nat) (s : State) : Out :=
  let r := s.region k
  match r.rewrite with
  | none => .next s
  | some (phase, go, trip, tile, t) =>
    let inputs := regionInputs s r
    let ready := (r.st = 0 ∧ r.go = none) ∨
      (r.st = 3 ∧ inputs.all (fun (n, a) => inputDrained s r n a))
    if ¬ ready ∨ r.held then .next (s.after 1 (.phaseRewrite k))
    else
      let s := s.setRegion k { r with rewrite := none }
      match r.phases[phase.toNat]? with
      | none => .next s
      | some ph =>
        match checkPhase s k ph with
        | some v => .next (phaseAnswer s tile t (some v))
        | none =>
          let l := s.launch r.pid r.lnum
          let s := s.setLaunch r.pid r.lnum { l with
            arcs := l.arcs.map (fun (n, a) => (n, if inputs.any (fun i => i.1 == n) then { a with drained := false } else a)) }
          let s := loadPhase s k ph true
          let s := if go then scheduleStart s k trip else s
          .next (phaseAnswer s tile t none)

/-! ### Store ops of chains (R274 to R277) -/

/-- The op of a chain that comes next: the lowest start, then the lowest sequence number (R274). -/
def nextOp (q : List StoreOp) : Option StoreOp :=
  q.foldl (fun m o => match m with
    | none => some o
    | some n => if o.run < n.run ∨ (o.run = n.run ∧ o.seq < n.seq) then some o else m) none

/-- Whether FEM lets an op proceed at a word (R276). -/
def femReady (o : StoreOp) (full : Bool) : Bool :=
  if o.load then o.fem == 0 || full else o.fem != 2 || !full

/-- The cause of a faulting store op (R277): misaligned, out of range, or a load that meets a lost word. -/
def storeOpCause (s : State) (tile : Nat) (o : StoreOp) : Option Nat :=
  if o.off.toNat % 4 ≠ 0 then some 0x03 else if o.off.toNat + 4 > Config.storeSize then some 0x06
  else if o.load && lost s (inStore tile o.off.toNat 4) then some 0x0E else none

/-- DATA of a fabric memory fault (Table 17-3 TYPE 0x07). -/
def storeFaultData (r : Region) (o : StoreOp) (chn : Nat) : List Byte :=
  natBytes 2 r.number ++ natBytes 1 (peLocal o.pe) ++ natBytes 1 chn ++ natBytes 1 o.own ++ [0, 0, 0] ++
    natBytes 8 o.iter ++ natBytes 8 o.off.toNat

/-- The effect of a store op that may proceed (R273, R274, R276). -/
def performStoreOp (s : State) (tile : Nat) (o : StoreOp) : State :=
  let w := o.off.toNat / 8
  if o.load then
    let v := BitVec.ofNat 32 (storeLoad (s.tile tile) o.off.toNat 4)
    let x := s.pe o.pe
    let s := s.setPe o.pe { x with replies := x.replies ++ [v], awaited := x.awaited - 1 }
    if o.fem = 2 then changeBit s tile w false else s
  else
    let s := s.modTile tile (fun x => storePut x o.off.toNat 4 o.data.toNat)
    if o.fem = 0 then s else changeBit s tile w true

/-- The chain table of a tile is being written again (R379). -/
def chainReloads (s : State) (tile : Nat) : Bool := s.reloading.contains (.chains tile)

/-- STORE_OP_PERFORM: the next op of a chain is performed in sequence order; a fault keeps its place and is recorded once
(R274 to R277). -/
def execStoreOpPerform (tile chn : Nat) (s : State) : Out :=
  let x := s.tile tile
  let c := tabGet Chain.reset x.mem.chains chn
  let put (s : State) (c : Chain) : State :=
    s.modTile tile (fun x => { x with mem := { x.mem with chains := tabPut x.mem.chains chn c } })
  let again (s : State) : Out := .next (s.after 1 (.storeOpPerform tile chn))
  match nextOp c.queue with
  | none => .next s
  | some o =>
    if c.faulted then .next s
    else if o.run = c.run ∧ c.next < o.seq ∨ o.run ≠ c.run ∧ o.seq ≠ 0 then again s
    else
      match storeOpCause s tile o with
      | some k =>
        let s := postAt (put s { c with faulted := true }) tile 0x07 k (if k = 0x0E then 1 else 0) (storeFaultData (s.region o.region) o chn)
        .next (if k = 0x0E then strikeTile s tile 1 else s)
      | none =>
        if bankHeld x (bankOf o.off.toNat) then again (wakeBank s tile (bankOf o.off.toNat))
        else if !femReady o (isFull x (o.off.toNat / 8)) ∨ chainReloads s tile ∨
            tileWaits s tile (fun _ k => k == .fabric (s.region o.region).number) chn then again s
        else
          let c' : Chain := { c with
            queue := c.queue.erase o, run := o.run
            next := if o.run = c.run then max c.next (o.seq + 1) else o.seq + 1 }
          let s := performStoreOp (put s c') tile o
          if c'.queue.isEmpty then .next s else again s

end Sys2Proof.Machine
end

