-- ==== Sys2Proof/Machine/Launch.lean ====
section
/-! DEFINITION. The launch unit: packets, acceptance, parameter versions, binding an image, and LNCH (spec 15 R330 to
R340, 09 R253, 17 R377, 18 R404). -/

namespace Sys2Proof.Machine

/-! ### Memory as the launch unit reads and writes it (R253, R340) -/

/-- A range of virtual addresses cut at lines: position in the range, length, address. -/
def lineSpans (va n : Nat) : List (Nat × Nat × Nat) :=
  if n = 0 then []
  else
    (List.range ((va + n - 1) / 1024 - va / 1024 + 1)).map (fun i =>
      let a := max va (1024 * (va / 1024 + i))
      (a - va, min (va + n) (1024 * (va / 1024 + i + 1)) - a, a))

/-- Bytes of one span: those of the TID 0 line if it is valid, else those of memory. -/
def spanBytes (s : State) (pid : Nat) (g : Page) (n va : Nat) : List Byte :=
  match lineHit (s.part pid) (flatTag va) with
  | some l => (l.data.drop (va % 1024)).take n
  | none => settledBytes s (pageAddr g va) n

/-- Reads spans under a translation; the bytes, or the first failure with its address. -/
def readSpans (tr : State → Nat → State × Translation) (pid : Nat) (s : State) (ps : List (Nat × Nat × Nat))
    (acc : List Byte) : State × List Byte × Option (Translation × Nat) :=
  match ps with
  | [] => (s, acc, none)
  | (_, n, va) :: r =>
    match tr s va with
    | (s, .page g) => readSpans tr pid s r (acc ++ spanBytes s pid g n va)
    | (s, t) => (s, acc, some (t, va))

/-- The launch unit's own read (Table 16-5). -/
def launchRead (s : State) (pid va n : Nat) : State × List Byte × Option (Translation × Nat) :=
  readSpans (fun s a => translateAt s pid a false false) pid s (lineSpans va n) []

/-- The TID 0 line of a tag as the launch unit finds it: valid in its slice, or read from memory (R340, log 28). -/
def lineNow (s : State) (pid : Nat) (tag : BitVec 60) : Line :=
  match lineHit (s.part pid) tag with
  | some l => l
  | none =>
    let p := s.part pid
    let va := tag.toNat * 1024 % 2 ^ 64
    let bytes := match lookupPage s pid (unitField p) va false false with
      | .page g => settledBytes s (pageAddr g va) 1024
      | _ => List.replicate 1024 0
    ⟨bytes, List.replicate 16 0, genOf p 0, false, homeSlice p tag⟩

/-- The launch unit's write, performed at home slices (R340); a page that does not translate is recorded (R359). -/
def launchWrite (s : State) (pid va : Nat) (bs : List Byte) : State :=
  (lineSpans va bs.length).foldl (fun s (pos, n, a) =>
    let tag := flatTag a
    match translateAt s pid a true false with
    | (s, .page _) =>
      let l := lineNow s pid tag
      placeLine s pid tag { l with data := overlay l.data (a % 1024) ((bs.drop pos).take n), dirty := true }
    | (s, _) => translationRecord s pid 0x12 tag a) s

/-! ### Packets (R333, Table 15-4) -/

/-- Whether a byte of a packet of a TYPE is listed. -/
def listed (typ i : Nat) : Bool :=
  match typ with
  | 1 => decide (i < 10) || (decide (12 ≤ i) && decide (i < 18))
  | 2 => decide (i < 7) || (decide (24 ≤ i) && decide (i < 56))
  | 3 => decide (i < 4) || (decide (8 ≤ i) && decide (i < 26))
  | 4 => decide (i < 4)
  | _ => false

/-- 64 bytes of a TYPE with every reserved byte 0 and BIND within its limit. -/
def packetForm (typ : Nat) (bs : List Byte) : Bool :=
  decide (bs.length = 64) && decide (field bs 0 1 = typ) && (List.range 64).all (fun i => listed typ i || nth bs i 0 == 0) &&
    decide (field bs 2 2 ≤ 1023)

def bindingOf (p : Partition) (h : Nat) : Option Binding := tabFind p.bindings h

/-- Launches accepted on a handle and not ended. -/
def acceptedOn (p : Partition) (h : Nat) : List (Nat × Launch) :=
  p.launches.filter (fun (_, l) => l.bind == h && !l.failed)

/-- The determinism attribute of an image: bit 0 of ATTR (Table 15-5). -/
def nonExact (i : Image) : Bool := field i.bytes 6 1 % 2 == 1

/-- The limits of a launch packet (Table 15-4, R335); MATTR comes from the module controller only. -/
def launchOk (p : Partition) (src : PacketSource) (bs : List Byte) : Bool :=
  packetForm 1 bs && decide (field bs 1 1 < 16) && decide (field bs 8 2 < 4096) && decide (field bs 16 2 < 4096) &&
    (field bs 1 1 / 8 % 2 == 0 || src == .controller) &&
    (match bindingOf p (field bs 2 2) with
     | none => false
     | some b => field bs 1 1 % 2 == 0 || !(b.image.any nonExact))

/-- The limits of a patch packet: its binding is bound (Table 15-4). -/
def patchOk (p : Partition) (bs : List Byte) : Bool :=
  packetForm 2 bs && decide (field bs 1 1 = 0) && decide (field bs 4 2 % 8 = 0) && decide (field bs 6 1 % 8 = 0) &&
    decide (8 ≤ field bs 6 1) && decide (field bs 6 1 ≤ 32) &&
    (match bindingOf p (field bs 2 2) with
     | none => false
     | some b => b.bound && decide (field bs 4 2 + field bs 6 1 ≤ b.psize))

/-- The limits of a bind packet. -/
def bindOk (bs : List Byte) : Bool :=
  packetForm 3 bs && decide (field bs 1 1 = 0) && decide (field bs 8 8 % 4096 = 0) && decide (field bs 16 8 % 64 = 0)

/-- An unbind names a binding that no accepted launch names (R338). -/
def unbindOk (p : Partition) (bs : List Byte) : Bool :=
  packetForm 4 bs && decide (field bs 1 1 = 0) && (bindingOf p (field bs 2 2)).isSome && (acceptedOn p (field bs 2 2)).isEmpty

/-- What the launch unit answers at a packet's arrival. -/
inductive Verdict where
  | accepted
  /-- The queue is full, or EN = 0 (R332). -/
  | full
  /-- Refused by R333. -/
  | malformed
  deriving DecidableEq, Repr

/-- R332, then R333. -/
def judge (p : Partition) (q : Nat) (src : PacketSource) (ok : Bool) : Verdict :=
  if (p.queue q).en = false ∨ 64 ≤ queueCount p q then .full
  else if !ok || (src == .host && !(p.queue q).host) then .malformed
  else .accepted

/-- A queue error record (Table 17-3 TYPE 0x0F). -/
def queueError (s : State) (pid q sub : Nat) : State := post s pid 0x0F 0x14 sub 4 0 q 0 (natBytes 1 q)

/-- A packet is discarded: OVF or PKTERR and a record (R332, R333). -/
def discard (s : State) (pid q : Nat) (v : Verdict) : State :=
  match v with
  | .full => queueError (s.modQueue pid q (fun x => { x with ovf := true, ovfAt := s.cycle })) pid q 1
  | .malformed => queueError (s.modQueue pid q (fun x => { x with pkterr := true, pktAt := s.cycle })) pid q 3
  | .accepted => s

/-- QUEUE_WRITE_ERROR: a write to PKT of another size or alignment (R331). -/
def execQueueWriteError (pid q : Nat) (s : State) : Out := .next (discard s pid q .malformed)

/-! ### Arrivals (R331, R348) -/

/-- The partition and queue of a host packet. -/
def arrivalOf (w : Work) : Option (Nat × Nat) :=
  match w with
  | .event (.launchPacket p q _ _) | .event (.patchPacket p q _ _) | .event (.bindPacket p q _ _)
  | .event (.unbindPacket p q _ _) => some (p, q)
  | _ => none

/-- What the launch unit takes from the host once the other events of the cycle have happened: packets, bad writes of PKT, and
QREL (R348). -/
def isArrival (w : Work) : Bool :=
  match w with
  | .event (.queueWriteError _ _) | .event (.qrelResume _ _) | .event (.qrelAbort _ _) => true
  | _ => (arrivalOf w).isSome

/-- The place of an arrival among those of its cycle (R331). -/
def arrivalQueue (w : Work) : Nat :=
  match w with
  | .event (.queueWriteError _ q) | .event (.qrelResume _ q) | .event (.qrelAbort _ q) => q
  | _ => match arrivalOf w with | some (_, q) => q | none => 0

/-- Arrivals of one cycle in increasing queue number. -/
def insertArrival (l : List Work) (w : Work) : List Work :=
  match l with
  | [] => [w]
  | v :: r => if arrivalQueue w < arrivalQueue v then w :: v :: r else v :: insertArrival r w

/-- What is taken in this cycle, one packet for each partition not in `seen`; and what waits (R331). -/
def takeArrivals (l : List Work) (seen : List Nat) : List Work × List Work :=
  match l with
  | [] => ([], [])
  | w :: r =>
    match arrivalOf w with
    | none => let (now, later) := takeArrivals r seen; (w :: now, later)
    | some (p, _) =>
      if seen.contains p then let (now, later) := takeArrivals r seen; (now, w :: later)
      else let (now, later) := takeArrivals r (p :: seen); (w :: now, later)

/-- LNCH's packet waits: host arrivals go before it, the partition has had its arrival of this cycle, or an end record is posted
in this cycle (R331, R348). -/
def arrivalWaits (s : State) (pid : Nat) : Bool :=
  let before (w : Work) : Bool :=
    (match arrivalOf w with | some (p, _) => p == pid | none => false) ||
      (match w with | .event (.launchEnd p _) => p == pid | _ => false)
  s.arrivals.any before || s.agenda.any before || decide (s.cycle < (s.part pid).nextArrival)

/-! ### Launch packets (R334) -/

/-- The launch number after `n`: 0 is skipped on wrap (R334). -/
def numberAfter (n : Nat) : Nat := n % (2 ^ 32 - 1) + 1

/-- The launch number that a partition gives next. One that a launch still holds is passed over: the count may have begun
again at 1 since (DEDUCED, log 12). -/
def launchNumber (p : Partition) : Nat :=
  ((List.range (p.launches.length + 1)).foldl (fun n _ => if (tabFind p.launches n).isSome then numberAfter n else n) p.nextLaunch)

/-- A launch number is taken (R334). -/
def takeNumberOf (s : State) (pid : Nat) : State × Nat :=
  let n := launchNumber (s.part pid)
  (s.setPart pid { s.part pid with nextLaunch := numberAfter n }, n)

/-- A launch is accepted under a number: version latched, tail of its queue, LAST (R334). -/
def acceptLaunch (s : State) (pid q n : Nat) (bs : List Byte) : State :=
  let p := s.part pid
  let b := tabGet Binding.reset p.bindings (field bs 2 2)
  let l : Launch := { Launch.reset with
    queue := q, tag := BitVec.ofNat 32 (field bs 4 4), flags := BitVec.ofNat 8 (field bs 1 1)
    wctr := BitVec.ofNat 12 (field bs 8 2), wval := BitVec.ofNat 32 (field bs 12 4), sctr := BitVec.ofNat 12 (field bs 16 2)
    bind := field bs 2 2, version := b.current, phase := .queued, mattr := (BitVec.ofNat 8 (field bs 1 1)).getLsbD 3 }
  let s := s.setLaunch pid n l
  (s.modQueue pid q (fun x => { x with packets := x.packets ++ [n], last := BitVec.ofNat 32 n })).event (.dispatch pid)

/-- LAUNCH_PACKET (R331 to R335). -/
def execLaunchPacket (pid q : Nat) (src : PacketSource) (bs : List Byte) (s : State) : Out :=
  match judge (s.part pid) q src (launchOk (s.part pid) src bs) with
  | .accepted =>
    match takeNumberOf s pid with
    | (s, n) => .next (acceptLaunch s pid q n bs)
  | v => .next (discard s pid q v)

/-! ### Patches (R339, R340) -/

/-- Whether an accepted launch holds a version of a binding. -/
def versionHeld (p : Partition) (h v : Nat) : Bool := (acceptedOn p h).any (fun (_, l) => l.version == v)

/-- R340. -/
def applyPatch (s : State) (pid q : Nat) (bs : List Byte) : State :=
  let p := s.part pid
  let h := field bs 2 2
  let b := tabGet Binding.reset p.bindings h
  let data := (bs.drop 24).take (field bs 6 1)
  let c := b.current
  if !versionHeld p h c then launchWrite s pid (b.pvbase + c * b.psize + field bs 4 2) data
  else
    match (List.range 4).find? (fun v => v != c && !versionHeld p h v) with
    | some n =>
      match launchRead s pid (b.pvbase + c * b.psize) b.psize with
      | (s, copy, _) =>
        let s := launchWrite s pid (b.pvbase + n * b.psize) copy
        let s := launchWrite s pid (b.pvbase + n * b.psize + field bs 4 2) data
        s.setPart pid { s.part pid with bindings := tabPut (s.part pid).bindings h { b with current := n } }
    | none => queueError (s.modQueue pid q (fun x => { x with perr := true, perrAt := s.cycle })) pid q 2

/-- PATCH_PACKET (R331 to R333, R340). -/
def execPatchPacket (pid q : Nat) (src : PacketSource) (bs : List Byte) (s : State) : Out :=
  match judge (s.part pid) q src (patchOk (s.part pid) bs) with
  | .accepted => .next (applyPatch s pid q bs)
  | v => .next (discard s pid q v)

/-! ### Binds (R336 to R338) -/

/-- A bind failed record (Table 17-3 TYPE 0x10). -/
def bindFailed (s : State) (pid h code : Nat) : State :=
  post s pid 0x10 0 0 4 0 0xFF 0 (natBytes 2 h ++ natBytes 2 code)

/-- The failure code of a check that the specification gives no code (log 12). -/
def failureCode (reason : Nat) : Nat := (Config.bindFailure reason).toNat

/-- A section entry of 32 bytes: its kind, its zero bytes, and contents and target list that lie in the image (R336). -/
def sectionOk (bs : List Byte) (at_ : Nat) : Bool :=
  let f (k n : Nat) : Nat := field bs (at_ + k) n
  decide (1 ≤ f 0 2) && decide (f 0 2 ≤ 12) && decide (f 2 6 = 0) && decide (f 8 8 + f 16 8 ≤ bs.length) &&
    decide (f 24 8 < bs.length)

/-- The header of Table 15-5, over the image's bytes, and its section table (R336). -/
def headerOk (bs : List Byte) : Bool :=
  let f := field bs
  decide (f 0 4 = 0xA1E00001) && decide (f 4 2 = 1) && decide (f 6 1 < 4) && decide (f 7 1 = 0) &&
    decide (f 16 8 = bs.length) && BitVec.ofNat 384 (f 48 48) == Config.sha384 (bs.drop 96) &&
    decide (1 ≤ f 8 1) && decide (f 8 1 ≤ 64) && decide (1 ≤ f 9 1) && decide (f 9 1 ≤ 64) &&
    decide (1 ≤ f 10 2) && decide (f 10 2 ≤ 64) && decide (1 ≤ f 12 4) && decide (f 12 4 ≤ 65535) &&
    decide (f 24 8 + 32 * f 12 4 ≤ bs.length) &&
    (List.range (f 12 4)).all (fun k => sectionOk bs (f 24 8 + 32 * k))

/-- The version area translates for writing (R337, R339). -/
def versionsOk (s : State) (pid pv n : Nat) : Bool :=
  (lineSpans pv n).all (fun (_, _, va) => match translateAt s pid va true false with | (_, .page _) => true | _ => false)

/-- The image that a bind packet names, read through the partition's translation at its arrival, or the code of the check that
fails (R337, Table 16-4): LEN stands in the header, which is read first. -/
def readImage (s : State) (pid at_ pv : Nat) : State × Option Nat × List Byte :=
  match launchRead s pid at_ 96 with
  | (s, _, some _) => (s, some (failureCode 1), [])
  | (s, head, none) =>
    if field head 0 4 ≠ 0xA1E00001 ∨ field head 4 2 ≠ 1 then (s, some (failureCode 2), [])
    else
      match launchRead s pid at_ (field head 16 8) with
      | (s, _, some _) => (s, some (failureCode 1), [])
      | (s, bs, none) =>
        if !headerOk bs then (s, some (failureCode 2), [])
        else if !versionsOk s pid pv (4 * 64 * field bs 10 2) then (s, some (failureCode 13), [])
        else (s, none, bs)

/-- A bind is accepted: the image is read and the handle is taken, unless it is bound already or the image fails (R337). -/
def acceptBind (s : State) (pid : Nat) (bs : List Byte) : State :=
  let p := s.part pid
  let h := field bs 2 2
  if (bindingOf p h).isSome then bindFailed s pid h (failureCode 0)
  else
    match readImage s pid (field bs 8 8) (field bs 16 8) with
    | (s, some code, _) => bindFailed s pid h code
    | (s, none, image) =>
      let b : Binding := { Binding.reset with
        imageAt := field bs 8 8, pvbase := field bs 16 8, x0 := field bs 24 1, y0 := field bs 25 1, read := image }
      s.setPart pid { s.part pid with bindings := tabPut (s.part pid).bindings h b }

/-- BIND_PACKET (R331 to R333, R337): the image is read, and BIND_COMPLETE answers its other checks. -/
def execBindPacket (pid q : Nat) (src : PacketSource) (bs : List Byte) (s : State) : Out :=
  match judge (s.part pid) q src (bindOk bs) with
  | .accepted => .next (acceptBind s pid bs)
  | v => .next (discard s pid q v)

/-- A handle is freed, and no tile holds its configuration any more (R338). -/
def freeBinding (s : State) (pid h : Nat) : State :=
  let p := s.part pid
  let s := s.setPart pid { p with bindings := tabDel p.bindings h }
  { s with tiles := s.tiles.map (fun (t, x) =>
      (t, if holdsTile p t ∧ x.configured = some h then { x with configured := none } else x)) }

/-- UNBIND_PACKET (R338). -/
def execUnbindPacket (pid q : Nat) (src : PacketSource) (bs : List Byte) (s : State) : Out :=
  match judge (s.part pid) q src (unbindOk (s.part pid) bs) with
  | .accepted => .next (freeBinding s pid (field bs 2 2))
  | v => .next (discard s pid q v)

/-! ### The checks of a bind (R337) -/

/-- Bd: the sum of LEN over the image's sections (R336, R343). -/
def sectionBytes (i : Image) : Nat :=
  let f := field i.bytes
  (List.range (f 12 4)).foldl (fun n k => n + f (f 24 8 + 32 * k + 16) 8) 0

/-- Both fixed paths of a pair meet a router that does not forward (R119). -/
def unreachablePair (s : State) (a b : Nat) : Bool := pathBlocked s false a b 128 && pathBlocked s true a b 128

/-- The forms of WMASK (R110). -/
def wmaskOk (m : BitVec 16) : Bool := [0x000F, 0x00F0, 0x0F00, 0xF000, 0x00FF, 0xFF00, 0xFFFF].contains m.toNat

/-- R110 and R326 on the groups of an image. -/
def groupsOk (i : Image) : Bool :=
  i.groups.all (fun g => wmaskOk g.wmask && decide (1 ≤ g.drops.length) && decide (g.drops.length ≤ 64) &&
    g.drops.all (fun t => decide (t % 64 < i.pw) && decide (t / 64 < i.ph))) &&
    decide ((i.groups.foldl (fun n g => n + g.drops.length) 0) ≤ 16384) &&
    i.groups.all (fun g => i.groups.all (fun h => g.number == h.number || g.vc != h.vc || !g.drops.any h.drops.contains))
def groupsOwned (p : Partition) (i : Image) : Bool :=
  i.groups.all (fun g => match sequencerOf p g.stack g.wg with | none => false | some n => p.channels.contains n)

/-- The group entry of a number. -/
def imageGroup (i : Image) (n : Nat) : Option GroupImage := i.groups.find? (fun g => g.number == n)

/-- R111 on one entry: no KIND 3; a named group is this transmitter's, and each quad of its WMASK is in a quarter of the
same KIND and GROUP. -/
def entryFormOk (i : Image) (t : TimetableImage) (w : BitVec 64) : Bool :=
  (quarters w).all (fun q =>
    if q.1 = 0 then true
    else if q.1 = 3 then false
    else match imageGroup i q.2 with
      | none => false
      | some g => g.stack == t.stack && g.wg == t.wg &&
        (List.range 4).all (fun k => g.wmask.toNat / 2 ^ (4 * k) % 16 == 0 || nth (quarters w) k (0, 0) == q))

/-- The groups that a timetable names in a slot. -/
def namedIn (t : TimetableImage) (slot : Nat) : List Nat :=
  ((quarters (nth t.entries (slot % t.entries.length) 0)).filter (fun q => q.1 == 1 || q.1 == 2)).map (·.2)

/-- Two groups share a drop port of a tile. -/
def sharePort (i : Image) (a b : Nat) : Bool :=
  match imageGroup i a, imageGroup i b with
  | some g, some h => a != b && g.port == h.port && g.drops.any h.drops.contains
  | _, _ => false

/-- No drop port of a tile is named by two groups in one slot, over the common period of each pair (R111). -/
def portsOk (i : Image) : Bool :=
  i.timetables.all (fun t => i.timetables.all (fun u =>
    (List.range (Nat.lcm t.entries.length u.entries.length)).all (fun k =>
      (namedIn t k).all (fun a => (namedIn u k).all (fun b => !sharePort i a b)))))

/-- R111 on the timetables of an image. -/
def timetablesOk (i : Image) : Bool :=
  i.timetables.all (fun t => decide (1 ≤ t.entries.length) && decide (t.entries.length ≤ 4096) &&
    t.entries.all (entryFormOk i t)) && portsOk i

end Sys2Proof.Machine
end

