-- ==== Sys2Proof/Machine/Tensor.lean ====
section
/-! DEFINITION. The tensor-cache instructions (spec 09 R229 to R237, 04 R84 to R89). -/

namespace Sys2Proof.Machine

/-- The partition of the issuing thread, and its record. -/
def State.myPid (s : State) : Nat := pidOf s s.cur.tile
def State.myPart (s : State) : Partition := s.part s.myPid

/-- A trap of cause 0x02 with the instruction word (R140). -/
def privileged (s : State) : Res := trapHere s 0x02 (wordValue s)

/-- A trap for a translation that fails at an address. -/
def translationTrap (va : Nat) (s : State) (c sub : BitVec 8) : Res := trapSub s c sub (BitVec.ofNat 64 va)

/-- The addresses of a line's pieces. -/
def lineAddresses (p : Partition) (tag : BitVec 60) : List Nat := (linePieces p tag).map (fun (_, _, va) => va)

/-- The line's bytes are translated at issue (R229). -/
def withLine (s : State) (w : Word) (write : Bool) (f : State → Res) : Res :=
  withPages s (lineAddresses s.myPart (w.truncate 60)) write translationTrap f

/-- An operation on a line goes to its home slice; the thread's fences wait for it. -/
def issueLine (s : State) (tag : BitVec 60) (act : GlobalAct) : State :=
  (s.setMe { s.me with globalOut := s.me.globalOut + 1 }).event
    (.homeSliceAccess ⟨s.myPid, tag, s.cur.tile, s.cur.thread, act⟩)

/-- The line of an access that is on its way to its home slice, or held there. -/
def accessOf (w : Work) : Option GlobalReq :=
  match w with
  | .event (.homeSliceAccess r) => some r
  | _ => none

/-- The lines of a TID on which an earlier access of the issuing thread is not performed yet: it waits for a fill, is held at a
slice without power, or is on its way (R79, R98). -/
def ownWaiting (s : State) (tid : Nat) : List (BitVec 60) :=
  let going := (s.agenda ++ s.timers.map (·.2)).filterMap accessOf
  (((s.myPart.waitingFills ++ going).filter (fun r =>
    r.tile == s.cur.tile && r.thread == s.cur.thread && tagTid r.tag == tid)).map (·.tag)).eraseDups

/-- Performed once the thread's earlier accesses to lines of the TID have been (R98). -/
def afterOwn (tid : Nat) (f : State → Res) (s : State) : Res :=
  if (ownWaiting s tid).isEmpty then f s else waitRetry s

/-- The checks of a line operation's store area of 1,040 bytes. -/
def lineArea (s : State) (v : Word) (f : Nat → Res) : Res :=
  if v.toNat % 64 ≠ 0 ∨ v.toNat + 1040 > Config.storeSize then trapHere s 0x06 v else f v.toNat

/-- LTLD (R231). -/
def bodyLtld (d a b : GReg) (s : State) : Res :=
  let w := s.g a
  if !tagValid s.myPart w then trapHere s 0x06 w
  else lineArea s (s.g b) (fun off => withEngines s (fun s => withLine s w false (fun s => takeNumber s w (fun s n =>
    let tag := w.truncate 60
    let x := s.here
    let s := s.setHere { x with eng := { x.eng with lines := x.eng.lines ++ [⟨n, s.cur.thread, false, tag, off, []⟩] } }
    .done (writeReg (issueLine s tag (.lineLoad off n.toNat)) d (zx n))))))

/-- LTST (R232): the source area is read at issue. -/
def bodyLtst (d a b : GReg) (s : State) : Res :=
  let w := s.g a
  if !tagValid s.myPart w then trapHere s 0x06 w
  else lineArea s (s.g b) (fun off => withEngines s (fun s =>
    match heldIn s.here off 1040 with
    | some k => waitRetry (wakeBank s s.cur.tile k)
    | none => readingStore s off 1040 (fun s => withLine s w true (fun s => takeNumber s w (fun s n =>
      let tag := w.truncate 60
      let x := s.here
      let bs := storeBytes x off 1040
      let s := s.setHere { x with eng := { x.eng with lines := x.eng.lines ++ [⟨n, s.cur.thread, true, tag, off, []⟩] } }
      .done (writeReg (issueLine s tag (.lineStore bs n.toNat)) d (zx n)))))))

/-- TENSOR_LINE_COMPLETE: a load's 1,040 bytes are written; the number is posted (R231, R232). -/
def execTensorLineComplete (tile cnum : Nat) (s : State) : Out :=
  let x := s.tile tile
  match x.eng.lines.find? (fun o => o.cnum.toNat == cnum) with
  | none => .next s
  | some o =>
    match (if o.store then none else heldIn x o.off 1040) with
    | some b => .next ((wakeBank s tile b).after (wakeCycles tile + 1) (.tensorLineComplete tile cnum))
    | none =>
      let x := if o.store then x else storeWrite x o.off o.bytes
      let x := { x with eng := { x.eng with lines := x.eng.lines.filter (fun p => p.cnum != o.cnum) } }
      .next (postNumber (globalDone (s.setTile tile x) tile o.thread) tile o.cnum)

/-- The coordinate field {C3, C2, C1, C0} moved by one along a dimension; none outside the tensor (R233). -/
def neighbour (p : Partition) (tag : BitVec 60) (k : Nat) (up : Bool) : Option (BitVec 60) :=
  if tagTid tag = 0 then
    if up then (if tag.toNat + 1 < 2 ^ 47 then some (tag + 1) else none) else if tag = 0 then none else some (tag - 1)
  else
    let d := tensorOf p (tagTid tag)
    let c := tagCoord tag k
    if up then (if c + 1 < d.tiles k then some (tag + BitVec.ofNat 60 (2 ^ (12 * k))) else none)
    else if c = 0 then none else some (tag - BitVec.ofNat 60 (2 ^ (12 * k)))

/-- The lines that a mask selects around a centre (R233). -/
def selectedLines (p : Partition) (tag : BitVec 60) (rank : Nat) (m : Word) : List (BitVec 60) :=
  (if m.getLsbD 8 then [tag] else []) ++
    (List.range rank).flatMap (fun k =>
      (if m.getLsbD (2 * k) then (neighbour p tag k false).toList else []) ++
        (if m.getLsbD (2 * k + 1) then (neighbour p tag k true).toList else []))

/-- The pages of the selected lines that are not valid are looked up; a failure leaves its line out (R233, R356). -/
def translateLines (tags : List (BitVec 60)) (f : State → Res) (s : State) : Res :=
  match tags with
  | [] => f s
  | t :: r =>
    if (lineHit s.myPart t).isSome then translateLines r f s
    else withPages s (lineAddresses s.myPart t) false (fun _ s _ _ => translateLines r f s) (translateLines r f)

/-- Each selected line that is not valid and whose pages translate is filled; the others are dropped (R233). -/
def prefetch (s : State) (tags : List (BitVec 60)) : State :=
  match tags with
  | [] => s
  | t :: r =>
    if (lineHit s.myPart t).isNone ∧ (lineAddresses s.myPart t).all (fun va => (pageNow s va false).isSome) then
      prefetch (issueLine s t .fill) r
    else prefetch s r

/-- LTPF (R233). -/
def bodyLtpf (a b : GReg) (s : State) : Res :=
  let w := s.g a
  let m := s.g b
  if !tagValid s.myPart w then trapHere s 0x06 w
  else
    let tag := w.truncate 60
    let rank := if tagTid tag = 0 then 1 else (tensorOf s.myPart (tagTid tag)).rank.toNat
    if m.toNat ≥ 2 ^ 9 ∨ m.toNat % 256 ≥ 2 ^ (2 * rank) then trapHere s 0x06 m
    else withEngines s (translateLines (selectedLines s.myPart tag rank m) (fun s =>
      .done (usedWalks (prefetch s (selectedLines s.myPart tag rank m)))))

/-- LTHALO (R234). -/
def bodyLthalo (a b : GReg) (s : State) : Res :=
  let w := s.g a
  let v := s.g b
  let tag := w.truncate 60
  let d := tensorOf s.myPart (tagTid tag)
  let k := v.toNat / 2 ^ 42 % 4
  if !tagValid s.myPart w ∨ tagTid tag = 0 ∨ d.halo = 0 then trapHere s 0x06 w
  else if v.toNat ≥ 2 ^ 46 ∨ d.rank.toNat ≤ k ∨ (k = 0 ∧ d.g64) then trapHere s 0x06 v
  else
    match resolveTile s (remoteTile v) with
    | none => trapHere s 0x06 v
    | some dst =>
      if remoteOff v % 8 ≠ 0 then trapHere s 0x03 v
      else if remoteOff v + stripSize d k > Config.storeSize then trapHere s 0x06 v
      else withEngines s (fun s => withLine s w false (fun s =>
        .done (issueLine s tag (.halo k (v.getLsbD 44) (v.getLsbD 45) dst (remoteOff v) (remoteVc v)))))

/-! ### Descriptors and generations (R84, R85, R88, R230, R235) -/

def log2Exact (n : Nat) : Nat := Nat.log2 n

/-- The descriptor image at a store offset, with a given GEN (Table 04-4). -/
def readTensor (bs : List Byte) (gen : Word32) : Tensor where
  base := BitVec.ofNat 64 (field bs 0 8)
  fmt := BitVec.ofNat 8 (field bs 8 1)
  rank := BitVec.ofNat 8 (field bs 9 1)
  halo := BitVec.ofNat 8 (field bs 10 1)
  gen := gen
  dims := Vector.ofFn (fun (k : Fin 4) => BitVec.ofNat 32 (field bs (16 + 4 * k.val) 4))
  strides := Vector.ofFn (fun (k : Fin 3) => BitVec.ofNat 64 (field bs (32 + 8 * k.val) 8))
  ts := Vector.ofFn (fun (k : Fin 4) => BitVec.ofNat 8 (field bs (56 + k.val) 1))
  hseed := BitVec.ofNat 32 (field bs 60 4)

/-- The conditions of R85; HALO is 0 to 15 and bits [63:57] of BASE and byte 11 are 0 (Table 04-4). -/
def tensorOk (bs : List Byte) (d : Tensor) : Bool :=
  let w := fmtBits d.fmt.toNat
  let r := d.rank.toNat
  decide (w ≠ 0) && decide (1 ≤ r) && decide (r ≤ 4) && decide (field bs 11 1 = 0) && decide (d.halo.toNat ≤ 15) &&
    decide (d.base.toNat < 2 ^ 57) &&
    (List.range 4).all (fun k => decide (1 ≤ d.dim k) && decide (d.tiles k ≤ 4096)) &&
    (List.range 4).all (fun k => decide (k < r) ||
      (decide (d.dim k = 1) && decide (d.tileLog k = 0) && (k == 0 || decide (d.stride k = 0)))) &&
    decide (d.tileLog 0 + d.tileLog 1 + d.tileLog 2 + d.tileLog 3 = if d.g64 then 10 else log2Exact (1024 / (w / 8))) &&
    (!d.g64 || (decide (6 ≤ d.tileLog 0) && decide (d.dim 0 % 64 = 0))) &&
    decide (d.base.toNat % (if d.g64 then 1 else w / 8) = 0) &&
    (List.range r).all (fun k => decide (d.halo.toNat < 2 ^ d.tileLog k))

/-- LTDEF and LTINV leave the thread Waiting while a walk of R88 runs. -/
def afterWalk (s : State) (walk : Bool) : Res := .done (if walk then s.setMe { s.me with st := .waiting .unit } else s)

/-- LTDEF (R230). -/
def bodyLtdef (a b : GReg) (s : State) : Res :=
  let t := s.g a
  let v := s.g b
  let tid := t.toNat
  if 4096 ≤ tid then trapHere s 0x06 t
  else if v.toNat % 64 ≠ 0 ∨ v.toNat + 64 > Config.storeSize then trapHere s 0x06 v
  else if tid = 0 ∧ s.me.pl = 0 then privileged s
  else withEngines s (afterOwn tid fun s =>
    match heldIn s.here v.toNat 64 with
    | some k => waitRetry (wakeBank s s.cur.tile k)
    | none => readingStore s v.toNat 64 fun s =>
      let bs := storeBytes s.here v.toNat 64
      let old := tensorOf s.myPart tid
      let d := readTensor bs old.gen
      let flatOk := (bs.take 12).all (· == 0) && ((bs.drop 16).take 44).all (· == 0)
      if (tid = 0 ∧ !flatOk) ∨ (tid ≠ 0 ∧ !tensorOk bs d) then trapHere s 0x06 v
      else
        let d := if tid = 0 then { old with hseed := d.hseed } else d
        let p := s.myPart
        let s := s.setPart s.myPid { p with tensors := tabPut p.tensors tid d }
        match bumpGen s s.myPid tid s.cur.tile s.cur.thread with
        | (s, walk) => afterWalk s walk)

/-- LTINV (R235). -/
def bodyLtinv (a : GReg) (s : State) : Res :=
  let t := s.g a
  if 4096 ≤ t.toNat then trapHere s 0x06 t
  else if t = 0 then privileged s
  else withEngines s (afterOwn t.toNat fun s =>
    match bumpGen s s.myPid t.toNat s.cur.tile s.cur.thread with
    | (s, walk) => afterWalk s walk)

/-- LTWB (R236): each dirty line of the current generation is written back for the thread, behind its own earlier accesses to
the line (R98). -/
def bodyLtwb (a : GReg) (s : State) : Res :=
  let t := s.g a
  if 4096 ≤ t.toNat then trapHere s 0x06 t
  else withEngines s (fun s =>
    let own := ownWaiting s t.toNat
    let tags := (s.myPart.lines.filter (fun (k, l) => k / 2 ^ 48 == t.toNat && l.dirty)).map (fun (k, _) => BitVec.ofNat 60 k)
    let s := (tags.filter (fun g => !own.contains g)).foldl (fun s g =>
      cleanLine s s.myPid g [] (some (s.cur.tile, s.cur.thread))) s
    .done (own.foldl (fun s g => issueLine s g .clean) s))

/-- The value that selector 2 of LTQ gives (R237). -/
def sliceIdentifier (s : State) (home : Nat) : Word :=
  if s.me.pl = 0 then
    match s.here.place with
    | none => BitVec.allOnes 64
    | some p =>
      let x := home % 64
      let y := home / 64
      if p.x0 ≤ x ∧ x < p.x0 + p.w ∧ p.y0 ≤ y ∧ y < p.y0 + p.h then BitVec.ofNat 64 (64 * (y - p.y0) + (x - p.x0))
      else BitVec.allOnes 64
  else BitVec.ofNat 64 home

/-- LTQ (R237). -/
def bodyLtq (d a b : GReg) (s : State) : Res :=
  let w := s.g a
  let v := s.g b
  let tag := w.truncate 60
  if 3 ≤ v.toNat then trapHere s 0x06 v
  else if !tagValid s.myPart w then trapHere s 0x06 w
  else withEngines s (afterOwn (tagTid tag) fun s =>
    .done (writeReg s d
      (if v = 0 then
        (match lineHit s.myPart tag with | some l => BitVec.ofNat 64 (1 + 2 * boolNat l.dirty) | none => 0)
      else if v = 1 then zx (tensorOf s.myPart (tagTid tag)).gen
      else sliceIdentifier s (homeSlice s.myPart tag))))

def execLtdef (a b : GReg) (p : PReg) (s : State) : Out := seq p (bodyLtdef a b) s
def execLtld (d a b : GReg) (p : PReg) (s : State) : Out := seq p (bodyLtld d a b) s
def execLtst (d a b : GReg) (p : PReg) (s : State) : Out := seq p (bodyLtst d a b) s
def execLtpf (a b : GReg) (p : PReg) (s : State) : Out := seq p (bodyLtpf a b) s
def execLthalo (a b : GReg) (p : PReg) (s : State) : Out := seq p (bodyLthalo a b) s
def execLtinv (a : GReg) (p : PReg) (s : State) : Out := seq p (bodyLtinv a) s
def execLtwb (a : GReg) (p : PReg) (s : State) : Out := seq p (bodyLtwb a) s
def execLtq (d a b : GReg) (p : PReg) (s : State) : Out := seq p (bodyLtq d a b) s

end Sys2Proof.Machine
end

