-- ==== Sys2Proof/Machine/Place.lean ====
section
/-! DEFINITION. Placing a bound image: its tiles, regions and groups, the checks of a bind, and what the loader writes
(spec 15 R337, R338, R343, 05 R109 to R111, R118, R124, 12 R302, 17 R381, 18 R404). -/

namespace Sys2Proof.Machine

/-! ### Tiles, regions and groups of a placement -/

/-- Absolute origin of a binding: column and row (R337). -/
def originOf (p : Partition) (b : Binding) : Nat × Nat := (p.x0 + b.x0, p.y0 + b.y0)
/-- Absolute tile of a relative one, 64 y + x each. -/
def tileAt (o : Nat × Nat) (rel : Nat) : Nat := 64 * (o.2 + rel / 64) + o.1 + rel % 64
/-- The origin as a tile number. -/
def originTile (o : Nat × Nat) : Nat := 64 * o.2 + o.1
/-- Relative tile of an absolute one. -/
def relTile (o : Nat × Nat) (t : Nat) : Nat := 64 * (t / 64 - o.2) + (t % 64 - o.1)
def imageTiles (o : Nat × Nat) (i : Image) : List Nat := rectTiles o.1 o.2 i.pw i.ph

/-- A numbered list. -/
def numbered {α : Type} (l : List α) : List (Nat × α) := List.zip (List.range l.length) l

/-- A tile joins a placement, with its PRED bindings; in exact mode the test windows on its buses end (R48, R278, R383). -/
def joinPlace (pid lnum h : Nat) (o : Nat × Nat) (i : Image) (s : State) (t : Nat) : State :=
  let elastic := (s.part pid).elastic
  s.modTile t (fun x => { x with
    place := some ⟨pid, lnum, o.1, o.2, i.pw, i.ph, h⟩
    ctl := { x.ctl with busTests := if elastic then x.ctl.busTests else x.ctl.busTests.map (fun e => (e.1, true)) }
    mem := { x.mem with
      preds := (i.preds.filter (fun e => e.1 == relTile o t)).foldl (fun m e => tabPut m e.2.1 e.2.2) [] } })

/-- A region of a placement before it is loaded. -/
def newRegion (pid lnum : Nat) (o : Nat × Nat) (n : Nat) (r : RegionImage) : Region :=
  { Region.reset with
    pid := pid, lnum := lnum, number := n, x := r.x, y := r.y, w := r.w, h := r.h, fx := 8 * o.1, fy := 8 * o.2
    phases := r.phases }

/-- Key of a region of a placement (R255). -/
def regionKey (o : Nat × Nat) (n : Nat) : Nat := 4096 * originTile o + n

/-- The regions of another placement whose origin lies in the rectangle leave the table with it. -/
def dropRegions (s : State) (ts : List Nat) : State :=
  { s with regions := s.regions.filter (fun (k, _) => !ts.contains (k / 4096)) }

/-- The tiles and regions of a launch (R48). -/
def placeGraph (s : State) (pid lnum : Nat) : State :=
  let l := s.launch pid lnum
  let b := tabGet Binding.reset (s.part pid).bindings l.bind
  match b.image with
  | none => s
  | some i =>
    let o := originOf (s.part pid) b
    let s := (imageTiles o i).foldl (joinPlace pid lnum l.bind o i) (dropRegions s (imageTiles o i))
    (numbered i.regions).foldl (fun s (n, r) => s.setRegion (regionKey o n) (newRegion pid lnum o n r)) s

/-! ### The checks of a bind (R337) -/

/-- The bytes that a tile's store data give, in a memory of their own. -/
def dataOf (i : Image) (rel : Nat) : Mem :=
  i.data.foldl (fun m (t, off, bs) => if t = rel then memWrite m off bs else m) []

/-- The parameter block of a tile's matrix node (R284, R302). -/
def paramBlock (i : Image) (rel off : Nat) : List Byte := memBytes (dataOf i rel) off 256

/-- The matrix node's table passes MXLOAD's checks on every tile, and has an MEND (R284). -/
def matrixNodeOk (i : Image) : Bool :=
  match i.matrix with
  | none => true
  | some (ws, q, off) =>
    decide (1 ≤ ws.length) && decide (ws.length ≤ 64) && ws.any (fun w => mxOp w == 7) &&
      (rectTiles 0 0 i.pw i.ph).all (fun rel => (checkTable (paramBlock i rel off) ws q).isNone)

/-- A region is 1 × 1 to 64 × 64 PEs within the placement (R22). -/
def regionFits (i : Image) (r : RegionImage) : Bool :=
  decide (1 ≤ r.w) && decide (r.w ≤ 64) && decide (1 ≤ r.h) && decide (r.h ≤ 64) &&
    decide (r.x + r.w ≤ 8 * i.pw) && decide (r.y + r.h ≤ 8 * i.ph)

/-- R22 and R155 on every region and phase; the checks of R282 are FLOAD's and FPHASE's. -/
def regionsOk (s : State) (o : Nat × Nat) (i : Image) : Bool :=
  (numbered i.regions).all (fun (n, r) =>
    regionFits i r && decide (1 ≤ r.phases.length) && decide (r.phases.length ≤ 8) && r.phases.all (wordsOk s (regionKey o n)))

/-- At most 16 reduction identifiers at a router (R124). -/
def treesOk (i : Image) : Bool :=
  i.trees.all (fun t => decide ((((i.trees.filter (fun u => u.tile == t.tile)).map (·.rid)).eraseDups).length ≤ 16))

/-- A program's stack index and channel are the partition's (R326, R337). -/
def dprogsOwned (p : Partition) (i : Image) : Bool :=
  i.dprogs.all (fun d => match sequencerOf p d.stack d.ch with
    | none => false
    | some n => p.channels.contains n)

/-- The lowest eyelet of the partition that is in service and reaches a module (R404). -/
def eyeletTo (s : State) (p : Partition) (m : Nat) : Option Nat :=
  p.eyelets.foldl (fun e k =>
    if (s.eyelet k).peer = some m ∧ (s.eyelet k).tx.lst ≠ 0 then (match e with | none => some k | some j => some (min j k))
    else e) none

/-- R400: no entry of KIND 3, and 1 to 4,096 entries. -/
def eyeletTimesOk (i : Image) : Bool :=
  i.eyeletTimes.all (fun t => decide (1 ≤ t.2.length) && decide (t.2.length ≤ 4096) && t.2.all (fun w => w.toNat % 4 != 3))

/-- At most 8 paths for each collective node (R128), and no tag of theirs in an `.edge` line (R404). -/
def collsOk (i : Image) : Bool :=
  i.colls.all (fun c => decide (c.paths.length ≤ 8) && c.links.all (fun l => !i.edges.any (fun e => e.1 == l.1)))

/-- The state in which R155 is checked: the placement stands under launch number 0, which no launch has. -/
def tryPlace (s : State) (pid h : Nat) (i : Image) : State :=
  let p := s.part pid
  let b := { tabGet Binding.reset p.bindings h with image := some i }
  let s := s.setPart pid { p with bindings := tabPut p.bindings h b }
  placeGraph (s.setLaunch pid 0 { Launch.reset with bind := h }) pid 0

/-- The code of a bind that a check of R110, R111, R124, R155 or R400 refuses: they name cause 0x01. -/
def refusedCode : Nat := 0x01

/-- The first check of R337 on the placed image that fails: cause 0x01 where the rule of the check names it, 0x0020 for an edge
(R404), else a code of log 12 for the reason. -/
def bindFailureOf (s : State) (pid h : Nat) (b : Binding) (i : Image) : Option Nat :=
  let p := s.part pid
  let o := originOf p b
  let ts := imageTiles o i
  if !(decide (b.x0 + i.pw ≤ p.w) && decide (b.y0 + i.ph ≤ p.h)) then some (failureCode 3)
  else if ts.any (fun t => (s.tile t).ctl.unavailable) then some (failureCode 4)
  else if ts.any (fun a => ts.any (unreachablePair s a)) then some (failureCode 5)
  else if !dprogsOwned p i then some (failureCode 6)
  else if !groupsOwned p i then some refusedCode
  else if !groupsOk i then some refusedCode
  else if !(timetablesOk i && eyeletTimesOk i) then some refusedCode
  else if !treesOk i then some refusedCode
  else if !regionsOk (tryPlace s pid h i) o i then some refusedCode
  else if !matrixNodeOk i then some (failureCode 12)
  else if !collsOk i then some (failureCode 14)
  else if (imageLinks i).any (fun (_, m, _) => (eyeletTo s p m).isNone) then some 0x0020
  else none

/-- Edge table entry (Table 05-4). -/
def edgeWord (eye : Nat) (wmask : BitVec 16) (peer pvc : Nat) : BitVec 64 :=
  BitVec.ofNat 64 (eye % 512 + 2 ^ 9 + 2 ^ 16 * wmask.toNat + 2 ^ 32 * (peer % 256) + 2 ^ 40 * (pvc % 32))

/-- The edge table takes a binding's `.edge` lines, and the entries of its collective paths (R118, R404). -/
def writeEdges (s : State) (pid : Nat) (i : Image) : State :=
  (imageLinks i).foldl (fun s (v, m, w) =>
    let p := s.part pid
    match eyeletTo s p m with
    | none => s
    | some e =>
      let s := s.setPart pid { p with edges := tabPut p.edges v (edgeWord e (s.eyelet e).tx.act m w) }
      match i.eyeletTimes.find? (fun t => t.1 == v) with
      | none => s
      | some (_, ws) => s.setEyelet e { s.eyelet e with entries := ws, s0 := s.gslot, phi := 0 }) s

/-- The eyelets whose timetables a binding uses (R400). -/
def edgeEyelets (s : State) (pid : Nat) (i : Image) : List Nat :=
  i.eyeletTimes.map (fun t => (edgeEntry (s.part pid) t.1).toNat % 512)

/-- Their timetables are stepped from a start slot, with an index per eyelet (R111, R400). -/
def stepEyelets (s : State) (pid : Nat) (i : Image) (s0 : Nat) (phi : Nat → Nat) : State :=
  (edgeEyelets s pid i).foldl (fun s e => s.setEyelet e { s.eyelet e with s0 := s0, phi := phi e }) s

/-- A bind fails: no binding is left, and launches accepted on the handle end when they are heads (R335, R337). -/
def failBind (s : State) (pid h code : Nat) : State :=
  let p := s.part pid
  let s := s.setPart pid { p with
    bindings := tabDel p.bindings h
    launches := p.launches.map (fun (n, l) => (n, if l.bind = h then { l with failed := true } else l)) }
  (bindFailed s pid h code).event (.dispatch pid)

/-- An image decodes bytes that were read: the bytes are its own, and its header fields are theirs (log 5). -/
def decodesRead (b : Binding) (i : Image) : Bool :=
  i.bytes == b.read && decide (field b.read 8 1 = i.pw) && decide (field b.read 9 1 = i.ph) && decide (field b.read 10 2 = i.psz)

/-- BIND_COMPLETE (R337): the image that was read, with its sections decoded (log 5), is checked and bound. -/
def execBindComplete (pid h : Nat) (i : Image) (s : State) : Out :=
  match bindingOf (s.part pid) h with
  | none => .next s
  | some b =>
    if b.bound || !decodesRead b i then .next s
    else
      match bindFailureOf s pid h b i with
      | some code => .next (failBind s pid h code)
      | none =>
        let p := s.part pid
        let b := { b with image := some i, psize := 64 * i.psz, current := 0, bound := true }
        let s := s.setPart pid { p with bindings := tabPut p.bindings h b }
        let s := launchWrite s pid b.pvbase (i.params ++ List.replicate (64 * i.psz - i.params.length) 0)
        .next ((writeEdges s pid i).event (.dispatch pid))

/-! ### What the loader writes (R338, R302, R381) -/

/-- The graph has a paired node. -/
def hasPair (i : Image) : Bool := i.code.any (fun c => c.pair)

/-- The threads of a tile that run a node's code (R302, R381). -/
def codeThreads (i : Image) (rel : Nat) (c : CodeImage) : BitVec 8 :=
  if rel % 2 = 0 then c.threads
  else if c.pair then 0
  else if hasPair i then c.threads &&& 0x80 else c.threads

/-- The threads of a tile that shadow those of its western neighbour (R381). -/
def shadowThreads (i : Image) (rel : Nat) : BitVec 8 :=
  if rel % 2 = 0 then 0 else i.code.foldl (fun m c => if c.pair then m ||| c.threads else m) 0

/-- Code that a tile holds. -/
def codeOn (i : Image) (rel : Nat) : List CodeImage :=
  i.code.filter (fun c => codeThreads i rel c != 0 || (c.pair && rel % 2 == 1))

/-- Instruction memory with the program area as the image has it; the handler area stays (R133, R322). -/
def loadCode (m : Mem) (cs : List CodeImage) : Mem :=
  cs.foldl (fun m c => memWrite m c.base (c.words.flatMap (fun w => natBytes 4 w.toNat))) (memClear m 0 Config.handlerBase)

/-- A tile that does not hold the configuration takes its code and its store data (R338). -/
def configureTile (o : Nat × Nat) (i : Image) (h : Nat) (s : State) (t : Nat) : State :=
  let x := s.tile t
  if x.configured = some h then s
  else
    let rel := relTile o t
    s.setTile t { x with
      configured := some h
      core := { x.core with imem := loadCode x.core.imem (codeOn i rel) }
      store := { x.store with
        mem := i.data.foldl (fun m (r, off, bs) => if r = rel then memWrite m off bs else m) x.store.mem } }

/-- What every dispatch writes on a tile: the matrix table, and an empty core, engines, chains and bobbin (R225, Table 11-1). -/
def freshTile (o : Nat × Nat) (i : Image) (s : State) (t : Nat) : State :=
  let x := s.tile t
  let rel := relTile o t
  let m := Matrix.reset
  let m := match i.matrix with
    | none => m
    | some (ws, q, off) => { loadTable m (paramBlock i rel off) ws q with st := 0 }
  s.setTile t { x with
    core := { x.core with
      threads := Vector.replicate 8 Thread.reset, shared := Vector.replicate 16 0, recv := Vector.replicate 2 []
      send := Vector.replicate 2 [], heldMsgs := [], csel := 0, gsel := 0, esel := 0, weights := [], calls := []
      rates := [], accepted := [], gathered := [], runs := [], pieces := []
      shadowOf := if shadowThreads i rel = 0 then none else some (t - 1), shadowMask := shadowThreads i rel
      haltc := false }
    store := { x.store with waiters := [], held := [] }
    eng := { Engines.reset with csdiv := i.csdiv }
    mem := { MemInterface.reset with preds := x.mem.preds }
    matrix := m
    bobbin := Bobbin.reset
    sent := 0, received := 0, active := false, stopped := false, drains := [], edge := [] }

/-- Tensor descriptors of an image; each takes the next GEN of its TID (R84, R88). -/
def loadTensors (s : State) (pid : Nat) (i : Image) : State :=
  i.tensors.foldl (fun s (tid, bs) =>
    let s := (bumpGen s pid tid Config.numTiles 0).1
    let p := s.part pid
    s.setPart pid { p with tensors := tabPut p.tensors tid (readTensor bs (tensorOf p tid).gen) }) s

/-- The group entries of a placement (Table 05-1, R109). DESIGN CHOICE (log 39): the drop lists stand in DLIST end to end from 0,
in increasing group number. -/
def loadGroups (s : State) (pid : Nat) (o : Nat × Nat) (i : Image) : State :=
  let p := s.part pid
  let below (n : Nat) : List GroupImage := i.groups.filter (fun g => decide (g.number < n))
  let s := { s with groups := s.groups.filter (fun (k, _) => k / 4096 != originTile o) }
  let entry (g : GroupImage) : Group :=
    ⟨(sequencerOf p g.stack g.wg).getD 0, g.wmask, g.vc, g.port, g.drops.map (tileAt o),
      (below g.number).foldl (fun n h => n + h.drops.length) 0, (below g.number).length⟩
  i.groups.foldl (fun s g => { s with groups := tabPut s.groups (groupKey (originTile o) g.number) (entry g) }) s

/-- The transmitters of a placement take their timetables (R111). -/
def loadTimetables (s : State) (pid lnum : Nat) (o : Nat × Nat) (i : Image) : State :=
  i.timetables.foldl (fun s t =>
    match sequencerOf (s.part pid) t.stack t.wg with
    | none => s
    | some n => s.setTx n { Transmitter.reset with
        entries := t.entries, launch := some (pid, lnum), origin := originTile o, held := true }) s

/-- The sequencers that a launch drives, with their programs (R343). -/
def drivenBy (p : Partition) (i : Image) : List (Nat × DprogImage) :=
  i.dprogs.filterMap (fun d => (sequencerOf p d.stack d.ch).map (fun n => (n, d)))

/-- A lane table entry: a group number, a tile made absolute with its offset and VC, or an LLC line (R243). -/
def laneOf (o : Nat × Nat) (l : LaneImage) : Lane :=
  { Lane.reset with kind := l.kind, target := if l.kind = 2 then tileAt o l.target else l.target, off := l.off, vc := l.vc }

/-- A channel leaves its keeper for a launch; its words follow at S0, and its refresh interval is held until then (R248). -/
def loadChannel (pid lnum : Nat) (o : Nat × Nat) (mattr : Bool) (s : State) (d : Nat × DprogImage) : State :=
  let c := s.chan d.1
  s.setChan d.1 { takeChannel c with
    keeper := false, intervalHeld := true, launch := some (pid, lnum), loadedAtM := mattr
    lanes := d.2.lanes.foldl (fun m l => tabPut m (laneKey l.kind l.idx) (laneOf o l)) [] }

/-- A child or parent of a tree node: a tile of the placement, or a tag as it is. -/
def treePlace (o : Nat × Nat) (t : Nat) : Nat := if 4096 ≤ t then t else tileAt o t

/-- The couching tree nodes of a placement (R124). -/
def loadTrees (s : State) (o : Nat × Nat) (i : Image) : State :=
  let ts := imageTiles o i
  let s := { s with nodes := s.nodes.filter (fun (k, _) => !ts.contains (k / 4096)) }
  i.trees.foldl (fun s t => s.setNode (4096 * tileAt o t.tile + t.rid)
    { TreeNode.reset with
      children := t.children.map (treePlace o), parent := t.parent.map (treePlace o), vc := t.vc
      down := i.colls.any (fun c => c.rids.contains t.rid), declared := t.contributors, half := t.bf16 }) s

/-- Phase 0 of every region (R49, R262). One that the checks of FLOAD reject is not loaded and does not start (R36, R282). -/
def loadRegions (s : State) (o : Nat × Nat) (i : Image) : State :=
  (numbered i.regions).foldl (fun s (n, r) =>
    match r.phases with
    | [] => s
    | ph :: _ => if (checkPhase s (regionKey o n) ph).isSome then s else loadPhase s (regionKey o n) ph false) s

/-- The PEs of the tiles hold no configuration of an earlier launch: latches, registers and results are gone. -/
def freshPes (s : State) (ts : List Nat) : State :=
  { s with pes := s.pes.filter (fun (k, _) => !ts.contains (peTile k)) }

/-- The mesh triples between tiles of the placement and its global reductions begin at SEQ 1 (R367). -/
def freshTriples (s : State) (pid : Nat) (ts : List Nat) : State :=
  let s := { s with triples := s.triples.filter (fun (k, _) => !(ts.contains (k / 32 / 4096) && ts.contains (k / 32 % 4096))) }
  let p := s.part pid
  s.setPart pid { p with redFilter := p.redFilter.filter (fun (k, _) => !ts.contains (k / 32 % 4096)) }

/-- Everything that the loader writes for a launch (R338, R343). -/
def configure (s : State) (pid lnum : Nat) : State :=
  let l := s.launch pid lnum
  let b := tabGet Binding.reset (s.part pid).bindings l.bind
  match b.image with
  | none => s
  | some i =>
    let o := originOf (s.part pid) b
    let ts := imageTiles o i
    let held := ts.all (fun t => (s.tile t).configured == some l.bind)
    let s := ts.foldl (configureTile o i l.bind) s
    let s := ts.foldl (freshTile o i) s
    let s := if held then s else loadTensors s pid i
    let s := loadTimetables (loadGroups s pid o i) pid lnum o i
    let s := (drivenBy (s.part pid) i).foldl (loadChannel pid lnum o l.mattr) s
    loadRegions (loadTrees (freshTriples (freshPes s ts) pid ts) o i) o i

end Sys2Proof.Machine
end

