-- ==== Sys2Proof/Machine/Start.lean ====
section
/-! DEFINITION. LNCH, the choice among ready heads, dispatch, configuration and the start slot (spec 09 R253, 15 R341 to
R344, R335, R346, 02 R49, R50, 17 R373, R377). -/

namespace Sys2Proof.Machine

/-! ### LNCH (R253) -/

/-- What an accepted packet of LNCH does, and what it writes into g[rd]: a launch number, 0 for a patch, and a value that
the specification does not give for a bind or an unbind (log 12). Under a snapshot interval the effect waits for the
launch's next cut, and a launch packet takes its number at once (R377). -/
def lnchEffect (s : State) (pid q : Nat) (bs : List Byte) : State × Word :=
  let pl := placeOf s s.cur.tile
  let typ := field bs 0 1
  let n := launchNumber (s.part pid)
  let v : Word := if typ = 1 then BitVec.ofNat 64 n else if typ = 2 then 0 else Config.lnchResult s.free
  let s := if typ = 3 ∨ typ = 4 then s.nextFree else s
  if (s.part pid).snapi ≠ 0 then
    let s := if typ = 1 then (takeNumberOf s pid).1 else s
    let l := s.launch pl.pid pl.lnum
    (s.setLaunch pl.pid pl.lnum { l with heldPackets := l.heldPackets ++ [(q, n, bs)] }, v)
  else
    match typ with
    | 1 => (acceptLaunch (takeNumberOf s pid).1 pid q n bs, v)
    | 2 => (applyPatch s pid q bs, v)
    | 3 => (acceptBind s pid bs, v)
    | _ => (freeBinding s pid (field bs 2 2), v)

/-- Whether a packet of any TYPE meets its limits (R333). -/
def packetOk (p : Partition) (src : PacketSource) (bs : List Byte) : Bool :=
  match field bs 0 1 with
  | 1 => launchOk p src bs
  | 2 => patchOk p bs
  | 3 => bindOk bs
  | 4 => unbindOk p bs
  | _ => false

/-- LNCH's packet arrives (R253, R332, R333). -/
def lnchArrive (d a : GReg) (q : Nat) (bs : List Byte) (s : State) : Res :=
  let pid := pidOf s s.cur.tile
  let p := s.part pid
  let src := PacketSource.thread s.cur.tile s.cur.thread s.me.pl
  let typ := field bs 0 1
  match judge p q src (packetOk p src bs) with
  | .full => trapSub s 0x14 1 (BitVec.ofNat 64 q)
  | v =>
    if s.me.pl = 0 ∧ (typ = 3 ∨ typ = 4) then trapHere s 0x02 (wordValue s)
    else if v = .malformed then trapHere s 0x06 (s.g a)
    else
      let (s, w) := lnchEffect s pid q bs
      .done (writeReg s d w)

/-- LNCH (R253): its packet arrives when its read completes, after the host's (R331). -/
def bodyLnch (d a b : GReg) (s : State) : Res :=
  let q := s.g b
  if 64 ≤ q.toNat then trapHere s 0x06 q
  else fenceBody readyS (fun s =>
    let spans := lineSpans (s.g a).toNat 64
    withPages s (spans.map (fun (_, _, va) => va)) false (fun va s c sub => trapSub s c sub (BitVec.ofNat 64 va)) (fun s =>
      let pid := pidOf s s.cur.tile
      if arrivalWaits s pid then waitRetry s
      else
        let s := s.setPart pid { s.part pid with nextArrival := s.cycle + 1 }
        let bs := spans.flatMap (fun (_, n, va) => match pageNow s va false with | some g => spanBytes s pid g n va | none => [])
        lnchArrive d a q.toNat bs s)) s

def execLnch (d a b : GReg) (p : PReg) (s : State) : Out := seq p (bodyLnch d a b) s

/-! ### The end record, and a head that ends without running (R335, R346) -/

/-- Sums of the sent and the received token counters of a placement (R52). -/
def sentSum (s : State) (ts : List Nat) : Word := ts.foldl (fun n t => n + (s.tile t).sent) 0
def receivedSum (s : State) (ts : List Nat) : Word := ts.foldl (fun n t => n + (s.tile t).received) 0

/-- ATTR of a launch's image, 0 where no image is bound. -/
def attrOf (s : State) (pid lnum : Nat) : Nat := match imageOf s pid lnum with | none => 0 | some i => field i.bytes 6 1

/-- The end record (Table 15-7). -/
def endRecord (s : State) (pid lnum status : Nat) (sum : Word) : State :=
  let l := s.launch pid lnum
  post s pid 0x01 0 0 4 0 l.queue lnum
    (natBytes 4 lnum ++ natBytes 4 l.tag.toNat ++ natBytes 1 status ++ natBytes 1 l.version ++ natBytes 1 l.queue ++
      natBytes 1 (attrOf s pid lnum) ++ natBytes 4 0 ++ natBytes 8 sum.toNat)

/-- A launch leaves its queue, its version holds with it, and the queue may dispatch its next launch (R345). -/
def leaveQueue (s : State) (pid lnum : Nat) : State :=
  let q := (s.launch pid lnum).queue
  let s := s.modQueue pid q (fun x => { x with packets := x.packets.filter (· != lnum), held := false, ready := none, age := 0 })
  let p := s.part pid
  let s := s.setPart pid { p with
    launches := tabDel p.launches lnum, dispatching := if p.dispatching = some lnum then none else p.dispatching }
  s.event (.dispatch pid)

/-- The heads whose bind failed end with STATUS 2 (R335). -/
def failHead (s : State) (pid q : Nat) (fuel : Nat) : State :=
  match fuel with
  | 0 => s
  | k + 1 =>
    match ((s.part pid).queue q).packets with
    | [] => s
    | n :: _ =>
      if (s.launch pid n).failed then failHead (leaveQueue (endRecord s pid n 2 0) pid n) pid q k else s

def failHeads (s : State) (pid : Nat) : State :=
  (List.range 64).foldl (fun s q => failHead s pid q ((s.part pid).queue q).packets.length) s

/-! ### Ready heads and their choice (R341, R342) -/

/-- The head of a queue that may be dispatched next: one that has not been dispatched, or that waits to be restored. -/
def candidate (p : Partition) (q : Nat) : Option (Nat × Launch) :=
  match (p.queue q).packets with
  | [] => none
  | n :: _ =>
    let l := tabGet Launch.reset p.launches n
    if l.phase = .queued ∨ l.restoring then some (n, l) else none

/-- The tiles of a placement are free, available and drained (R18, R341). -/
def tilesFree (s : State) (ts : List Nat) : Bool :=
  ts.all (fun t => (s.tile t).place.isNone && (s.tile t).drains.isEmpty && !(s.tile t).ctl.unavailable && !(s.tile t).ctl.retire)

/-- A launch of the partition is held by a power-limit stop (R328). -/
def powerHeld (p : Partition) : Bool := p.launches.any (fun (_, l) => l.phase == .held && l.cause == 0x10)

/-- R341. -/
def headReady (s : State) (pid q : Nat) : Bool :=
  let p := s.part pid
  match candidate p q with
  | none => false
  | some (n, l) =>
    (tabGet Binding.reset p.bindings l.bind).bound &&
      (l.restoring || !l.flags.getLsbD 1 || eventReached (tabGet 0 p.counters l.wctr.toNat) l.wval) &&
      tilesFree s (launchTiles s pid n) && !powerHeld p && !(p.queue q).held

/-- AGE is 0 when a head becomes ready or stops being ready (R342). -/
def markReady (s : State) (pid : Nat) : State :=
  (List.range 64).foldl (fun s q =>
    let x := (s.part pid).queue q
    if headReady s pid q then
      (if x.ready.isSome then s else s.modQueue pid q (fun x => { x with ready := some s.cycle, age := 0, windows := 0 }))
    else if x.ready.isSome then s.modQueue pid q (fun x => { x with ready := none, age := 0, windows := 0 })
    else s) s

/-- Effective priority (R342). -/
def effectivePriority (x : Queue) : Nat := min (x.prio.toNat + x.age) 14

/-- Whether queue `x` goes before queue `y` of a higher number: greater EP, then the longer ready (R342). -/
def goesFirst (x y : Queue) : Bool :=
  decide (effectivePriority y < effectivePriority x) ||
    (effectivePriority x == effectivePriority y && decide (x.ready.getD 0 ≤ y.ready.getD 0))

/-- The queue that is served next. -/
def chosen (p : Partition) : Option Nat :=
  (List.range 64).foldl (fun m q =>
    if (p.queue q).ready.isNone then m
    else match m with
      | none => some q
      | some k => if goesFirst (p.queue k) (p.queue q) then some k else some q) none

/-- Cycles that configuration takes: none where every tile holds it, else the bound of R343. -/
def configureCycles (s : State) (pid lnum : Nat) : Nat :=
  match imageOf s pid lnum with
  | none => 0
  | some i =>
    if (launchTiles s pid lnum).all (fun t => (s.tile t).configured == some (s.launch pid lnum).bind) then 0
    else 1024 + (sectionBytes i + 127) / 128

/-! ### Configuration and the start notice (R343) -/

/-- The channels that a launch drives, by sequencer number. -/
def drivenChannels (s : State) (pid lnum : Nat) : List Nat :=
  match imageOf s pid lnum with
  | none => []
  | some i => (drivenBy (s.part pid) i).map (·.1)

/-- The keeper of the channel has stopped for a dispatch, with every debt 0 (R248). -/
def channelReady (c : Chan) : Bool :=
  c.launch.isNone && !c.keeper && c.intervalHeld && c.banks.all (fun b => decide (b.debt ≤ 0))

/-- The keepers of the channels that a launch drives stop (R248, R343). -/
def stopKeepers (s : State) (pid lnum : Nat) : State :=
  (drivenChannels s pid lnum).foldl (fun s n => s.setChan n (stopKeeper (s.chan n) s.mck)) s

/-- The requests of a cut's save, or of a restore's reads, go to the channels of the save area (R374): which lines of it is a
free value (log 34). -/
def saveTraffic (s : State) (pid lnum : Nat) (write : Bool) : State :=
  let area := (s.part pid).saveArea
  let lines := Config.saveLines s.free
  let l := s.launch pid lnum
  let s := s.nextFree.setLaunch pid lnum { l with saveOut := l.saveOut + lines.length }
  lines.foldl (fun s (k, bs) =>
    let pa := area + 1024 * k
    let off := pa % 2 ^ 31
    let data := if write then List.zip ((List.range 1024).map (off + ·)) (bs ++ List.replicate 1024 0) else []
    sendDemand s (chanOf pa) ⟨pid, 0, off / 1024, .save pid lnum data, none⟩) s

/-- DISPATCH (R341 to R343): heads of failed binds end, and the chosen ready head's configuration begins; the keepers of its
channels stop, or, where its saved state is read first, once that has been read (R374, log 34). Nothing is dispatched during a
suspend. -/
def execDispatch (pid : Nat) (s : State) : Out :=
  let s := failHeads s pid
  if (s.part pid).dispatching.isSome ∨ s.suspend ≠ .running then .next (markReady s pid)
  else
    let s := markReady s pid
    match chosen (s.part pid) with
    | none => .next s
    | some q =>
      match candidate (s.part pid) q with
      | none => .next s
      | some (n, l) =>
        let s := s.setLaunch pid n { l with phase := .configuring }
        let s := s.modQueue pid q (fun x => { x with ready := none, age := 0, windows := 0 })
        let p := s.part pid
        let s := placeGraph (s.setPart pid { p with dispatching := some n }) pid n
        let s := if l.restoring then saveTraffic s pid n false else stopKeepers s pid n
        .next (s.after (configureCycles s pid n) (.configurationComplete pid n))

/-- AGING_STEP: the end of a window of 4,096 cycles for a ready and unchosen head (R342). -/
def execAgingStep (pid q : Nat) (s : State) : Out :=
  let x := (s.part pid).queue q
  if x.ready.isNone ∨ x.agep = 0 then .next s
  else if x.windows + 1 < x.agep.toNat then .next (s.modQueue pid q (fun x => { x with windows := x.windows + 1 }))
  else .next (s.modQueue pid q (fun x => { x with windows := 0, age := x.age + 1 }))

/-! ### The start slot of a dispatch (R343) -/

/-- S0: the first slot that begins at or after a cycle (R343). -/
def firstSlot (s : State) (cycle : Nat) : Nat := s.gslot + (cycle - s.cycle / 8 * 8 + 7) / 8

/-- The start slot of a launch that is configured now (R49, R343). -/
def startSlot (s : State) (pid lnum : Nat) : Nat :=
  firstSlot s ((drivenChannels s pid lnum).foldl (fun m n => max m ((((s.chan n).kept + 448) * 8 + 5) / 6)) (s.cycle + 264))

/-- CONFIGURATION_COMPLETE: everything is written, the start notice is sent, and the dispatch ends. It waits for the restore's
reads of the save area, and while the idle run of an earlier program is in progress on a channel that the launch drives (R248,
R343, R374). -/
def execConfigurationComplete (pid lnum : Nat) (s : State) : Out :=
  let l := s.launch pid lnum
  let wait (s : State) : Out := .next (s.after 1 (.configurationComplete pid lnum))
  if l.phase ≠ .configuring then .next s
  else if l.saveOut ≠ 0 then wait s
  else
    let s := stopKeepers s pid lnum
    if !(drivenChannels s pid lnum).all (fun n => channelReady (s.chan n)) then wait s
    else
      let s0 := startSlot s pid lnum
      let s := configure s pid lnum
      let s := s.setLaunch pid lnum { s.launch pid lnum with phase := .starting, s0 := s0 }
      let p := s.part pid
      let s := s.setPart pid { p with dispatching := if p.dispatching = some lnum then none else p.dispatching }
      let s := if l.restoring then s.event (.restore pid lnum) else s
      .next (s.event (.dispatch pid))

/-! ### The start slot (R49, R50) -/

/-- A started thread (R50, R312). -/
def startedThread (c : CodeImage) (param : Word) (m : Bool) : Thread :=
  let h := { Thread.reset with
    st := .running, pc := BitVec.ofNat 64 c.entry, lo := c.base, hi := c.base + 4 * c.words.length, paramv := param
    pl := if m then 3 else 0 }
  h.setReg 1 param

/-- The thread of a tile at the start: the program that names it, or Halted. -/
def threadAtStart (i : Image) (rel : Nat) (param : Word) (m : Bool) (t : Nat) : Thread :=
  match i.code.find? (fun c => (codeThreads i rel c ||| (if c.pair ∧ rel % 2 = 1 then c.threads else 0)).getLsbD t) with
  | none => Thread.reset
  | some c => startedThread c param m

/-- The graph node of each stream context: node order, from the lowest context of the named engine (R220). -/
def streamNodes (i : Image) (e : Nat) : List Nat :=
  ((numbered i.nodes).filter (fun (_, n) => n == .stream e)).map (·.1)

def bindStreams (i : Image) (x : Tile) : Tile :=
  (List.range 2).foldl (fun x e => (numbered ((streamNodes i e).take 8)).foldl (fun x (k, n) =>
    x.setStream (8 * e + k) { x.stream (8 * e + k) with node := some n }) x) x

/-- A tile's part of the start: CCNT is 8 S0, the threads and contexts are those of the image (R49, R50, R187). -/
def startTile (o : Nat × Nat) (i : Image) (param : Word) (m : Bool) (s0 : Nat) (s : State) (t : Nat) : State :=
  let rel := relTile o t
  s.modTile t (fun x => bindStreams i { x with
    ccntOff := BitVec.ofNat 64 (8 * s0) - BitVec.ofNat 64 s.cycle
    core := { x.core with threads := Vector.ofFn (fun (k : Fin 8) => threadAtStart i rel param m k.val) }
    stopped := false, active := true })

/-- The launch-started regions and matrix tables of a launch start in this cycle (R49). -/
def startUnits (s : State) (o : Nat × Nat) (i : Image) : State :=
  let s := (numbered i.regions).foldl (fun s (n, r) =>
    if r.atLaunch && (s.region (regionKey o n)).loaded then beginRegion s (regionKey o n) (BitVec.ofNat 32 r.trip)
    else s) s
  if i.matrix.isNone then s else (imageTiles o i).foldl (fun s t => s.modMatrix t (fun m => beginMatrix m 0)) s

/-- MCK of the first cycle of the present slot. -/
def slotMck (s : State) : Nat := s.cycle / 8 * 6

/-- Index of the idle frame's DFRAME in a program (R247). -/
def idleIndex (ws : List (BitVec 64)) : Option Nat := ws.findIdx? (fun w => dOp w == 0x0D && w.getLsbD 0)

/-- A program starts: its words are those of the image, its first word is timed from S0, and the refresh interval
restarts (R238, R244, R248). -/
def startChannel (s : State) (d : Nat × DprogImage) : State :=
  let c := s.chan d.1
  s.setChan d.1 { c with
    words := d.2.words, index := 0, start := slotMck s, last := slotMck s, idle := idleIndex d.2.words
    interval := slotMck s, intervalHeld := false, held := false }

/-- The transmitters of a launch step their timetables from S0 with PHI (R111). -/
def startTransmitters (s : State) (pid lnum s0 : Nat) : State :=
  { s with txs := s.txs.map (fun (n, t) =>
      (n, if t.launch = some (pid, lnum) then { t with s0 := s0, held := false } else t)) }

/-- The next sweep of a launch (R52), and its next snapshot cut, counted in slots from its S0 (R374). -/
def startTimers (s : State) (pid lnum : Nat) : State :=
  let s := s.after Config.sweepCycles (.sweep pid lnum)
  let n := (s.part pid).snapi
  if n = 0 then s
  else
    let l := s.launch pid lnum
    (s.setLaunch pid lnum { l with snapAt := l.s0 + 2 ^ (n + 10) }).after (8 * 2 ^ (n + 10)) (.snapshotInterval pid lnum)

/-- A restored thread waits on: its wake is due at once, at its limit, or when another unit ends; a YIELD is over. -/
def rearmThread (s : State) (t n : Nat) : State :=
  let h := s.thread t n
  match h.st with
  | .waiting .yield => runThread s t n
  | .waiting .unit =>
    if s.regions.any (fun (_, r) => match r.rewrite with | some (_, _, _, x, y) => x == t && y == n | none => false) then s
    else runThread s t n
  | .parked .park => s
  | .parked (.waitt limit) => s.after (limit.toNat - (s.ccnt t).toNat) (.waittExpiry t n)
  | .parked _ => s.event (.threadWake t n)
  | _ => s

/-- A restored context goes on with its next element, or its completion (R373). -/
def rearmStream (s : State) (t n : Nat) : State :=
  if ((s.tile t).stream n).st = 2 then s.after 1 (.streamElement t n) else s

/-- What a restored tile had under way goes on, and its saved tokens are delivered before any new one (R371, R373). -/
def rearmTile (s : State) (t : Nat) : State :=
  let x := s.tile t
  let s := s.setTile t { x with edge := [] }
  let s := x.edge.foldl acceptFlit s
  let s := (List.range 8).foldl (fun s n => rearmThread s t n) s
  let s := (List.range 16).foldl (fun s n => rearmStream s t n) s
  let s := x.mem.chains.foldl (fun s (k, c) => if c.queue.isEmpty then s else s.after 1 (.storeOpPerform t k)) s
  let s := x.bobbin.expanding.foldl (fun s e => s.after 64 (.expansionComplete t e.vc)) s
  let s := x.eng.vxfers.foldl (fun s (k, _) => s.after 1 (.vxferComplete t k)) s
  if x.matrix.go.isSome then s.event (.matrixStart t) else s

/-- Starts and rewrites that wait at a restored region (R255). -/
def rearmRegions (s : State) (pid lnum : Nat) : State :=
  s.regions.foldl (fun s (k, r) =>
    if r.pid = pid ∧ r.lnum = lnum then
      let s := if r.go.isSome then s.event (.regionStart k) else s
      if r.rewrite.isSome then s.event (.phaseRewrite k) else s
    else s) s

/-- The other launches of the cut group of a launch's newest cut that have that cut (R368). -/
def sameCut (s : State) (l : Launch) : List Launch :=
  match l.cuts with
  | [] => []
  | c :: _ => (c.group.map (fun (q, n) => s.launch q n)).filter (fun m => match m.cuts with | d :: _ => d.slot == c.slot | [] => false)

/-- A launch of the cut group is held, or not ready to start again in this slot: the group starts with one S0 (R368, R415). -/
def groupWaits (s : State) (l : Launch) : Bool :=
  (sameCut s l).any (fun m =>
    (m.restoring || (m.phase == .held && m.cause == 0x11)) && !(m.phase == .starting && decide (m.s0 ≤ s.gslot)))

/-- The greatest CCNT that the cut group saved (R187). -/
def groupCcnt (s : State) (l : Launch) : Nat :=
  (l :: sameCut s l).foldl (fun m k => match k.cuts with
    | [] => m
    | c :: _ => c.tiles.foldl (fun m (_, x) => max m x.ccnt.toNat) m) 0

/-- The elements of a restored launch go on from their cut: the reloaded state is released, and CCNT never falls below a
value that the cut saved (R187, R373). -/
def resumeLaunch (s : State) (pid lnum s0 : Nat) : State :=
  let ts := launchTiles s pid lnum
  let ccnt := max (8 * s0) ((groupCcnt s (s.launch pid lnum) + 8) / 8 * 8)
  let s := ts.foldl (fun s t => goTile (s.modTile t (fun x => { x with
    ccntOff := BitVec.ofNat 64 ccnt - BitVec.ofNat 64 s.cycle, active := true })) t) s
  let s := holdUnits s pid lnum false
  let s := (drivenChannels s pid lnum).foldl (fun s n =>
    let c := s.chan n
    s.setChan n { c with
      start := slotMck s, last := slotMck s, interval := slotMck s, intervalHeld := false, held := false }) s
  rearmRegions (ts.foldl rearmTile (startTransmitters s pid lnum s0)) pid lnum

/-- LAUNCH_START (R49, R50, R343): the first cycle of S0. A restored launch starts with its whole cut group (R368, R415). -/
def execLaunchStart (pid lnum : Nat) (s : State) : Out :=
  let l := s.launch pid lnum
  if l.phase ≠ .starting ∨ s.gslot < l.s0 then .next s
  else
    match imageOf s pid lnum with
    | none => .next s
    | some i =>
      let b := tabGet Binding.reset (s.part pid).bindings l.bind
      let o := originOf (s.part pid) b
      let live := { l with phase := .live, elastic := (s.part pid).elastic, cause := 0, lastSweep := none }
      if l.restoring then
        if groupWaits s l then .next (s.setLaunch pid lnum { l with s0 := s.gslot + 1 })
        else
        let s := s.setLaunch pid lnum { live with restoring := false }
        let s := stepEyelets s pid i l.s0 (fun e => (s.eyelet e).phi)
        .next (startTimers (resumeLaunch s pid lnum l.s0) pid lnum)
      else
        let param := BitVec.ofNat 64 (b.pvbase + l.version * b.psize)
        let s := s.setLaunch pid lnum { live with
          arcs := [], barriers := Vector.replicate 16 Barrier.reset, cuts := [], cutting := none, nextCut := 1 }
        let s := (imageTiles o i).foldl (startTile o i param l.mattr l.s0) s
        let s := (drivenBy (s.part pid) i).foldl startChannel s
        let s := stepEyelets (startTransmitters (startUnits s o i) pid lnum l.s0) pid i l.s0 (fun _ => 0)
        .next (startTimers s pid lnum)

end Sys2Proof.Machine
end

