-- ==== Sys2Proof/Machine/Ending.lean ====
section
/-! DEFINITION. Sweeps, stall and end of a launch, QREL, forced reconfiguration, and power (spec 02 R51 to R54, 15 R345 to
R348, 17 R365, R366, R378, 14 R328, 19 R410, R411). -/

namespace Sys2Proof.Machine

/-! ### Nodes and sinks (R51) -/

/-- Every thread of a mask is Halted on every tile of a launch. -/
def threadsEnded (s : State) (ts : List Nat) (mask : BitVec 8) : Bool :=
  ts.all (fun t => (List.range 8).all (fun k => !mask.getLsbD k || (s.thread t k).st == .halted))

/-- A node of a launch has ended (R51). -/
def nodeEnded (s : State) (pid lnum : Nat) (i : Image) (n : Nat) : Bool :=
  let b := tabGet Binding.reset (s.part pid).bindings (s.launch pid lnum).bind
  let o := originOf (s.part pid) b
  let ts := imageTiles o i
  match i.nodes[n]? with
  | none => true
  | some (.seq mask) => threadsEnded s ts mask
  | some (.fabric r) => (s.region (regionKey o r)).st == 3
  | some .matrix => ts.all (fun t => (s.tile t).matrix.st == 4)
  | some (.stream _) => ts.all (fun t => (s.tile t).eng.streams.toList.all (fun c => c.node != some n || c.st == 3))
  | some (.dprog p) =>
    match (drivenBy (s.part pid) i)[p]? with
    | none => true
    | some (ch, _) => (s.chan ch).ended
  | some (.coll c) => ts.all (fun t => let k := tabGet (0, 0) (s.tile t).core.calls c; k.1 == k.2)

/-- The writes of a program's threads are released (R102). -/
def writesReleased (s : State) (ts : List Nat) (mask : BitVec 8) : Bool :=
  ts.all (fun t => (List.range 8).all (fun k =>
    let h := s.thread t k
    !mask.getLsbD k || (h.relaxed.isEmpty && h.writesOut == 0 && h.globalOut == 0)))

/-- The producer of a memory-ordering arc has ended with its writes released (R46). -/
def producerDone (s : State) (pid lnum : Nat) (i : Image) (n : Nat) : Bool :=
  nodeEnded s pid lnum i n &&
    (match i.nodes[n]? with
     | some (.seq m) => writesReleased s (launchTiles s pid lnum) m
     | some (.coll c) => (launchTiles s pid lnum).any (fun t => (tabGet (0, 0) (s.tile t).core.calls c).1 != 0)
     | some (.fabric r) =>
       (launchTiles s pid lnum).all (fun t => (s.tile t).mem.chains.all (fun (_, c) => c.queue.all (fun o => (s.region o.region).number != r)))
     | _ => true)

/-- The completion token of a memory-ordering arc is sent and received, once, when its producer is done (R46). -/
def orderTokens (s : State) (pid lnum : Nat) : State :=
  match imageOf s pid lnum with
  | none => s
  | some i =>
    ((launchArcs s pid lnum).filter (fun (_, a) => a.memoryOrder)).foldl (fun s (n, a) =>
      let l := s.launch pid lnum
      let x := tabGet ArcState.reset l.arcs n
      if x.received = 0 ∧ producerDone s pid lnum i a.fromNode then
        s.setLaunch pid lnum { l with arcs := tabPut l.arcs n { x with sent := 1, received := 1 } }
      else s) s

/-- A sink of these kinds must have ended to report completion (R51). -/
def mustEnd (i : Image) (n : Nat) : Bool :=
  match i.nodes[n]? with
  | some (.seq _) | some .matrix | some (.dprog _) => true
  | _ => false

/-- Nodes with no outgoing token arc. -/
def sinksOf (i : Image) : List Nat :=
  (List.range i.nodes.length).filter (fun n => !i.arcs.any (fun a => !a.memoryOrder && a.fromNode == n))

/-- A sink reports completion (R51). -/
def sinkDone (s : State) (pid lnum : Nat) (i : Image) (n : Nat) : Bool :=
  let arcs := (s.launch pid lnum).arcs
  (numbered i.arcs).all (fun (k, a) =>
    a.memoryOrder || a.toNode != n ||
      (match a.total with
       | some t => decide (t ≤ (tabGet ArcState.reset arcs k).received)
       | none => nodeEnded s pid lnum i n)) &&
    (!mustEnd i n || nodeEnded s pid lnum i n)

/-- The number of sinks that have not reported completion. -/
def sinksMissing (s : State) (pid lnum : Nat) (i : Image) : Nat :=
  ((sinksOf i).filter (fun n => !sinkDone s pid lnum i n)).length

/-! ### Idle and busy bits (R52) -/

/-- A thread that leaves its tile idle: Halted, or Parked other than by WAITT or WAITE. -/
def threadIdle (h : Thread) : Bool :=
  match h.st with
  | .halted => true
  | .parked (.waitt _) | .parked (.waite _) => false
  | .parked _ => true
  | .running | .waiting _ => false

/-- Regions of a launch with a PE on a tile. -/
def tileRegions (s : State) (tile : Nat) : List Region :=
  (s.regions.map (·.2)).filter (fun r => (regionPes r).any (fun k => peTile k == tile))

/-- The tile's idle bit; `active` notes whether anything happened in the window. -/
def tileIdle (s : State) (tile : Nat) : Bool :=
  let x := s.tile tile
  !x.active && x.core.threads.toList.all threadIdle &&
    (tileRegions s tile).all (fun r => r.st != 1 && r.go.isNone) &&
    x.mem.chains.all (fun (_, c) => c.queue.isEmpty) &&
    (List.range 64).all (fun n => (s.pe (tilePe tile n)).awaited == 0) &&
    x.mem.predFlits.isEmpty && x.matrix.st != 2 && x.matrix.go.isNone && x.eng.vxfers.isEmpty && x.eng.pending.isEmpty && x.bobbin.expanding.isEmpty

/-- A busy bit of an agent outside the tiles. -/
def launchBusy (s : State) (pid lnum : Nat) : Bool :=
  s.chans.any (fun (_, c) => (c.launch == some (pid, lnum) && !c.ended) ||
      (c.serving.contains (pid, lnum) && decide (s.mck < c.windowAt))) ||
    s.txs.any (fun (_, t) => t.launch == some (pid, lnum) &&
      t.sends.any (fun (_, x) => !x.queue.isEmpty || !x.refused.isEmpty)) ||
    (s.part pid).eyelets.any (fun e => !(s.eyelet e).tx.heldFlits.isEmpty || !(s.eyelet e).rx.copies.isEmpty)

/-- What a sweep gathers; a window in which a sum changed saw a token (R52). -/
def sweepOf (s : State) (pid lnum : Nat) : Sweep :=
  let ts := launchTiles s pid lnum
  let sent := sentSum s ts
  let received := receivedSum s ts
  let still := match (s.launch pid lnum).lastSweep with
    | none => sent == 0 && received == 0
    | some w => w.sent == sent && w.received == received
  ⟨still && ts.all (tileIdle s) && !launchBusy s pid lnum && sent == received, sent, received⟩

/-- Two successive sweeps agree (R52). -/
def sweepsAgree (last : Option Sweep) (w : Sweep) : Bool :=
  match last with
  | none => false
  | some v => v.quiescent && w.quiescent && v.sent == w.sent && v.received == w.received

/-! ### The stall trap (R54, Table 02-7) -/

/-- A stall FIFO entry. -/
structure Fifo where
  tile : Nat
  arc : Nat
  vc : Nat
  kind : Nat
  depth : Nat
  held : Nat
  waiter : Nat
  slot : Nat
  deriving DecidableEq, Repr

def fifoData (f : Fifo) : List Byte :=
  natBytes 2 f.tile ++ natBytes 2 f.arc ++ natBytes 1 f.vc ++ natBytes 1 f.kind ++ natBytes 2 f.depth ++ natBytes 2 f.held ++
    natBytes 2 f.waiter ++ natBytes 4 f.slot

/-- The non-empty arcs that enter a region at a PE of a tile: a buffered arc, or a latch between neighbours (R306). -/
def arcFifos (s : State) (pid lnum tile : Nat) : List Fifo :=
  (launchArcs s pid lnum).filterMap (fun (n, a) =>
    match a.toPort with
    | none => none
    | some (rel, _) =>
      match s.regions.find? (fun (_, r) => r.pid == pid && r.lnum == lnum && inRegion r (fabricAt r rel)) with
      | none => none
      | some (_, r) =>
        let held := arcHeld (tabGet ArcState.reset (s.launch pid lnum).arcs n)
        if peTile (fabricAt r rel) ≠ tile ∨ held = 0 then none
        else some ⟨tile, n, a.vc, if adjacentArc a || a.fromPort.isNone then 1 else 0, a.depth, held,
          if r.st = 3 then 0xFFFF else a.toNode, r.slot.toNat⟩)

/-- The first arc of a launch that ends at no port, at a consumer that passes a test: what a scatter-reduce window or a receive
queue of a tile holds for (R54; which arc it is, is DEDUCED, log 12). -/
def arcOfQueue (s : State) (pid lnum : Nat) (test : ArcImage → NodeImage → Bool) : Option (Nat × ArcImage) :=
  match imageOf s pid lnum with
  | none => none
  | some i => (launchArcs s pid lnum).find? (fun (_, a) =>
      !a.memoryOrder && a.toPort.isNone && (match i.nodes[a.toNode]? with | some k => test a k | none => false))

/-- A FIFO of a tile that is no arc's own buffer: its arc and consumer where it has one (R54). -/
def fifoOf (s : State) (pid lnum tile kind depth held vc : Nat) (a : Option (Nat × ArcImage)) : Fifo :=
  match a with
  | none => ⟨tile, 0xFFFF, vc, kind, depth, held, 0xFFFF, 0⟩
  | some (n, a) =>
    let ended := match imageOf s pid lnum with | some i => nodeEnded s pid lnum i a.toNode | none => true
    ⟨tile, n, a.vc, kind, depth, held, if ended then 0xFFFF else a.toNode, 0⟩

/-- A sequencer program that reads a receive queue: T7 reads q0, the others q1 (R35, R208). -/
def readsQueue (q : Bool) (k : NodeImage) : Bool :=
  match k with
  | .seq mask => if q then mask &&& 0x7F != 0 else mask.getLsbD 7
  | .coll _ => !q
  | _ => false

/-- Scatter-reduce windows, receive queues and remote waiter entries of a tile, in increasing arc number; the last have no arc
(R210, R54). -/
def tileFifos (s : State) (pid lnum tile : Nat) : List Fifo :=
  let x := s.tile tile
  let windows := x.mem.units.toList.filterMap (fun u => match u.window with
    | [] => none
    | t :: _ => some (fifoOf s pid lnum tile 2 64 u.window.length t.vc (arcOfQueue s pid lnum (fun a _ => a.vc == t.vc))))
  let queues := [false, true].filterMap (fun q =>
    let n := (recvQueue x q).length
    if n = 0 then none else some (fifoOf s pid lnum tile 3 32 n 0 (arcOfQueue s pid lnum (fun _ k => readsQueue q k))))
  let remote := x.store.waiters.filterMap (fun w => match w.kind with
    | .remote _ vc _ _ => some (w.word, vc)
    | _ => none)
  let words := (remote.map (·.1)).eraseDups
  let entries := words.map (fun w =>
    let l := remote.filter (fun e => e.1 == w)
    Fifo.mk tile 0xFFFF (l.headD (0, 0)).2 4 8 l.length 0xFFFF 0)
  (arcFifos s pid lnum tile ++ windows ++ queues ++ entries).mergeSort (fun a b => decide (a.arc ≤ b.arc))

/-- The stall: one record, one per non-empty FIFO by tile and arc, and the launch stands still (R54). -/
def stallLaunch (s : State) (pid lnum : Nat) (w : Sweep) (missing : Nat) : State :=
  let fifos := ((launchTiles s pid lnum).mergeSort (fun a b => decide (a ≤ b))).flatMap (fun t =>
    tileFifos s pid lnum t)
  let q := launchQueue s pid lnum
  let s := stopLaunch s pid lnum 0x09
  let s := post s pid 0x02 0x09 0 4 0 q lnum
    (natBytes 8 w.sent.toNat ++ natBytes 8 w.received.toNat ++ natBytes 4 missing ++ natBytes 4 fifos.length)
  fifos.foldl (fun s f => post s pid 0x15 0x09 0 4 0 q lnum (fifoData f)) s

/-- A cut of the launch is in progress and its slot has come: sweeps are suspended (R372). -/
def cutRunning (s : State) (l : Launch) : Bool :=
  match l.cutting with
  | none => false
  | some c => decide (c.slot ≤ s.gslot)

/-- SWEEP (R52 to R54). -/
def execSweep (pid lnum : Nat) (s : State) : Out :=
  let l := s.launch pid lnum
  match l.phase with
  | .live =>
    let w := sweepOf s pid lnum
    let ts := launchTiles s pid lnum
    let again (s : State) : State := s.after Config.sweepCycles (.sweep pid lnum)
    if cutRunning s l then .next (again (s.setLaunch pid lnum { l with lastSweep := none }))
    else
      let s := ts.foldl (fun s t => s.modTile t (fun x => closeRates { x with active := false })) s
      let s := s.setLaunch pid lnum { l with lastSweep := some w }
      if !sweepsAgree l.lastSweep w then .next (again s)
      else
        match imageOf s pid lnum with
        | none => .next s
        | some i =>
          let missing := sinksMissing s pid lnum i
          if missing = 0 then .next (s.event (.launchEnd pid lnum)) else .next (again (stallLaunch s pid lnum w missing))
  | .held => .next (s.after Config.sweepCycles (.sweep pid lnum))
  | _ => .next s

/-! ### Halting and releasing a launch's elements -/

/-- A tile that belongs to a launch. -/
def tileOf (s : State) (pid lnum t : Nat) : Bool :=
  match (s.tile t).place with
  | none => false
  | some pl => pl.pid == pid && pl.lnum == lnum

/-- The tiles that a launch occupies now. -/
def occupied (s : State) (pid lnum : Nat) : List Nat := (launchTiles s pid lnum).filter (tileOf s pid lnum)

/-- The tile whose element an event or a turn is for. -/
def workTile (w : Work) : Option Nat :=
  match w with
  | .thread t _ | .matrix t _ | .matrixWork t => some t
  | .event e =>
    match e with
    | .threadWake t _ | .waittExpiry t _ | .storeOpPerform t _ | .predFlitSend t _ _ | .matrixStart t | .mslotAdvance t
    | .matrixResume t | .matrixEntryComplete t _ | .signalWrite t | .matrixRunEnd t | .streamElement t _
    | .streamComplete t _ | .copyComplete t | .vxferComplete t _ | .tensorLineComplete t _ | .blockExpansion t _
    | .expansionComplete t _ | .zwiluFlitReceive t _ _ | .treeNodeCombine t _ | .scatterReduceApply t _
    | .messageDelivery t _ | .remoteWrite t _ | .drainToken t _ | .collectiveCallComplete _ _ t _ _ => some t
    | _ => none
  | _ => none

/-- The region whose element an event or a turn is for. -/
def workRegion (w : Work) : Option Nat :=
  match w with
  | .peOp r _ | .peRoute r _ | .commit r => some r
  | .event (.regionCycle r) | .event (.regionBoundary r) | .event (.regionResume r) | .event (.regionStart r)
  | .event (.phaseRewrite r) | .event (.regionDrainTokens r) => some r
  | _ => none

/-- Whether a piece of work belongs to tiles or to regions of placements there. -/
def workOf (ts : List Nat) (w : Work) : Bool :=
  (match workTile w with | some t => ts.contains t | none => false) ||
    (match workRegion w with | some r => ts.contains (r / 4096) | none => false)

/-- Pending work and mesh flits of a set of tiles are gone. -/
def dropWork (s : State) (ts : List Nat) : State :=
  { s with
    agenda := s.agenda.filter (fun w => !workOf ts w)
    timers := s.timers.filter (fun (_, w) => !workOf ts w)
    travels := s.travels.filter (fun (_, v) => !(ts.contains v.flit.src || ts.contains v.flit.dst)) }

/-- Every thread Halted. -/
def haltThreads (x : Tile) : Tile :=
  { x with core := { x.core with threads := x.core.threads.map (fun h => { h with st := .halted, debug := false }) } }

/-- The regions of a launch have ended. -/
def endRegions (s : State) (pid lnum : Nat) : State :=
  { s with regions := s.regions.map (fun (k, r) =>
      (k, if r.pid = pid ∧ r.lnum = lnum then
            { r with st := if r.st = 0 then 0 else 3, go := none, rewrite := none, held := false, drained := true, lnum := 0 }
          else r)) }

/-- A channel after its launch: the keeper takes it at the end of the idle run in progress, or at once where no word of a program
has issued since the keeper stopped for this launch (R248). -/
def freeChannel (c : Chan) (now : Nat) : Chan :=
  if c.intervalHeld then { takeChannel c with launch := none, interval := now } else { c with launch := none, held := false }

/-- The channels and transmitters of a launch are free (R248). -/
def freeChannels (s : State) (pid lnum : Nat) : State :=
  let stopped := if (s.launch pid lnum).phase = .configuring then drivenChannels s pid lnum else []
  { s with
    chans := s.chans.map (fun (k, c) =>
      (k, if c.launch = some (pid, lnum) ∨ (c.launch.isNone ∧ c.intervalHeld ∧ stopped.contains k) then freeChannel c s.mck else c))
    txs := s.txs.map (fun (k, t) => (k, if t.launch = some (pid, lnum) then Transmitter.reset else t)) }

/-- A walk of R88 wakes no thread of the tiles any more. -/
def forgetWalks (s : State) (pid : Nat) (ts : List Nat) : State :=
  let p := s.part pid
  s.setPart pid { p with
    genWalks := p.genWalks.map (fun (tid, tile, t) => (tid, if ts.contains tile then Config.numTiles else tile, t)) }

/-- The tiles of a launch are released as after drain (R103, R347). -/
def releaseTiles (s : State) (pid lnum : Nat) : State :=
  let ts := occupied s pid lnum
  let s := forgetWalks s pid ts
  let s := ts.foldl (fun s t => s.modTile t (fun x => haltThreads { x with
    place := none, stopped := false, active := false, bobbin := Bobbin.reset, matrix := { x.matrix with held := false, go := none } })) s
  freeChannels (endRegions s pid lnum) pid lnum

/-! ### The end of a launch (R345) -/

/-- One drain token follows the last data token from a tile to a tile. -/
def sendDrain (s : State) (n vc src dst : Nat) : State :=
  let s := s.modTile dst (fun x => { x with drains := setInsert x.drains n })
  if src = dst then s.event (.drainToken dst n) else sendFlit s src dst vc 255 (.drain n)

/-- Drain tokens follow the last data tokens down every channel that has not sent its own (R103). A channel without a port ends at
each tile of the placement that runs its consumer; one without a port at its producer starts at the tile where it ends
(DEDUCED, log 24). An M latch has no drain token (R298). -/
def sendDrains (s : State) (pid lnum : Nat) : State :=
  let l := s.launch pid lnum
  let p := s.part pid
  let o := originOf p (tabGet Binding.reset p.bindings l.bind)
  (launchArcs s pid lnum).foldl (fun s (n, a) =>
    if (tabGet ArcState.reset l.arcs n).drained ∨ a.memoryOrder then s
    else
      let ends := match a.toPort with
        | some (_, .m) => []
        | some (t, _) => [peTile (placedPe o t)]
        | none => occupied s pid lnum
      ends.foldl (fun s dst =>
        sendDrain s n a.vc (match a.fromPort with | some (f, _) => peTile (placedPe o f) | none => dst) dst) s) s

/-- An arc that ends at an M latch has drained: its producer has ended, and the last value is consumed (R298). -/
def latchDrained (s : State) (pid lnum : Nat) (i : Image) (a : ArcImage) : Bool :=
  match a.toPort with
  | some (t, .m) =>
    let k := placedPe (originOf (s.part pid) (tabGet Binding.reset (s.part pid).bindings (s.launch pid lnum).bind)) t
    nodeEnded s pid lnum i a.fromNode && !(s.pe k).m.full
  | _ => true

/-- Every input channel of a launch's tiles has passed its drain token (R103, R298). -/
def launchDrained (s : State) (pid lnum : Nat) : Bool :=
  (occupied s pid lnum).all (fun t => (s.tile t).drains.isEmpty) &&
    (match imageOf s pid lnum with
     | none => true
     | some i => i.arcs.all (fun a => a.memoryOrder || latchDrained s pid lnum i a))

/-- LAUNCH_END: the launch has been declared ended (R53); when every tile has passed its drain tokens, SIG is applied, the
end record is posted, the version holds and the tiles are released, and the queue may dispatch again (R345). -/
def execLaunchEnd (pid lnum : Nat) (s : State) : Out :=
  let l := s.launch pid lnum
  match l.phase with
  | .live =>
    .next ((sendDrains (s.setLaunch pid lnum { l with phase := .ended }) pid lnum).event (.launchEnd pid lnum))
  | .ended =>
    if !launchDrained s pid lnum then .next (s.after 1 (.launchEnd pid lnum))
    else
      let s := if l.flags.getLsbD 2 then signalEvent s pid l.sctr.toNat else s
      let s := endRecord s pid lnum 0 (sentSum s (launchTiles s pid lnum))
      .next (leaveQueue (releaseTiles s pid lnum) pid lnum)
  | _ => .next s

/-! ### QREL (R347, R365, R366, R378) -/

/-- Synchronised latches of a PE that are full, and V replies not consumed. -/
def pePending (s : State) (k : Nat) : Nat :=
  let x := s.pe k
  match x.region with
  | none => 0
  | some g =>
    let r := s.region g
    [Port.n, .e, .s, .w, .m].foldl (fun n p => if synchronised r k p ∧ (x.latch p).full then n + 1 else n) x.replies.length

/-- Operands and tokens that a forced reconfiguration discards on a tile (R378). -/
def tilePending (s : State) (t : Nat) : Nat :=
  let x := s.tile t
  (List.range 64).foldl (fun n k => n + pePending s (tilePe t k)) 0 +
    x.mem.units.toList.foldl (fun n u => n + u.window.length) 0 +
    (recvQueue x false).length + (recvQueue x true).length + x.core.heldMsgs.length +
    (sendQueue x 2).length + (sendQueue x 3).length + x.edge.length +
    ((waitingFlits s t).filter (fun f => isToken f.body)).length + x.store.held.length +
    x.bobbin.staging.foldl (fun n (_, l) => n + l.length) 0 + x.core.gathered.foldl (fun n (_, l) => n + l.length) 0

/-- Tokens of a set of tiles that are on their way: in the mesh, a message not twice while it stands in its send queue, and
to latches; and flits in the send queues of transmitters (R378). -/
def transitPending (s : State) (pid lnum : Nat) (ts : List Nat) : Nat :=
  (s.travels.filter (fun (_, v) => ts.contains v.flit.dst && isToken v.flit.body &&
    !(v.tile == v.flit.src && v.input == 0 && (match v.flit.body with | .message _ _ => true | _ => false)))).length +
  ((s.agenda ++ s.timers.map (·.2)).filter (fun w => match w with
    | .event (.latchArrival k _ _) => ts.contains (peTile k)
    | _ => false)).length +
  s.txs.foldl (fun n (_, t) => if t.launch = some (pid, lnum) then
    t.sends.foldl (fun n (_, g) => n + g.queue.length) n else n) 0

/-- Tokens in the arc buffers of a launch. -/
def arcsPending (l : Launch) : Nat := l.arcs.foldl (fun n (_, a) => n + a.buffer.length) 0

/-- The unperformed operations and the configuration of a tile are discarded (R347). -/
def discardTile (x : Tile) : Tile :=
  { x with
    configured := none, edge := [], drains := []
    store := { x.store with waiters := [], held := [] }
    core := { x.core with
      recv := Vector.replicate 2 [], send := Vector.replicate 2 [], heldMsgs := [], gathered := [], runs := [], pieces := [] }
    eng := { x.eng with pending := [], promises := [], copies := [], vxfers := [], lines := []
                        streams := x.eng.streams.map (fun c => { c with st := if c.st = 2 then 3 else c.st }) }
    mem := { x.mem with chains := [], predFlits := [], units := Vector.replicate 8 ScatterUnit.reset }
    matrix := { x.matrix with st := if mxRunning x.matrix then 4 else x.matrix.st, signals := [], progress := [], due := [] }
    bobbin := Bobbin.reset }

/-- Everything of a launch is discarded, its tiles are released, and it ends with STATUS 1 (R347). -/
def discardLaunch (s : State) (pid lnum : Nat) : State :=
  let ts := occupied s pid lnum
  let sent := sentSum s ts
  let s := dropWork s ts
  let s := ts.foldl (fun s t => s.modTile t discardTile) s
  let s := releaseTiles s pid lnum
  leaveQueue (endRecord s pid lnum 1 sent) pid lnum

/-- A live or held launch is aborted: the count of R378, everything discarded, the tiles released, STATUS 1 (R347). -/
def abortLaunch (s : State) (pid lnum : Nat) : State :=
  let ts := occupied s pid lnum
  let l := s.launch pid lnum
  let sent := sentSum s ts
  let received := receivedSum s ts
  let n := ts.foldl (fun n t => n + tilePending s t) (arcsPending l + transitPending s pid lnum ts)
  discardLaunch (post s pid 0x13 0 0 4 0 l.queue lnum (natBytes 8 sent.toNat ++ natBytes 8 received.toNat ++ natBytes 8 n)) pid lnum

/-- QREL_ABORT (R347): a live or held head is aborted; one that has not been dispatched is removed. -/
def execQrelAbort (pid q : Nat) (s : State) : Out :=
  match ((s.part pid).queue q).packets with
  | [] => .next s
  | n :: _ =>
    if (s.launch pid n).phase = .queued then .next (leaveQueue (endRecord s pid n 1 0) pid n)
    else .next (abortLaunch s pid n)

/-- Fault counts of a launch are cleared, threads halted at a fence go on from it, and held chain ops are tried again
(R277, R366). -/
def clearFaults (s : State) (pid lnum : Nat) : State :=
  let ts := occupied s pid lnum
  let s := { s with regions := s.regions.map (fun (k, r) =>
    (k, if r.pid = pid ∧ r.lnum = lnum then { r with faults := 0 } else r)) }
  ts.foldl (fun s t =>
    let x := s.tile t
    let faulted := (x.mem.chains.filter (fun (_, c) => c.faulted)).map (·.1)
    let s := s.setTile t { x with
      core := { x.core with threads := x.core.threads.map (fun h =>
        { h with faults := 0, st := if h.st = .waiting .fault then .running else h.st }) }
      mem := { x.mem with chains := x.mem.chains.map (fun (k, c) => (k, { c with faulted := false })) } }
    faulted.foldl (fun s k => s.event (.storeOpPerform t k)) s) s

/-- A stopped launch goes on from where it stopped; its next sweep compares its sums with those of the stop, so that a
deadlock that persists stalls again within two sweeps (R54, R347). -/
def releaseLaunch (s : State) (pid lnum : Nat) : State :=
  let l := s.launch pid lnum
  let ts := occupied s pid lnum
  let s := ts.foldl (fun s t => goTile (s.modTile t (fun x => { x with active := false })) t) s
  let s := holdUnits (clearFaults s pid lnum) pid lnum false
  let s := s.setLaunch pid lnum { l with
    phase := .live, cause := 0, lastSweep := some ⟨false, sentSum s ts, receivedSum s ts⟩ }
  (s.modQueue pid l.queue (fun x => { x with held := false })).event (.dispatch pid)

/-- QREL_RESUME: no effect on a launch held for cause 0x08 or 0x0E; one that was pre-empted is restored once its tiles are
free; any other goes on (R347, R365, R373). -/
def execQrelResume (pid q : Nat) (s : State) : Out :=
  match ((s.part pid).queue q).packets with
  | [] => .next s
  | n :: _ =>
    let l := s.launch pid n
    if l.phase ≠ .held ∨ l.cause = 0x08 ∨ l.cause = 0x0E then .next s
    else if l.cause = 0x11 then
      let s := s.setLaunch pid n { l with restoring := true }
      .next ((s.modQueue pid q (fun x => { x with held := false })).event (.dispatch pid))
    else .next (releaseLaunch s pid n)

/-! ### Power (R328, R410, R411) -/

/-- DATA of a power-limit record: ALLOC, the measured mean and the window's first slot (R328). -/
def powerData (alloc mean slot : Nat) : List Byte := natBytes 8 alloc ++ natBytes 8 mean ++ natBytes 8 slot

/-- Live launches of a partition in exact mode. -/
def exactLaunches (p : Partition) : List Nat :=
  (p.launches.filter (fun (_, l) => l.phase == .live && !l.elastic)).map (·.1)

/-- The power-limit stop of every live exact launch of a partition (R328). -/
def powerStop (s : State) (pid alloc mean slot : Nat) : State :=
  (exactLaunches (s.part pid)).foldl (fun s n =>
    stopLaunch (post s pid 0x0C 0x10 0 6 0 (launchQueue s pid n) n (powerData alloc mean slot)) pid n 0x10) s

/-- POWER_WINDOW: the end of a window of 4,096 slots; a new ALLOC takes effect at this boundary (R328, R411). -/
def execPowerWindow (pid : Nat) (s : State) : Out :=
  let p := s.part pid
  let mean := Config.windowPower pid p.windows
  let start := p.windowStart
  let s := s.setPart pid { p with
    alloc := p.allocNext, lastPower := mean, windowStart := s.gslot, windows := p.windows + 1 }
  .next (if p.allocNext < mean then powerStop s pid p.allocNext mean start else s)

/-- TEMP exceeds 105 °C, in units of 0.25 °C. -/
def tooHot (c : Control) : Bool := decide (420 < c.temp.toInt)

/-- OPERATING_POINT_STEP (R410): in elastic mode the operating point rises by a step while the partition's mean exceeds ALLOC
or the tile is too hot, and falls by one after a whole window without either; in exact mode a tile that is too hot stops
the partition's live launches. -/
def execOperatingPointStep (tile : Nat) (s : State) : Out :=
  match (s.tile tile).place with
  | none => .next s
  | some pl =>
    let p := s.part pl.pid
    let c := (s.tile tile).ctl
    let mean := Config.windowPower pl.pid p.windows
    let put (c : Control) : State := s.modTile tile (fun x => { x with ctl := c })
    if (s.launch pl.pid pl.lnum).elastic = false then
      .next (if tooHot c && (s.launch pl.pid pl.lnum).phase == .live then powerStop s pl.pid p.alloc mean p.windowStart else s)
    else if p.alloc < mean ∨ tooHot c then .next (put { c with opnt := if c.opnt = 3 then 3 else c.opnt + 1, clear := false })
    else if s.gslot = p.windowStart then
      .next (put { c with opnt := if c.clear && c.opnt != 0 then c.opnt - 1 else c.opnt, clear := true })
    else .next s

end Sys2Proof.Machine
end

