-- ==== Sys2Proof/Machine/Cut.lean ====
section
/-! DEFINITION. Picot cuts, snapshots, restore and rollback, scrubbing, background bus tests and retirement (spec 17 R368
to R377, R379, R380, R383, 14 R321, 01 R18, R19, 10 R283, 11 R300, 08 R199). -/

namespace Sys2Proof.Machine

/-! ### Starting a cut (R368) -/

/-- K: the first multiple of 64 at least 512 slots after the notice. -/
def cutSlotAfter (now : Nat) : Nat := (now + 512 + 63) / 64 * 64

/-- A cut before its slot. -/
def Cut.begun (number slot : Nat) (kind : CutKind) (group : List (Nat × Nat)) : Cut where
  number := number
  slot := slot
  kind := kind
  group := group
  elements := []
  picots := []
  complete := false
  tiles := []
  regions := []
  pes := []
  txs := []
  chans := []
  nodes := []
  triples := []
  barriers := Vector.replicate 16 Barrier.reset
  filters := []
  arcs := []
  calls := []
  undo := []
  full := false

/-- The edge entries of a launch's image (R118, R404). -/
def edgesOf (s : State) (e : Nat × Nat) : List (Nat × Nat × Nat) := match imageOf s e.1 e.2 with | none => [] | some i => imageLinks i

/-- An edge of a launch leads back to this module, under a tag of the other launch: they share a collective binding. -/
def sharesEdge (s : State) (a b : Nat × Nat) : Bool :=
  (edgesOf s a).any (fun (_, m, w) => m == s.number && (edgesOf s b).any (fun e => e.1 == w))

/-- The launches of this module that the notice of a launch's cut reaches besides it (R368). Those of other modules are out of
scope (log 34). -/
def cutGroup (s : State) (pid lnum : Nat) : List (Nat × Nat) :=
  s.parts.flatMap (fun (q, p) => ((liveLaunches p).map (fun n => (q, n))).filter (fun e =>
    e != (pid, lnum) && (sharesEdge s (pid, lnum) e || sharesEdge s e (pid, lnum))))

/-- A cut of one launch begins for a slot; one that is in progress stands (R321). -/
def beginCut (s : State) (pid lnum : Nat) (kind : CutKind) (k : Nat) (group : List (Nat × Nat)) : State :=
  let l := s.launch pid lnum
  if l.cutting.isSome then s
  else
    (s.setLaunch pid lnum { l with cutting := some (Cut.begun l.nextCut k kind group), nextCut := l.nextCut + 1 }).after
      (8 * (k - s.gslot)) (.cutSlot pid lnum)

/-- The eyelets by which launches reach other modules under the tags of their edges (R118). -/
def edgesOut (s : State) (g : List (Nat × Nat)) : List Nat :=
  (g.flatMap (fun e => ((edgesOf s e).filter (fun (_, m, _) => m != s.number)).map (fun (v, _, _) =>
    (edgeEntry (s.part e.1) v).toNat % 512))).eraseDups

/-- A cut of a launch begins, and with it that of its whole cut group; the notice of its slot goes to the modules that share a
collective binding with them; one that is in progress stands (R321, R368). -/
def startCut (s : State) (pid lnum : Nat) (kind : CutKind) : State :=
  if (s.launch pid lnum).cutting.isSome then s
  else
    let g := (pid, lnum) :: cutGroup s pid lnum
    let k := cutSlotAfter s.gslot
    let t := g.foldl (fun t e => beginCut t e.1 e.2 kind k (g.erase e)) s
    (edgesOut s g).foldl (fun t e => eyeletQueue t e ⟨4, 0, 0, Config.cutNotice k⟩) t

/-! ### The elements of a launch (R369) -/

/-- Keys of a table's entries that meet a condition. -/
def keysWhere {α : Type} (t : Tab α) (f : Nat → α → Bool) : List Nat := (t.filter (fun (k, v) => f k v)).map (·.1)

def launchRegions (s : State) (pid lnum : Nat) : List Nat := keysWhere s.regions (fun _ r => r.pid == pid && r.lnum == lnum)
def launchChans (s : State) (pid lnum : Nat) : List Nat := keysWhere s.chans (fun _ c => c.launch == some (pid, lnum))
def launchTxs (s : State) (pid lnum : Nat) : List Nat := keysWhere s.txs (fun _ t => t.launch == some (pid, lnum))

def tileElements (t : Nat) : List Element :=
  (List.range 8).map (Element.thread t) ++ (List.range 16).map (Element.stream t) ++ [Element.matrix t, .router t]

def elementsOf (s : State) (pid lnum : Nat) : List Element :=
  (occupied s pid lnum).flatMap tileElements ++ (launchRegions s pid lnum).map Element.region ++
    (launchChans s pid lnum).map Element.dprog ++ (launchTxs s pid lnum).map Element.transmitter

/-- The tile of an element that injects into the mesh there. -/
def elementTile (e : Element) : Option Nat :=
  match e with
  | .thread t _ | .matrix t | .stream t _ | .router t => some t
  | .region r => some (r / 4096)
  | .dprog _ | .transmitter _ => none

/-! ### Cut points (R369) -/

/-- A thread's cut point: an own cycle in which it would issue; one that is Parked, Halted or stands still is cut at once. -/
def threadReady (s : State) (tile t : Nat) : Bool :=
  match (s.thread tile t).st with
  | .running | .waiting .retry | .waiting .yield => (s.tile tile).stopped || (s.ccnt tile).toNat % 8 == t % 8
  | .waiting .reply => false
  | _ => true

/-- Whether an element is at a cut point. -/
def elementReady (s : State) (e : Element) : Bool :=
  match e with
  | .thread tile t => threadReady s tile t
  | .stream tile n =>
    let c := (s.tile tile).stream n
    !c.asked || (c.fetched.isSome && (s.tile tile).stopped)
  | .dprog n =>
    let c := s.chan n
    c.waiting.isSome || c.ended || c.halted
  | .region _ | .matrix _ | .transmitter _ | .router _ => true

/-! ### Picots -/

/-- The region that has a PE of a placement, by the PE's relative coordinate. -/
def regionAtPort (s : State) (pid lnum rel : Nat) : Option Nat :=
  (keysWhere s.regions (fun _ r => r.pid == pid && r.lnum == lnum && decide (r.x ≤ rel % 512) && decide (rel % 512 < r.x + r.w) &&
    decide (r.y ≤ rel / 512) && decide (rel / 512 < r.y + r.h))).head?

/-- The element at an end of a token arc: the region of a PE's port, the matrix engine of the other end's tile, or a D-program. -/
def endElement (s : State) (pid lnum : Nat) (i : Image) (node : Nat) (port : Option (Nat × Port)) (tile : Nat) : Option Element :=
  match port, i.nodes[node]? with
  | some (rel, _), _ => (regionAtPort s pid lnum rel).map Element.region
  | none, some .matrix => some (.matrix tile)
  | none, some (.dprog p) => ((drivenBy (s.part pid) i)[p]?).map (fun d => .dprog d.1)
  | none, _ => none

/-- The elements at the two ends of a token arc that has a PE's port at an end. -/
def arcEnds (s : State) (pid lnum : Nat) (a : ArcImage) : Option (Element × Element) :=
  match imageOf s pid lnum, a.fromPort.or a.toPort with
  | some i, some (rel, _) =>
    let o := originOf (s.part pid) (tabGet Binding.reset (s.part pid).bindings (s.launch pid lnum).bind)
    let tile := peTile (512 * (8 * o.2 + rel / 512) + 8 * o.1 + rel % 512)
    match endElement s pid lnum i a.fromNode a.fromPort tile, endElement s pid lnum i a.toNode a.toPort tile with
    | some x, some y => if a.memoryOrder then none else some (x, y)
    | _, _ => none
  | _, _ => none

/-- An element's picots go down its output arcs. -/
def sendArcPicots (s : State) (pid lnum : Nat) (e : Element) : State :=
  (launchArcs s pid lnum).foldl (fun s (n, a) =>
    match arcEnds s pid lnum a with
    | some (x, y) => if x = e then s.event (.picotArrival pid lnum y n) else s
    | none => s) s

/-- Inputs on which picots of Zwilu groups arrive, and that of a tile's picots to the home slices; lower numbers are arcs, and
at a router the tiles that mesh paths come from. -/
def zwiluInput (g : Nat) : Nat := 2 ^ 16 + g
def homeInput : Nat := 2 ^ 17

/-- The groups of a transmitter with their drop tiles. -/
def groupsOfTx (s : State) (n : Nat) : List (Nat × List Nat) :=
  (s.groups.filter (fun (k, g) => k / 4096 == (s.tx n).origin && g.wg == n)).map (fun (k, g) => (k % 4096, g.drops))

/-- Once every element of a tile has cut, a picot follows its last token on each mesh path it has used, and its last global
access to every home slice (R369); the latter count as one input, as they are sent and awaited together (log 34). -/
def sendMeshPicots (s : State) (pid lnum t : Nat) (cut : List Element) : State :=
  if (elementsOf s pid lnum).all (fun e => elementTile e != some t || cut.contains e) then
    let ts := occupied s pid lnum
    let s := s.event (.picotArrival pid lnum (.router t) homeInput)
    (keysWhere s.triples (fun k _ => k / 32 / 4096 == t && k / 32 % 4096 != t && ts.contains (k / 32 % 4096))).foldl
      (fun s k => sendFlit s t (k / 32 % 4096) (k % 32) 255 .picot) s
  else s

/-- A picot has reached every input of the elements: arcs, Zwilu groups, home slices (R372). -/
def picotsIn (s : State) (pid lnum : Nat) (c : Cut) : Bool :=
  (launchArcs s pid lnum).all (fun (n, a) =>
    match arcEnds s pid lnum a with
    | some (_, y) => c.picots.contains (y, n)
    | none => true) &&
  (launchTxs s pid lnum).all (fun n => (groupsOfTx s n).all (fun (g, ds) =>
    ds.all (fun d => c.picots.contains (Element.matrix d, zwiluInput g)))) &&
  (occupied s pid lnum).all (fun t => c.picots.contains (Element.router t, homeInput))

/-! ### An element's own cut (R369, R199, R371) -/

/-- A thread parked at a bank's word gives up its waiter entry and issues its instruction again later (R199); its unmarked
and relaxed stores are performed (R371). -/
def cutThread (s : State) (tile t : Nat) : State :=
  let s := drainRelaxed s tile t
  match (s.thread tile t).st with
  | .parked (.word _) =>
    let s := s.modTile tile (fun x => { x with store := { x.store with waiters := x.store.waiters.filter (fun w =>
      match w.kind with | .ldf n _ | .ldfe n _ | .stef n _ => n != t | .remote _ _ _ _ => true) } })
    runThread s tile t
  | _ => s

/-- A transmitter ends the run in progress and stops; a picot goes down each of its groups after its last flit, and the entry
after that run is the one it would use next (R111, R369). -/
def cutTransmitter (s : State) (pid lnum n : Nat) : State :=
  let t := s.tx n
  let last := t.runs.foldl (fun m (_, left, _) => max m left) 0
  let s := t.runs.foldl (fun s (_, left, f) => match f with | none => s | some f => deliverFlit s t.origin f (8 * left + 7)) s
  let s := (groupsOfTx s n).foldl (fun s (g, ds) =>
    ds.foldl (fun s d => s.after (8 * last + 16) (.picotArrival pid lnum (.matrix d) (zwiluInput g))) s) s
  s.setTx n { t with runs := [], held := true, next := s.gslot + 1 + last }

/-- An element stops at its cut; its picots go out. -/
def cutElement (s : State) (pid lnum : Nat) (e : Element) : State :=
  let l := s.launch pid lnum
  match l.cutting with
  | none => s
  | some c =>
    if c.elements.contains e then s
    else
      let cut := c.elements ++ [e]
      let s := s.setLaunch pid lnum { l with cutting := some { c with elements := cut } }
      let s := match e with
        | .thread tile t => cutThread s tile t
        | .region r => s.setRegion r { s.region r with held := true }
        | .matrix tile => s.modTile tile (fun x => { x with matrix := { x.matrix with held := true } })
        | .transmitter n => cutTransmitter s pid lnum n
        | .stream _ _ | .dprog _ | .router _ => s
      let s := sendArcPicots s pid lnum e
      match elementTile e with
      | none => s
      | some t => sendMeshPicots s pid lnum t cut

/-- CUT_SLOT: the first cycle of K, once the slot counter has reached it (R116, R368): D-programs run to their next boundary
word, and every element looks for its cut point. -/
def execCutSlot (pid lnum : Nat) (s : State) : Out :=
  match (s.launch pid lnum).cutting with
  | none => .next s
  | some c =>
    if s.gslot < c.slot then .next (s.after (8 * (c.slot - s.gslot)) (.cutSlot pid lnum))
    else
      let s := { s with chans := s.chans.map (fun (k, x) =>
        (k, if x.launch = some (pid, lnum) then { x with held := true } else x)) }
      .next (((elementsOf s pid lnum).foldl (fun s e => s.event (.elementCut pid lnum e)) s).after 1 (.cutComplete pid lnum))

/-- ELEMENT_CUT: at its first cut point at or after K (R369). -/
def execElementCut (pid lnum : Nat) (e : Element) (s : State) : Out :=
  match (s.launch pid lnum).cutting with
  | none => .next s
  | some c =>
    if c.elements.contains e then .next s
    else if elementReady s e then .next (cutElement s pid lnum e)
    else .next (s.after 1 (.elementCut pid lnum e))

/-- The elements that a picot on an input reaches: those of a tile, where it has come down a mesh path. -/
def reachedBy (e : Element) (input : Nat) : List Element :=
  match e with
  | .router t => if input < Config.numTiles then tileElements t else [e]
  | _ => [e]

/-- PICOT_ARRIVAL: the first picot on any input cuts an element that has not cut (R369). -/
def execPicotArrival (pid lnum : Nat) (e : Element) (input : Nat) (s : State) : Out :=
  let l := s.launch pid lnum
  match l.cutting with
  | none => .next s
  | some c =>
    let s := s.setLaunch pid lnum { l with cutting := some { c with picots := c.picots ++ [(e, input)] } }
    .next ((reachedBy e input).foldl (fun s e => cutElement s pid lnum e) s)

/-! ### When a cut is complete (R371, R372) -/

/-- Work that still delivers something to an element of the launch. -/
def inTransit (s : State) (pid lnum : Nat) (ts : List Nat) (w : Work) : Bool :=
  match w with
  | .thread t _ | .matrix t _ | .matrixWork t => ts.contains t
  | .peOp r _ | .peRoute r _ | .commit r => ts.contains (r / 4096)
  | .units => false
  | .command n => (s.chan n).launch == some (pid, lnum) && !(s.chan n).waiting.isSome && !(s.chan n).ended && !(s.chan n).halted
  | .event e =>
    match e with
    | .treeNodeCombine t _ | .scatterReduceApply t _ | .zwiluFlitReceive t _ _ | .drainToken t _
    | .tensorLineComplete t _ | .copyComplete t | .predFlitSend t _ _ | .streamComplete t _ | .threadWake t _
    | .matrixEntryComplete t _ | .signalWrite t | .matrixRunEnd t => ts.contains t
    | .messageDelivery t f | .remoteWrite t f => ts.contains t && !tripleHeld (s.tile t) f.src f.vc
    | .homeSliceAccess r => ts.contains r.tile
    | .barrierArrival p l _ _ _ _ | .barrierCompletion p l _ _ => p == pid && l == lnum
    | .laneDataEntry n _ _ _ _ => (s.chan n).launch == some (pid, lnum)
    | .latchArrival k _ _ => ts.contains (peTile k)
    | .refusalReceive n _ _ => (s.tx n).launch == some (pid, lnum)
    | .meshReplay a _ _ _ | .meshAcknowledgement a _ _ _ => ts.contains a
    | _ => false

/-- Every access of a thread is performed, and no reply is awaited. -/
def threadSettled (h : Thread) : Bool :=
  h.globalOut == 0 && h.redOut == 0 && h.writebackOut == 0 && h.st != .waiting .reply

/-- Nothing of the launch is in the networks or awaited. -/
def settled (s : State) (pid lnum : Nat) : Bool :=
  let ts := occupied s pid lnum
  !s.agenda.any (inTransit s pid lnum ts) && !s.timers.any (fun (_, w) => inTransit s pid lnum ts w) &&
    !s.travels.any (fun (_, v) => ts.contains v.flit.src || ts.contains v.flit.dst) &&
    ts.all (fun t =>
      let x := s.tile t
      x.core.threads.toList.all threadSettled && x.eng.copies.isEmpty && x.eng.lines.isEmpty) &&
    (launchChans s pid lnum).all (fun n => elementReady s (.dprog n))

/-! ### What a cut saves (Table 17-6) -/

/-- A tile's saved state; deliveries that wait behind a held flit of their triple are tokens at its edge (R97). -/
def saveTile (s : State) (t : Nat) : TileCut :=
  let x := s.tile t
  ⟨x.core, x.store, x.eng, x.mem, x.matrix, x.bobbin, x.sent, x.received, s.ccnt t, waitingFlits s t ++ x.edge⟩

def saveCut (s : State) (pid lnum : Nat) (c : Cut) : Cut :=
  let l := s.launch pid lnum
  let ts := occupied s pid lnum
  { c with
    complete := true
    tiles := ts.foldl (fun m t => tabPut m t (saveTile s t)) []
    regions := s.regions.filter (fun (_, r) => r.pid == pid && r.lnum == lnum)
    pes := s.pes.filter (fun (k, _) => ts.contains (peTile k))
    txs := s.txs.filter (fun (_, t) => t.launch == some (pid, lnum))
    chans := (launchChans s pid lnum).map (fun n => let x := s.chan n; (n, x.waiting.getD x.index, x.loop, x.lanes))
    nodes := s.nodes.filter (fun (k, _) => ts.contains (k / 4096))
    triples := s.triples.filter (fun (k, _) => ts.contains (k / 32 / 4096) && ts.contains (k / 32 % 4096))
    barriers := l.barriers
    filters := (s.part pid).redFilter.filter (fun (k, _) => ts.contains (k / 32 % 4096))
    arcs := l.arcs
    calls := l.calls }

/-! ### The end of a cut (R372, R373, R377) -/

/-- A cut record (Table 17-3). -/
def cutRecord (s : State) (pid lnum sub number slot gone : Nat) : State :=
  post s pid 0x0D 0x11 sub 4 0 (launchQueue s pid lnum) lnum (natBytes 4 number ++ [0, 0, 0, 0] ++ natBytes 8 slot ++ natBytes 8 gone)

/-- A packet of LNCH that waited for the cut takes effect; a launch keeps the number it took (R377). -/
def performPacket (s : State) (pid : Nat) (e : Nat × Nat × List Byte) : State :=
  let (q, n, bs) := e
  match judge (s.part pid) q .controller true with
  | .accepted =>
    match field bs 0 1 with
    | 1 => acceptLaunch s pid q n bs
    | 2 => applyPatch s pid q bs
    | 3 => acceptBind s pid bs
    | _ => freeBinding s pid (field bs 2 2)
  | v => discard s pid q v

/-- EVSIG and LNCH of the interval are performed (R377). -/
def performHeld (s : State) (pid lnum : Nat) : State :=
  let l := s.launch pid lnum
  let s := s.setLaunch pid lnum { l with heldEvents := [], heldPackets := [] }
  l.heldPackets.foldl (fun s e => performPacket s pid e) (l.heldEvents.foldl (fun s c => signalEvent s pid c) s)

/-- Saved tokens of a tile that goes on are delivered. -/
def deliverEdge (s : State) (t : Nat) : State :=
  let x := s.tile t
  x.edge.foldl acceptFlit (s.setTile t { x with edge := [] })

/-- The elements go on where they were cut, if the launch does not stand still for another cause. -/
def goOn (s : State) (pid lnum : Nat) : State :=
  let ts := occupied s pid lnum
  if (s.launch pid lnum).phase = .live then ts.foldl deliverEdge (holdUnits (ts.foldl goTile s) pid lnum false)
  else ts.foldl deliverEdge s

/-- The launch's own timers are gone; a restored launch starts new ones (R52, R374). -/
def dropTimers (s : State) (pid lnum : Nat) : State :=
  let mine (w : Work) : Bool :=
    match w with
    | .event (.sweep p l) | .event (.snapshotInterval p l) => p == pid && l == lnum
    | _ => false
  { s with agenda := s.agenda.filter (fun w => !mine w), timers := s.timers.filter (fun (_, w) => !mine w) }

/-- The launch releases its tiles and stays at the head of its queue, HELD (R373). -/
def holdAfterCut (s : State) (pid lnum : Nat) : State :=
  let s := dropTimers (dropWork s (occupied s pid lnum)) pid lnum
  let s := releaseTiles s pid lnum
  let l := s.launch pid lnum
  let s := s.setLaunch pid lnum { l with phase := .held, cause := 0x11 }
  (s.modQueue pid l.queue (fun x => { x with held := true })).event (.dispatch pid)

/-- What follows the save: a snapshot goes on, a pre-emption and a suspend release the tiles. -/
def afterCut (s : State) (pid lnum : Nat) (kind : CutKind) : State :=
  match kind with
  | .snapshot => goOn s pid lnum
  | .preemption => holdAfterCut s pid lnum
  | .suspend => (holdAfterCut s pid lnum).event .suspendComplete

/-- Every other launch of the cut group has saved its state too, or has no cut in progress (R372). -/
def groupSaved (s : State) (c : Cut) : Bool :=
  c.group.all (fun (q, n) =>
    match (s.launch q n).cutting with
    | none => true
    | some d => d.complete && (s.launch q n).saveOut == 0)

/-- Every element has cut, a picot has arrived on every input, and nothing is awaited (R372). -/
def cutWhole (s : State) (pid lnum : Nat) (c : Cut) : Bool :=
  (elementsOf s pid lnum).all c.elements.contains && picotsIn s pid lnum c && settled s pid lnum

/-- The state of Table 17-6 is taken once the cut is whole, and goes to the save area. -/
def takeCut (s : State) (pid lnum : Nat) (c : Cut) : State :=
  if c.complete || !cutWhole s pid lnum c then s
  else saveTraffic (s.setLaunch pid lnum { s.launch pid lnum with cutting := some (saveCut s pid lnum c) }) pid lnum true

/-- The cut group's cut is complete: the cut is the newest, its record is posted, and what it held is performed (R372, R377). -/
def finishCut (s : State) (pid lnum : Nat) (c : Cut) : State :=
  let s := s.setLaunch pid lnum { s.launch pid lnum with cuts := [c], cutting := none }
  let s := cutRecord s pid lnum (if c.kind = .snapshot then 2 else 1) c.number c.slot 0
  afterCut (performHeld s pid lnum) pid lnum c.kind

/-- CUT_COMPLETE: every element has cut, a picot has arrived on every input, and nothing is awaited; the state is saved, and
once that of the whole cut group is, the record is posted (R371, R372). -/
def execCutComplete (pid lnum : Nat) (s : State) : Out :=
  match (s.launch pid lnum).cutting with
  | none => .next s
  | some c =>
    if s.gslot < c.slot then .next s
    else
      let s := takeCut s pid lnum c
      match (s.launch pid lnum).cutting with
      | none => .next s
      | some c =>
        if c.complete && (s.launch pid lnum).saveOut == 0 && groupSaved s c then .next (finishCut s pid lnum c)
        else .next (s.after 1 (.cutComplete pid lnum))

/-! ### Snapshots (R372, R374) -/

/-- A snapshot cut of one launch is abandoned; its elements go on. -/
def abandonOne (s : State) (pid lnum : Nat) : State :=
  let l := s.launch pid lnum
  match l.cutting with
  | none => s
  | some c =>
    if c.kind ≠ .snapshot then s
    else
      let s := s.setLaunch pid lnum { l with cutting := none }
      let s := cutRecord s pid lnum 4 c.number c.slot (Config.discardedState s.free).toNat
      goOn s.nextFree pid lnum

/-- A snapshot cut in progress is abandoned with its whole cut group (R368, R374). -/
def abandonCut (s : State) (pid lnum : Nat) : State :=
  match (s.launch pid lnum).cutting with
  | none => s
  | some c => c.group.foldl (fun s e => abandonOne s e.1 e.2) (abandonOne s pid lnum)

/-- SNAPSHOT_INTERVAL: 2^(SNAPI + 10) slots of the slot counter have passed (R374). -/
def execSnapshotInterval (pid lnum : Nat) (s : State) : Out :=
  let l := s.launch pid lnum
  let n := (s.part pid).snapi
  if n = 0 ∨ (l.phase ≠ .live ∧ l.phase ≠ .held) then .next s
  else if s.gslot < l.snapAt then .next (s.after (8 * (l.snapAt - s.gslot)) (.snapshotInterval pid lnum))
  else
    let s := s.setLaunch pid lnum { l with snapAt := l.snapAt + 2 ^ (n + 10) }
    let s := s.after (8 * 2 ^ (n + 10)) (.snapshotInterval pid lnum)
    .next (if l.phase = .live then startCut (abandonCut s pid lnum) pid lnum .snapshot else s)

/-! ### Restore (R373) -/

/-- A tile takes its saved state; its code, its handler base and its bindings are the loader's. CCNT's saved value waits in
the offset until the start. -/
def restoreTile (s : State) (t : Nat) (c : TileCut) : State :=
  let x := s.tile t
  s.setTile t { x with
    core := { c.core with imem := x.core.imem, tvec := x.core.tvec, mtvec := x.core.mtvec }
    store := c.store, eng := c.engines, mem := { c.mem with preds := x.mem.preds }
    matrix := { c.matrix with held := true }, bobbin := c.bobbin, sent := c.sent, received := c.received
    ccntOff := c.ccnt, edge := c.edge, stopped := true }

/-- A channel takes its program at the boundary word at which it was cut, and waits there for S0′ (R373). -/
def restoreChannel (s : State) (pid lnum : Nat) (i : Image) (e : Nat × Nat × Option Nat × Tab Lane) : State :=
  let (n, index, loop, lanes) := e
  match (drivenBy (s.part pid) i).find? (fun d => d.1 == n) with
  | none => s
  | some (_, d) =>
    let gap := (s.launch pid lnum).s0 - s.gslot
    s.setChan n { s.chan n with
      words := d.words, idle := idleIndex d.words, index := index, loop := loop, lanes := lanes, noDelta := true
      last := slotMck s + 6 * gap }

/-- A transmitter takes its send queues, retention, refused set and sequence numbers; PHI is the index of the entry that it
would have used next at its cut (R111, R373). -/
def restoreTransmitter (s : State) (e : Nat × Transmitter) : State :=
  let t := s.tx e.1
  let c := e.2
  s.setTx e.1 { t with
    sends := c.sends, retained := c.retained, held := true, runs := []
    phi := if c.entries.isEmpty then 0 else (c.next - c.s0 + c.phi) % c.entries.length }

/-- Filters of the sources of a placement as they were. -/
def restoreFilters (s : State) (pid : Nat) (c : Cut) : State :=
  let p := s.part pid
  let ts := c.tiles.map (·.1)
  s.setPart pid { p with
    redFilter := c.filters.foldl (fun m (k, v) => tabPut m k v) (p.redFilter.filter (fun (k, _) => !ts.contains (k / 32 % 4096))) }

/-- The state of Table 17-6 is reloaded. -/
def reload (s : State) (pid lnum : Nat) (i : Image) (c : Cut) : State :=
  let l := s.launch pid lnum
  let s := s.setLaunch pid lnum { l with arcs := c.arcs, calls := c.calls, barriers := c.barriers }
  let s := c.tiles.foldl (fun s (t, x) => restoreTile s t x) s
  let s := c.regions.foldl (fun s (k, r) => s.setRegion k { r with held := true }) s
  let s := c.pes.foldl (fun s (k, x) => s.setPe k x) s
  let s := c.nodes.foldl (fun s (k, x) => s.setNode k x) s
  let s := c.triples.foldl (fun s (k, x) => s.setTriple k x) s
  let s := c.chans.foldl (fun s e => restoreChannel s pid lnum i e) s
  let s := stepEyelets s pid i 0 (fun e =>
    let x := s.eyelet e
    if x.entries.isEmpty then 0 else (c.slot + 1 - x.s0 + x.phi) % x.entries.length)
  restoreFilters (c.txs.foldl restoreTransmitter s) pid c

/-- RESTORE: after the configuration is written, the newest cut is reloaded (R373). -/
def execRestore (pid lnum : Nat) (s : State) : Out :=
  let l := s.launch pid lnum
  match imageOf s pid lnum, l.cuts with
  | some i, c :: _ => .next (if l.restoring ∧ l.phase = .starting then reload s pid lnum i c else s)
  | _, _ => .next s

/-! ### Rollback (R376, R380) -/

/-- SKIND of the agent that an uncorrectable-data subcode names (Tables 17-1, 17-2). -/
def damageKind (sub : Nat) : Nat := if sub = 2 then 5 else if sub = 4 then 1 else if sub = 5 then 6 else 0

/-- The record of uncorrectable data; its place is a free value (log 13). -/
def damageRecord (s : State) (pid lnum sub : Nat) : State :=
  let v := Config.softError s.free
  post s.nextFree pid 0x0A 0x0E sub (damageKind sub) (v.toNat / 2 ^ 128) (launchQueue s pid lnum) lnum (natBytes 16 v.toNat)

/-- A line that was written since the cut holds again what its entry does, and is dirty as the entry says, or where memory was
written since; the filters that guard it are those of the entry (R375, R376). -/
def undoLine (s : State) (pid : Nat) (u : Undo) : State :=
  let s := setLine s pid u.tag { u.line with dirty := u.line.dirty || u.stale, gen := genOf (s.part pid) (tagTid u.tag) }
  let p := s.part pid
  s.setPart pid { p with
    redFilter := u.filters.foldl (fun m (k, v) => tabPut m k v) (p.redFilter.filter (fun (k, _) => k / 32 / 4096 != u.tag.toNat)) }

/-- Every line with an entry is restored, the newest entry last (R376). -/
def undoLines (s : State) (pid : Nat) (c : Cut) : State := c.undo.reverse.foldl (fun s u => undoLine s pid u) s

/-- What a restore writes again has no errors any more: the tiles of the launch and the lines of the log (log 36). -/
def mendWords (s : State) (pid : Nat) (ts : List Nat) (c : Cut) : State :=
  { s with flaws := s.flaws.filter (fun x =>
      match x.place with
      | .store t _ | .buffer t _ | .accumulator t _ => !ts.contains t
      | .scratch k _ => !ts.contains (peTile k)
      | .line p tag => !(p == pid && c.undo.any (fun u => u.tag == tag))
      | .hbm _ _ => true) }

/-- The launch's elements are gone; the newest cut is configured and restored on the same tiles (R376). -/
def rollBack (s : State) (pid lnum : Nat) (c : Cut) : State :=
  let ts := occupied s pid lnum
  let s := mendWords (dropTimers (dropWork s ts) pid lnum) pid ts c
  let s := restoreFilters (undoLines s pid c) pid c
  let s := forgetWalks (freeChannels (ts.foldl (fun s t => s.modTile t haltThreads) s) pid lnum) pid ts
  let s := cutRecord s pid lnum 3 c.number c.slot (Config.discardedState s.free).toNat
  let l := s.launch pid lnum
  let s := s.nextFree.setLaunch pid lnum { l with
    phase := .configuring, restoring := true, cause := 0, cutting := none, heldEvents := [], heldPackets := []
    cuts := [{ c with undo := [], full := false }] }
  let s := saveTraffic s pid lnum false
  let s := placeGraph (s.modQueue pid l.queue (fun x => { x with held := false })) pid lnum
  s.after (configureCycles s pid lnum) (.configurationComplete pid lnum)

/-- The newest complete cut, while its log has not filled (R375, R376). -/
def usableCut (l : Launch) : Option Cut := l.cuts.head?.bind (fun c => if c.full then none else some c)

/-- A launch stops and waits for its rollback. -/
def stopForRollback (s : State) (pid lnum : Nat) : State :=
  let s := stopLaunch (abandonCut s pid lnum) pid lnum 0x0E
  s.setLaunch pid lnum { s.launch pid lnum with restoring := true }

/-- The launches of a cut group that are rolled back with one of them: those whose newest complete cut is the same. -/
def rolledWith (s : State) (c : Cut) : List (Nat × Nat) :=
  c.group.filter (fun (q, n) =>
    let l := s.launch q n
    (l.phase == .live || (l.phase == .held && l.cause != 0x11)) && (match usableCut l with | some d => d.slot == c.slot | none => false))

/-- A launch that waits for its rollback. -/
def awaitsRollback (l : Launch) : Bool := l.phase == .held && l.restoring && l.cause == 0x0E

/-- Every flit of the launches of a group that wait for their rollback is delivered (R376). -/
def groupSettled (s : State) (pid lnum : Nat) (c : Cut) : Bool :=
  settled s pid lnum && c.group.all (fun (q, n) => !awaitsRollback (s.launch q n) || settled s q n)

/-- ROLLBACK: cause 0x0E with a subcode strikes a launch. It is recorded and every element of the cut group stops; once every
flit in the networks is delivered, the newest complete cut is restored. Without one the launch is held (R365, R376). -/
def execRollback (pid lnum sub : Nat) (s : State) : Out :=
  let l := s.launch pid lnum
  let again (s : State) (e : Nat × Nat) : State := s.after 1 (.rollback e.1 e.2 sub)
  if awaitsRollback l then
    match usableCut l with
    | some c => if groupSettled s pid lnum c then .next (rollBack s pid lnum c) else .next (again s (pid, lnum))
    | none => .next s
  else if l.phase ≠ .live ∧ (l.phase ≠ .held ∨ l.cause = 0x11 ∨ l.cause = 0x0E) then .next s
  else
    let s := damageRecord s pid lnum sub
    match usableCut l with
    | none => .next (stopLaunch (abandonCut s pid lnum) pid lnum 0x0E)
    | some c =>
      let g := (pid, lnum) :: rolledWith s c
      .next (g.foldl again (g.foldl (fun s e => stopForRollback s e.1 e.2) s))

/-! ### Scrubbing (R379) -/

/-- The partition and launch of a configuration store, with SKIND and SRC of its record. -/
def storeOwner (s : State) (c : ConfigStore) : Option (Nat × Nat × Nat × Nat) :=
  let ofTile (t : Nat) : Option (Nat × Nat × Nat × Nat) := (s.tile t).place.map (fun pl => (pl.pid, pl.lnum, 0, t))
  match c with
  | .pe k => ofTile (peTile k)
  | .chains t | .matrix t | .instructions t | .parameters t | .channels t | .preds t => ofTile t
  | .rings r => ofTile (peTile ((regionPes (s.region r)).headD 0))
  | .timetable n | .groups n => (s.tx n).launch.map (fun (p, l) => (p, l, 2, n))
  | .commands n | .lanes n => (s.chan n).launch.map (fun (p, l) => (p, l, 1, n))
  | .edgeTable _ => none

/-- Store kind and region or unit number of a reload record (Table 17-3, which codes no kind: log 36). -/
def storeKind (s : State) (c : ConfigStore) : Nat × Nat :=
  match c with
  | .pe k => (0, k % 2 ^ 16)
  | .chains t => (1, t)
  | .matrix t => (2, t)
  | .instructions t => (3, t)
  | .timetable n => (4, n)
  | .commands n => (5, n)
  | .edgeTable p => (6, p)
  | .parameters t => (7, t)
  | .channels t => (8, t)
  | .preds t => (9, t)
  | .lanes n => (10, n)
  | .groups n => (11, n)
  | .rings r => (12, (s.region r).number)

/-- The stores that the device holds twice: a word is read from the second copy, and the first is rewritten (R379). -/
def slotDriven (c : ConfigStore) : Bool :=
  match c with
  | .timetable _ | .commands _ | .edgeTable _ | .groups _ => true
  | .pe _ | .chains _ | .matrix _ | .instructions _ | .parameters _ | .channels _ | .preds _ | .lanes _ | .rings _ => false

/-- The launches that a store serves: of an edge table, those of the partition that have edges. -/
def storeLaunches (s : State) (c : ConfigStore) : List (Nat × Nat) :=
  match c with
  | .edgeTable p => ((liveLaunches (s.part p)).map (fun n => (p, n))).filter (fun e => !(edgesOf s e).isEmpty)
  | _ => ((storeOwner s c).map (fun (p, l, _, _) => (p, l))).toList

/-- A sequencer that has lost a command word halts as R250 states; with its idle frame lost too, it enters self-refresh. -/
def loseCommand (s : State) (n entry : Nat) : State :=
  let c := s.chan n
  match c.idle with
  | some i => if i ≤ entry then s.setChan n { enterSelfRefresh c c.last with halted := true, words := [] } else haltChannel s n c.last
  | none => haltChannel s n c.last

/-- The ring words of a region's PEs as they stand. -/
def ringsNow (s : State) (k : Nat) : List Nat :=
  (regionPes (s.region k)).flatMap (fun p =>
    let x := s.pe p
    (windowEntries (x.opRing.start, x.opRing.length)).map (fun e => (nth x.ops.toList e 0).toNat) ++
      (windowEntries (x.routeRing.start, x.routeRing.length)).map (fun e => (nth x.routes.toList e 0).toNat) ++
      (windowEntries (x.raRing.start, x.raRing.length)).map (fun e => (nth x.ras.toList e 0).toNat))

/-- A region's signature no longer matches its ring words (R379). -/
def signatureWrong (s : State) (c : ConfigStore) : Bool :=
  match c with
  | .rings r => (s.region r).loaded && Config.crc32 (ringsNow s r) != (s.region r).signature
  | _ => false

/-- A store is written again from the binding's image; its unit stands still until it is done, after a time that is a free value
(R379, log 36). -/
def rewriteStore (s : State) (c : ConfigStore) (entry : Nat) : State :=
  if s.reloading.contains c then s
  else { s with reloading := s.reloading ++ [c] }.nextFree.after (Config.reloadCycles s.free + 1) (.scrubPass c (.rewritten entry))

/-- The record of a store that has been written again (Table 17-3). -/
def reloadRecord (s : State) (c : ConfigStore) (entry : Nat) : State :=
  match storeOwner s c with
  | none => s
  | some (pid, lnum, skind, src) =>
    post s pid 0x0B 0x0F 1 skind src (launchQueue s pid lnum) lnum
      (natBytes 1 (storeKind s c).1 ++ [0] ++ natBytes 2 (storeKind s c).2 ++ [0, 0, 0, 0] ++ natBytes 8 entry)

/-- SCRUB_PASS over a store: nothing found, unless a region's signature is wrong; an uncorrectable word of a store that is not
slot-driven is written again from the image while its unit stands still, with a record, and no result changes; one of a
slot-driven store comes from its second copy; a loss of both, or of the image, is cause 0x0E with SUB 5, and a sequencer that
meets it halts (R379, R250). -/
def execScrubPass (store : ConfigStore) (damage : Damage) (s : State) : Out :=
  let done (s : State) : State := { s with reloading := s.reloading.erase store }
  match damage with
  | .none => .next (if signatureWrong s store then rewriteStore s store 0 else s)
  | .word entry => .next (if slotDriven store || (storeOwner s store).isNone then s else rewriteStore s store entry)
  | .rewritten entry => .next (if s.reloading.contains store then reloadRecord (done s) store entry else s)
  | .lost entry =>
    let l := storeLaunches s store
    let s := match store with
      | .commands n => if l.isEmpty then s else loseCommand s n entry
      | _ => s
    .next (l.foldl (fun s e => s.event (.rollback e.1 e.2 5)) (done s))

/-! ### Background tests and retirement (R383, R18, R19) -/

/-- The tester may run on a tile: it holds no launch, or a launch in elastic mode (R383). -/
def mayTest (s : State) (t : Nat) : Bool :=
  match (s.tile t).place with
  | none => true
  | some pl => (s.launch pl.pid pl.lnum).elastic

/-- A tile is to be retired; it is once no placement lives on it (R19). -/
def retireTile (s : State) (t : Nat) : State :=
  (s.modTile t (fun x => { x with ctl := { x.ctl with retire := true } })).event (.tileRetirement t)

/-- VERTICAL_BUS_TEST: a window begins on a tile that may be tested, a demand access aborts it at the next beat, an aborted one
is retried once the tile may be tested, and a fault that it finds retires the tile (R383). Which bus an access uses is not
stated (R24), so the access is an input (log 36). -/
def execVerticalBusTest (tile bus : Nat) (ev : BusTestEvent) (s : State) : Out :=
  let c := (s.tile tile).ctl
  let put (l : List (Nat × Bool)) : State := s.modTile tile (fun x => { x with ctl := { x.ctl with busTests := l } })
  match ev with
  | .start => .next (if mayTest s tile then put ((bus, false) :: c.busTests.filter (fun e => e.1 != bus)) else s)
  | .beat => .next s
  | .demand => .next (put (c.busTests.map (fun e => if e.1 = bus then (bus, true) else e)))
  | .finish ok =>
    match c.busTests.find? (fun e => e.1 == bus) with
    | none => .next s
    | some (_, aborted) =>
      let rest := c.busTests.filter (fun e => e.1 != bus)
      .next (if aborted then put ((bus, !mayTest s tile) :: rest) else if ok then put rest else retireTile (put rest) tile)

/-- TILE_RETIREMENT: the tile is unavailable from when its placement has ended or been cut and released, before any further
configuration (R19). -/
def execTileRetirement (tile : Nat) (s : State) : Out :=
  let x := s.tile tile
  if !x.ctl.retire then .next s
  else if x.place.isSome then .next (s.after 1 (.tileRetirement tile))
  else .next (s.setTile tile { x with ctl := { x.ctl with unavailable := true } })

end Sys2Proof.Machine
end

