-- ==== Sys2Proof/Machine/Sys.lean ====
section
/-! DEFINITION. The CSRs and the SYS operations (spec 06 R139, 05 R130, 08 R213, R214, 14 R312 to R323, 16 R351, 17 R363). -/

namespace Sys2Proof.Machine

/-! ### The CSRs (Tables 06-5, 05-9, 14-2) -/

inductive Csr where
  | fflags | paramv | rps
  | shared (n : Nat)
  | csel | gsel | gentl | genth | esel | eent
  | lbw (j : Nat)
  | tstat | tvec | tcause | tepc | tval | tscr | part | pclk | ppwr | ptroot | evlog | mtvec
  deriving DecidableEq, Repr

/-- The CSR of a number. -/
def csrOf (n : BitVec 10) : Option Csr :=
  match n.toNat with
  | 0x001 => some .fflags
  | 0x002 => some .paramv
  | 0x003 => some .rps
  | 0x020 => some .csel
  | 0x021 => some .gsel
  | 0x022 => some .gentl
  | 0x023 => some .genth
  | 0x024 => some .esel
  | 0x025 => some .eent
  | 0x100 => some .tstat
  | 0x101 => some .tvec
  | 0x102 => some .tcause
  | 0x103 => some .tepc
  | 0x104 => some .tval
  | 0x105 => some .tscr
  | 0x110 => some .part
  | 0x111 => some .pclk
  | 0x112 => some .ppwr
  | 0x113 => some .ptroot
  | 0x114 => some .evlog
  | 0x300 => some .mtvec
  | k => if k / 16 = 1 then some (.shared (k % 16)) else if 0x28 ≤ k ∧ k < 0x30 then some (.lbw (k - 0x28)) else none

/-- CSRs that only T7 may name (R130). -/
def csrT7 (c : Csr) : Bool :=
  match c with
  | .csel | .gsel | .gentl | .genth | .esel | .eent | .lbw _ => true
  | _ => false

/-- Least privilege of a CSR number (R313). -/
def csrNeed (n : BitVec 10) : Nat := n.toNat / 256

/-! ### Reading (R139) -/

/-- A group entry (Table 05-1). -/
def groupEntry (g : Group) : Nat :=
  g.wg % 2 ^ 11 + 2 ^ 16 * g.wmask.toNat + 2 ^ 32 * (g.vc % 32) + 2 ^ 37 * (g.port % 2) + 2 ^ 48 * (g.drops.length % 128) +
    2 ^ 64 * (g.dlist % 2 ^ 14) + 2 ^ 80 * (g.split % 2 ^ 12)

/-- The group entry that GSEL selects on a tile. -/
def selectedGroup (s : State) (tile : Nat) : Nat :=
  let pl := placeOf s tile
  groupEntry (s.group (64 * pl.y0 + pl.x0) (s.tile tile).core.gsel.toNat)

/-- The collective that CSEL selects on a tile, if it binds path j. -/
def selectedPath (s : State) (tile j : Nat) : Option CollImage :=
  match boundColl s tile (s.tile tile).core.csel.toNat with
  | none => none
  | some c => if j < c.paths.length then some c else none

/-- LBWj (Table 05-8). -/
def lbwValue (s : State) (tile j : Nat) : Word :=
  let k := (s.tile tile).core
  match selectedPath s tile j with
  | none => 0
  | some c =>
    BitVec.ofNat 64 ((tabGet 0 k.rates (8 * k.csel.toNat + j)).toNat + 2 ^ 32 * (tabGet 0 k.weights (8 * k.csel.toNat + j)).toNat +
      2 ^ 40 * boolNat (pathDown s (placeOf s tile).pid c j))

/-- TSTAT and TCAUSE (Tables 14-3, 14-4). -/
def tstatValue (h : Thread) : Word := BitVec.ofNat 64 (h.pl.toNat + 4 * h.ppl.toNat + 16 * boolNat h.inh)
def tcauseValue (h : Thread) : Word := BitVec.ofNat 64 (h.cause.toNat + 256 * h.sub.toNat)

/-- PART and PPWR (Tables 14-5, 14-6). -/
def partValue (pid : Nat) (p : Partition) : Word :=
  BitVec.ofNat 64 (pid % 64 + 2 ^ 6 * (p.x0 % 64) + 2 ^ 12 * (p.y0 % 64) + 2 ^ 18 * ((p.w - 1) % 64) + 2 ^ 24 * ((p.h - 1) % 64))
def ppwrValue (p : Partition) : Word := BitVec.ofNat 64 (p.alloc % 2 ^ 16 + 2 ^ 16 * (p.lastPower % 2 ^ 16))

/-- What CSRR reads. -/
def csrValue (s : State) (tile t : Nat) (c : Csr) : Word :=
  let h := s.thread tile t
  let k := (s.tile tile).core
  let pid := pidOf s tile
  let p := s.part pid
  match c with
  | .fflags => h.fflags.zeroExtend 64
  | .paramv => h.paramv
  | .rps => h.next.zeroExtend 64
  | .shared n => k.shared[n % 16]'(Nat.mod_lt _ (by decide))
  | .csel => k.csel.zeroExtend 64
  | .gsel => k.gsel.zeroExtend 64
  | .gentl => BitVec.ofNat 64 (selectedGroup s tile)
  | .genth => BitVec.ofNat 64 (selectedGroup s tile / 2 ^ 64)
  | .esel => k.esel.zeroExtend 64
  | .eent => edgeEntry p k.esel.toNat
  | .lbw j => lbwValue s tile j
  | .tstat => tstatValue h
  | .tvec => k.tvec
  | .tcause => tcauseValue h
  | .tepc => h.tepc
  | .tval => h.tval
  | .tscr => h.tscr
  | .part => partValue pid p
  | .pclk => BitVec.ofNat 64 (boolNat p.elastic)
  | .ppwr => ppwrValue p
  | .ptroot => p.ptroot
  | .evlog => p.evlog
  | .mtvec => k.mtvec

/-! ### Writing (R7, R139) -/

/-- PPL keeps its value for 2 and for a level above PL (R314). -/
def writeTstat (h : Thread) (v : Word) : Thread :=
  let q : BitVec 2 := v.extractLsb' 2 2
  { h with ppl := if q = 2 ∨ h.pl < q then h.ppl else q, inh := v.getLsbD 4 }

/-- A handler entry lies in the handler area and is a multiple of 4 (R316). -/
def handlerOk (v : Word) : Bool := decide (0xE000 ≤ v.toNat) && decide (v.toNat < 0x10000) && decide (v.toNat % 4 = 0)

/-- R351. -/
def ptrootOk (p : Partition) (v : Word) : Bool :=
  decide (v.toNat / 2 % 2 ^ 13 = 0) && decide (v.toNat / 2 ^ 52 = 0) && owned p (rootOf v)

/-- R363: a write with EN = 1. -/
def evlogOk (v : Word) : Bool :=
  !v.getLsbD 0 ||
    (decide (6 ≤ evlogLsz v) && decide (evlogLsz v ≤ 20) && v.getLsbD 51 &&
      decide (v.toNat / 2 ^ 12 * 2 ^ 12 % 2 ^ (evlogLsz v + 6) = 0) && decide (v.toNat / 2 ^ 7 % 2 ^ 5 = 0) &&
      decide (v.toNat / 2 ^ 52 = 0))

/-- The named bits of EVLOG. -/
def evlogMask : Word := 0x000FFFFFFFFFF07F

/-- EVLOG is written; when EN becomes 1, the buffered records are written first (R364). -/
def writeEvlog (s : State) (pid : Nat) (v : Word) : State :=
  let p := s.part pid
  let s := s.setPart pid { p with evlog := v &&& evlogMask, buffer := if v.getLsbD 0 then [] else p.buffer }
  if v.getLsbD 0 then p.buffer.foldl (fun s r => writeRecord s pid r) s else s

/-- PCLK.MODE (Table 14-6); a launch latches it at its start (R327). -/
def writePclk (s : State) (pid : Nat) (v : Word) : State := s.setPart pid { s.part pid with elastic := v.getLsbD 0 }

/-- Writes a handler entry of a core. -/
def writeTvec (s : State) (tile : Nat) (machine : Bool) (v : Word) : State :=
  s.modTile tile (fun x => { x with core := if machine then { x.core with mtvec := v } else { x.core with tvec := v } })

/-- A selector value in range; CSEL names a node bound to the tile (R130). -/
def selectorOk (s : State) (tile : Nat) (c : Selector) (v : Word) : Bool :=
  match c with
  | .csel => decide (v.toNat < 4096) && (boundColl s tile v.toNat).isSome
  | .gsel => decide (v.toNat < 4096)
  | .esel => decide (v.toNat < 32)

def writeSelector (s : State) (tile : Nat) (c : Selector) (v : Word) : State :=
  s.modTile tile (fun x => { x with core :=
    match c with
    | .csel => { x.core with csel := v.truncate 12 }
    | .gsel => { x.core with gsel := v.truncate 12 }
    | .esel => { x.core with esel := v.truncate 5 } })

/-- A write to LBWj changes only WEIGHT, of a path that the selected collective binds (R130). DESIGN CHOICE (log 24): each tile
has its own set of WEIGHT values. -/
def writeLbw (s : State) (tile j : Nat) (v : Word) : State :=
  match selectedPath s tile j with
  | none => s
  | some _ => s.modTile tile (fun x => { x with core := { x.core with
      weights := tabPut x.core.weights (8 * x.core.csel.toNat + j) (v.extractLsb' 32 8) } })

def writeShared (s : State) (tile n : Nat) (v : Word) : State :=
  s.modTile tile (fun x => { x with core := { x.core with
    shared := x.core.shared.set (n % 16) v (Nat.mod_lt _ (by decide)) } })

/-- The registers written under their access codes alone (R7). -/
def writePlain (s : State) (r : PlainReg) (v : Word) : State :=
  let mod (tile t : Nat) (f : Thread → Thread) : State := s.setThread tile t (f (s.thread tile t))
  match r with
  | .fflags tile t => mod tile t (fun h => { h with fflags := v.truncate 5 })
  | .tcause tile t => mod tile t (fun h => { h with cause := v.truncate 8, sub := v.extractLsb' 8 8 })
  | .tepc tile t => mod tile t (fun h => { h with tepc := v })
  | .tval tile t => mod tile t (fun h => { h with tval := v })
  | .tscr tile t => mod tile t (fun h => { h with tscr := v })
  | .shared tile n => writeShared s tile n v
  | .readOnly _ => s
  | .qcfg pid q => writeQcfg s pid q v
  | .qstat pid q => writeQstat s pid q v

/-- CSRW of one CSR: performed, cause 0x06 with the value, or a wait (R130, R214, R314, R316, R351, R363). -/
def csrWrite (c : Csr) (v : Word) (s : State) : Res :=
  let tile := s.cur.tile
  let t := s.cur.thread
  let pid := pidOf s tile
  let select (k : Selector) : Res := if selectorOk s tile k v then .done (writeSelector s tile k v) else trapHere s 0x06 v
  match c with
  | .fflags => .done (writePlain s (.fflags tile t) v)
  | .paramv | .rps | .gentl | .genth | .eent | .part | .ppwr => .done (writePlain s (.readOnly 0) v)
  | .shared n => if s.me.globalOut ≠ 0 then waitRetry s else .done (writePlain s (.shared tile n) v)
  | .csel => select .csel
  | .gsel => select .gsel
  | .esel => select .esel
  | .lbw j => .done (writeLbw s tile j v)
  | .tstat => .done (s.setMe (writeTstat s.me v))
  | .tvec => if handlerOk v then .done (writeTvec s tile false v) else trapHere s 0x06 v
  | .mtvec => if handlerOk v then .done (writeTvec s tile true v) else trapHere s 0x06 v
  | .tcause => .done (writePlain s (.tcause tile t) v)
  | .tepc => .done (writePlain s (.tepc tile t) v)
  | .tval => .done (writePlain s (.tval tile t) v)
  | .tscr => .done (writePlain s (.tscr tile t) v)
  | .pclk => .done (writePclk s pid v)
  | .ptroot => if ptrootOk (s.part pid) v then .done (s.setPart pid { s.part pid with ptroot := v }) else trapHere s 0x06 v
  | .evlog => if evlogOk v then .done (writeEvlog s pid v) else trapHere s 0x06 v

/-- CSRR (R139, R214); a number that names no CSR is cause 0x01. -/
def execCsrr (d : GReg) (n : BitVec 10) (p : PReg) (s : State) : Out :=
  match csrOf n with
  | none => seq p (fun s => trapHere s 0x01 (wordValue s)) s
  | some c => seqStep (csrNeed n) (csrT7 c) p (putReg d (fun s => csrValue s s.cur.tile s.cur.thread c)) s

/-- CSRW (R139, R214). -/
def execCsrw (d : GReg) (n : BitVec 10) (p : PReg) (s : State) : Out :=
  match csrOf n with
  | none => seq p (fun s => trapHere s 0x01 (wordValue s)) s
  | some c => seqStep (csrNeed n) (csrT7 c) p (fun s => csrWrite c (s.g d) s) s

/-! ### The writes as operations of their own -/

/-- REGISTER_WRITE (R7). -/
def execRegisterWrite (r : PlainReg) (v : Word) (s : State) : Out := .next (writePlain s r v)
/-- TSTAT_WRITE (R314). -/
def execTstatWrite (tile t : Nat) (v : Word) (s : State) : Out := .next (s.setThread tile t (writeTstat (s.thread tile t) v))
/-- TVEC_WRITE: a value outside the handler area leaves the register unchanged (R316). -/
def execTvecWrite (tile : Nat) (machine : Bool) (v : Word) (s : State) : Out :=
  .next (if handlerOk v then writeTvec s tile machine v else s)
/-- PTROOT_WRITE: a refused value leaves the register unchanged (R351). -/
def execPtrootWrite (pid : Nat) (v : Word) (s : State) : Out :=
  .next (if ptrootOk (s.part pid) v then s.setPart pid { s.part pid with ptroot := v } else s)
/-- EVLOG_WRITE: a refused value leaves the register unchanged (R363). -/
def execEvlogWrite (pid : Nat) (v : Word) (s : State) : Out := .next (if evlogOk v then writeEvlog s pid v else s)
/-- PCLK_WRITE (R327). -/
def execPclkWrite (pid : Nat) (v : Word) (s : State) : Out := .next (writePclk s pid v)
/-- CSEL_WRITE, of any selector (R130). -/
def execCselWrite (tile : Nat) (c : Selector) (v : Word) (s : State) : Out :=
  .next (if selectorOk s tile c v then writeSelector s tile c v else s)
/-- LBW_WRITE (R130). -/
def execLbwWrite (tile j : Nat) (v : Word) (s : State) : Out := .next (writeLbw s tile j v)

/-! ### TRAP and TRET (R213, R319) -/

/-- TRAP: cause 0x12 with the call number; TRET continues behind it. -/
def bodyTrap (i : BitVec 18) (s : State) : Res := .trap 0x12 0 (zx i) (s.cur.ipc + 4)
def execTrap (p : PReg) (i : BitVec 18) (s : State) : Out := seq p (bodyTrap i) s

/-- Whether an address of instruction memory holds an RPT word. -/
def isRptAt (x : Tile) (pc : Word) : Bool := decide (bits (imemWord x pc.toNat).toNat 26 6 = 0x3C)

/-- TRET. -/
def bodyTret (s : State) : Res := .hold (s.setMe (returnThread s.me (isRptAt s.here (s.me.tepc &&& ~~~3#64))))
def execTret (p : PReg) (s : State) : Out := seqStep 1 false p bodyTret s

/-! ### TLBINV (R320) -/

/-- A page matches an invalidation of an address, or of every entry. -/
def invalidates (scope : Nat) (va : Nat) (g : Page) : Bool := decide (scope = 1) || coversVa g va
/-- A walk could load a page that matches: pages reach 64 GiB (R352). -/
def walkCovered (scope : Nat) (va : Nat) (w : Walk) : Bool := decide (scope = 1) || decide (w.va / 2 ^ 36 = va / 2 ^ 36)

/-- Every TLB of a partition drops its matching entries, and walks under way are discarded. -/
def invalidateTlbs (s : State) (pid scope va : Nat) : State :=
  let p := s.part pid
  let s := s.setPart pid { p with
    tlb := p.tlb.map (fun (k, l) => (k, l.filter (fun g => !invalidates scope va g)))
    walks := p.walks.map (fun (k, w) => (k, if walkCovered scope va w then { w with discard := true } else w)) }
  { s with tiles := s.tiles.map (fun (t, x) =>
      (t, if holdsTile p t then { x with tlb := x.tlb.filter (fun g => !invalidates scope va g) } else x)) }

/-- TLBINV: scopes 2 and 3, and other bits of g[rb], are cause 0x06. -/
def bodyTlbinv (a b : GReg) (s : State) : Res :=
  let v := s.g b
  if 2 ≤ v.toNat then trapHere s 0x06 v else .done (invalidateTlbs s (pidOf s s.cur.tile) v.toNat (s.g a).toNat)
def execTlbinv (a b : GReg) (p : PReg) (s : State) : Out := seqStep 1 false p (bodyTlbinv a b) s

/-! ### CUTM, CFGLD, HALTC (R321 to R323) -/

/-- CUTM: a pre-emption cut of a live launch of the partition. -/
def bodyCutm (a : GReg) (s : State) : Res :=
  let v := s.g a
  let pid := pidOf s s.cur.tile
  if (liveLaunches (s.part pid)).contains v.toNat then .done (startCut s pid v.toNat .preemption) else trapHere s 0x06 v
def execCutm (a : GReg) (p : PReg) (s : State) : Out := seqStep 1 false p (bodyCutm a) s

/-- Another thread of the core is at S or M (R322). -/
def otherPrivileged (s : State) : Bool :=
  (List.range 8).any (fun t => t != s.cur.thread && (s.here.thread t).pl != 0)

/-- CFGLD: the thread's own deferred stores there are performed (R94), then LEN bytes of the store go to the handler area. The value that the misuse of another privileged thread reports is a
free value (log 10). -/
def bodyCfgld (a b : GReg) (s : State) : Res :=
  let off := s.g a
  let v := s.g b
  let len := v.toNat % 2 ^ 14
  let doff := v.toNat / 2 ^ 16 % 2 ^ 13
  if off.toNat % 64 ≠ 0 then trapHere s 0x06 off
  else if v.toNat / 2 ^ 14 % 4 ≠ 0 ∨ v.toNat / 2 ^ 29 ≠ 0 ∨ len % 4 ≠ 0 ∨ len < 4 ∨ 8192 < len ∨ doff % 4 ≠ 0 ∨
      8192 < doff + len then trapHere s 0x06 v
  else if Config.storeSize < off.toNat + len then trapHere s 0x06 off
  else if otherPrivileged s then
    .hold (takeTrap s.nextFree s.cur.tile s.cur.thread 0x06 0 (Config.unstatedWord s.free) s.cur.ipc)
  else
    let s := ownLocation s off.toNat len
    match heldIn s.here off.toNat len with
    | some b => waitRetry (wakeBank s s.cur.tile b)
    | none =>
      let x := s.here
      if owesStore s.me off.toNat len then waitRetry s
      else .done (s.setHere { x with core := { x.core with
        imem := memWrite x.core.imem (Config.handlerBase + doff) (storeBytes x off.toNat len) } })
def execCfgld (a b : GReg) (p : PReg) (s : State) : Out := seqStep 1 false p (bodyCfgld a b) s

/-- A thread of the core as HALTC leaves it: a parked one gives up its waiter entry and keeps its pc; it does what HALTT does
in its next own cycle. -/
def haltcThread (s : State) (tile t : Nat) : State :=
  match (s.thread tile t).st with
  | .parked (.word _) => cutThread s tile t
  | .parked _ | .waiting .yield | .waiting .retry => runThread s tile t
  | _ => s

/-- HALTC. -/
def bodyHaltc (s : State) : Res :=
  let x := s.here
  let s := s.setHere { x with core := { x.core with haltc := true } }
  .done ((List.range 8).foldl (fun s t => haltcThread s s.cur.tile t) s)
def execHaltc (p : PReg) (s : State) : Out := seqStep 1 false p bodyHaltc s

end Sys2Proof.Machine
end

