-- ==== Sys2Proof/Machine/Eyelet.lean ====
section
/-! DEFINITION. Eyelets: flits, acknowledgement and replay, lanes and light, the edge switch, sync frames, tags and peer
copies (spec 18, 05 R116 to R118, 09 R226). -/

namespace Sys2Proof.Machine

/-! ### Flits (Tables 18-2, 18-3) -/

/-- Bits of a payload. -/
def payloadAt (f : EyeletFlit) (lo n : Nat) : Nat := f.payload.toNat / 2 ^ lo % 2 ^ n

/-- CRC-32C of the low 8 n bits of a number, from bit 0 upward: the Castagnoli polynomial in its reflected form, with all-ones
before and after (the common use of the name; PRESUMED, log 14). -/
def crc32c (w n : Nat) : BitVec 32 :=
  ~~~(List.range n).foldl (fun (r : BitVec 32) i =>
    (List.range 8).foldl (fun r _ => if r.getLsbD 0 then (r >>> 1) ^^^ 0x82F63B78#32 else r >>> 1)
      (r ^^^ BitVec.ofNat 32 (w / 2 ^ (8 * i) % 256))) 0xFFFFFFFF#32

/-- Bits 287 to 0 of a flit (Table 18-2). -/
def flitHead (f : EyeletFlit) : BitVec 288 := f.cls ++ f.tag ++ f.seq ++ f.payload

/-- A flit as its 320 bits, and the flit that 320 bits are (Table 18-2). -/
def flitWord (f : EyeletFlit) : BitVec 320 := crc32c (flitHead f).toNat 36 ++ flitHead f
def wordFlit (w : BitVec 320) : EyeletFlit := ⟨w.extractLsb' 285 3, w.extractLsb' 280 5, w.extractLsb' 256 24, w.extractLsb' 0 256⟩

/-- The CRC of 320 bits that arrive is right (R387). -/
def crcGood (w : BitVec 320) : Bool := crc32c (w.toNat % 2 ^ 288) 36 == w.extractLsb' 288 32

/-- The payload of a class has its reserved bits 0 and no reserved code (R388). -/
def flitFormOk (f : EyeletFlit) : Bool :=
  match f.cls.toNat with
  | 0 => f.payload == 0
  | 1 => payloadAt f 252 4 == 0 && payloadAt f 249 3 != 6 && decide (payloadAt f 245 3 < 5) && decide (payloadAt f 240 5 < 30)
  | 2 => payloadAt f 61 3 == 0 && payloadAt f 96 160 == 0
  | 3 => true
  | 4 => decide (payloadAt f 0 8 < 5) && payloadAt f 112 144 == 0
  | 5 => payloadAt f 40 216 == 0
  | 6 => payloadAt f 72 184 == 0
  | _ => false

/-- Classes 1, 2, 3 and 5 are sequenced. -/
def sequenced (c : BitVec 3) : Bool := c == 1 || c == 2 || c == 3 || c == 5
/-- Copy flits: classes 2, 3 and 5 (R390). -/
def isCopyFlit (f : EyeletFlit) : Bool := f.cls == 2 || f.cls == 3 || f.cls == 5
def isControlFlit (f : EyeletFlit) : Bool := f.cls == 4 || f.cls == 6
def isHaltNotice (f : EyeletFlit) : Bool := f.cls == 4 && payloadAt f 0 8 == 3

/-- A link control flit: kind, SEQ named, lane mask, slot. -/
def controlFlit (kind seq mask z : Nat) : EyeletFlit :=
  ⟨4, 0, 0, BitVec.ofNat 256 (kind + 2 ^ 8 * (seq % 2 ^ 24) + 2 ^ 32 * (mask % 2 ^ 16) + 2 ^ 48 * z)⟩
def doneFlit (tag id status : Nat) : EyeletFlit := ⟨5, BitVec.ofNat 5 tag, 0, BitVec.ofNat 256 (id % 2 ^ 32 + 2 ^ 32 * status)⟩
def syncFlit (gslot number : Nat) : EyeletFlit := ⟨6, 0, 0, BitVec.ofNat 256 (gslot % 2 ^ 64 + 2 ^ 64 * (number % 256))⟩

/-- `a` comes before `b` among SEQs modulo 2^24. -/
def seqBefore (a b : BitVec 24) : Bool := a != b && !(b - a).getLsbD 23

/-! ### Directions (R389, R399) -/

/-- Active lanes: the data lanes, and the spare while it carries one's bits. -/
def activeLanes (d : LinkDir) : Nat := onesBelow (d.act.zeroExtend 64) 16 + (if d.spon then 1 else 0)
/-- T = ceil(320 / L), and n = floor(320 / T) less 1. -/
def withStriping (d : LinkDir) : LinkDir :=
  let l := activeLanes d
  if l = 0 then { d with ft := 0, nfm1 := 0 }
  else
    let t := (320 + l - 1) / l
    { d with ft := BitVec.ofNat 9 t, nfm1 := BitVec.ofNat 4 (320 / t - 1) }

def Eyelet.dir (x : Eyelet) (d : Direction) : LinkDir := match d with | .tx => x.tx | .rx => x.rx
def State.modTx (s : State) (e : Nat) (f : LinkDir → LinkDir) : State := s.setEyelet e { s.eyelet e with tx := f (s.eyelet e).tx }
def State.modRx (s : State) (e : Nat) (f : LinkDir → LinkDir) : State := s.setEyelet e { s.eyelet e with rx := f (s.eyelet e).rx }
def State.modDir (s : State) (e : Nat) (d : Direction) (f : LinkDir → LinkDir) : State :=
  match d with | .tx => s.modTx e f | .rx => s.modRx e f
def dirNumber (d : Direction) : Nat := match d with | .tx => 0 | .rx => 1

/-! ### The link log (R403) -/

def linkRecord (s : State) (typ skind src : Nat) (data : List Byte) : State :=
  let r : Record := ⟨typ, 0, 0, skind, src, 0xFF, 0, s.ctl.linkLog.length + 1, s.gslot, data⟩
  { s with ctl := { s.ctl with linkLog := r :: s.ctl.linkLog } }

/-- A retrain starts, or ends. -/
def retrainRecord (s : State) (e lane ended : Nat) : State :=
  linkRecord s 0x03 3 e (natBytes 1 lane ++ natBytes 1 ended ++ [0, 0, 0, 0, 0, 0] ++ natBytes 8 s.gslot)

/-! ### Acknowledgement and replay (R391) -/

/-- The cycles of 16 µs, 50 µs and 1 s at the 1.6 GHz of CCK (R4). -/
def replayCycles : Nat := 25600
def lockCycles : Nat := 80000
def barCycles : Nat := 1600000000

/-- Held flits that an acknowledgement frees: those before a SEQ. -/
def freeBefore (d : LinkDir) (q : BitVec 24) (now : Nat) : LinkDir :=
  { d with
    heldFlits := d.heldFlits.filter (fun f => !seqBefore f.seq q)
    resend := d.resend.filter (fun f => !seqBefore f.seq q), heard := now }

/-- EYELET_ACKNOWLEDGEMENT names the highest SEQ accepted. -/
def execEyeletAcknowledgement (e seq : Nat) (s : State) : Out :=
  .next (s.modTx e (fun d => freeBefore d (BitVec.ofNat 24 seq + 1) s.cycle))

/-- The transmitter resends from a SEQ, in order. -/
def resendFrom (d : LinkDir) (q : BitVec 24) (now : Nat) : LinkDir :=
  let d := freeBefore d q now
  { d with resend := d.heldFlits }

/-- REPLAY_REQUEST: it acknowledges every SEQ below the one it names. -/
def execReplayRequest (e seq : Nat) (s : State) : Out :=
  .next (s.modTx e (fun d => resendFrom d (BitVec.ofNat 24 seq) s.cycle))

/-- 16 µs have passed with flits held and nothing heard. -/
def replayDue (d : LinkDir) (now : Nat) : Bool := !d.heldFlits.isEmpty && decide (d.heard + replayCycles ≤ now)

/-- REPLAY_TIMEOUT: the transmitter resends from its oldest held flit. -/
def execReplayTimeout (e : Nat) (s : State) : Out :=
  .next (if replayDue (s.eyelet e).tx s.cycle then s.modTx e (fun d => { d with resend := d.heldFlits, heard := s.cycle }) else s)

/-- The partition that owns an eyelet (R386). -/
def eyeletOwner (s : State) (e : Nat) : Option Nat := (s.parts.find? (fun (_, p) => p.present && p.eyelets.contains e)).map (·.1)

/-- The first discard after an acceptance asks for a replay of the next expected SEQ (R391). -/
def discardFlit (s : State) (e : Nat) : State :=
  let d := (s.eyelet e).rx
  if d.requested then s
  else eyeletQueue (s.modRx e (fun d => { d with requested := true })) e (controlFlit 1 d.expected.toNat 0 0)

/-- Bytes of a token by its width code; a picot has none. -/
def tokenWidth (code : Nat) : Nat := if code = 7 then 0 else 4 * 2 ^ code

/-- A fragment joins its tag's token; the last one passes the whole token on (R388). -/
def addFragment (s : State) (e : Nat) (f : EyeletFlit) : State :=
  let x := s.eyelet e
  let tag := f.tag.toNat
  let part := natBytes (payloadAt f 240 5 + 1) f.payload.toNat
  let code := payloadAt f 249 3
  let had := if payloadAt f 245 3 = 0 then [] else tabGet [] x.rx.partialTokens tag
  let bytes := if code = 7 then [] else had ++ part
  if payloadAt f 248 1 = 1 then
    (s.modRx e (fun d => { d with partialTokens := tabDel d.partialTokens tag })).event
      (.edgeTokenArrival e tag (x.peer.getD 256) (bytes.take (tokenWidth code)))
  else s.modRx e (fun d => { d with partialTokens := tabPut d.partialTokens tag bytes })

/-- An accepted sequenced flit reaches what its class names. -/
def passFlit (s : State) (e : Nat) (f : EyeletFlit) : State :=
  let sender := (s.eyelet e).peer.getD 256
  let tag := f.tag.toNat
  match f.cls.toNat with
  | 1 => addFragment s e f
  | 2 => s.event (.copyHeader e tag sender (payloadAt f 0 25) (payloadAt f 25 12) (payloadAt f 37 24) (payloadAt f 64 32))
  | 3 => s.event (.copyData e tag sender (natBytes 32 f.payload.toNat))
  | _ => s.event (.copyDone e tag sender (payloadAt f 0 32) (payloadAt f 32 8))

/-- Acceptance: the next SEQ is expected, and the 64th acceptance is acknowledged (R391). -/
def acceptSequenced (s : State) (e : Nat) (f : EyeletFlit) : State :=
  let d := (s.eyelet e).rx
  let s := s.modRx e (fun d => { d with
    expected := d.expected + 1, requested := false, sinceAck := if d.sinceAck = 63 then 0 else d.sinceAck + 1 })
  passFlit (if d.sinceAck = 63 then eyeletQueue s e (controlFlit 0 f.seq.toNat 0 0) else s) e f

/-- The clear report of the module that an eyelet reaches, which left it the link's delay ago (R117, R386). -/
def clearReport (s : State) (e : Nat) : State :=
  let x := s.eyelet e
  match x.peer with
  | none => s
  | some m => haltReport s (some m) (s.cycle - x.delay / 40)

/-- The lane whose bits the spare takes from a notice's resume slot: one that the new mask leaves out, or none (R394, R396). -/
def noticedSpare (s : State) (mask : Nat) : Option Nat :=
  (Config.noticeSpare s.free mask).filter (fun j => decide (j < 16) && !(BitVec.ofNat 16 mask).getLsbD j)

/-- Link control (Table 18-3). -/
def controlReceived (s : State) (e : Nat) (f : EyeletFlit) : State :=
  let seq := payloadAt f 8 24
  match payloadAt f 0 8 with
  | 0 => s.event (.eyeletAcknowledgement e seq)
  | 1 => s.event (.replayRequest e seq)
  | 2 =>
    let mask := payloadAt f 32 16
    let c : LaneChange := ⟨BitVec.ofNat 16 mask, noticedSpare s mask,
      if Config.noticeResends s.free then some seq else none, payloadAt f 48 64⟩
    s.nextFree.event (.laneChangeNotice e c)
  | 3 => s.event (.haltNotice (payloadAt f 48 64))
  | _ => clearReport s e

/-- The 320 bits that arrive of a flit when the light turned some of them over (log 14). -/
def receivedWord (f : EyeletFlit) (damage : List Nat) : BitVec 320 :=
  damage.foldl (fun w b => w ^^^ (1#320 <<< b)) (flitWord f)

/-- EYELET_FLIT_RECEIVE: 320 bits arrive; sequenced flits are accepted in SEQ order; one with a bad CRC, of class 7, with reserved bits, or out
of order is discarded (R387, R388, R391). -/
def execEyeletFlitReceive (e : Nat) (flit : EyeletFlit) (damage : List Nat) (s : State) : Out :=
  let w := receivedWord flit damage
  let f := wordFlit w
  if !crcGood w || !flitFormOk f then .next (discardFlit s e)
  else if sequenced f.cls then
    .next (if f.seq = (s.eyelet e).rx.expected then acceptSequenced s e f else discardFlit s e)
  else if f.cls = 4 then .next (controlReceived s e f)
  else if f.cls = 6 then
    .next (s.nextFree.event (.syncFrame (payloadAt f 64 8) (payloadAt f 0 64) (Config.syncError s.free)))
  else .next s

/-! ### Lane changes (R394 to R398) -/

/-- Z: the first multiple of 16 at least 128 slots away. -/
def resumeSlot (now : Nat) : Nat := (now + 128 + 15) / 16 * 16

/-- The spare may substitute: idle, lit, not barred, enabled (R394). -/
def spareFree (x : Eyelet) : Bool := !x.rx.spon && !x.rx.dark.contains 16 && !x.rx.spblk && x.spen && x.rx.pending.isNone

/-- A mask without a lane, and with one. -/
def dropLane (m : BitVec 16) (j : Nat) : BitVec 16 := m &&& ~~~(1#16 <<< j)
def addLane (m : BitVec 16) (j : Nat) : BitVec 16 := m ||| (1#16 <<< j)

/-- Data lanes that are lit and not retraining (R396). -/
def litLanes (d : LinkDir) : BitVec 16 :=
  (List.range 16).foldl (fun m j => if d.dark.contains j ∨ d.training.contains j then m else addLane m j) 0

/-- A direction is out of service, and with it the other one when a notice of it cannot be sent (Table 18-5). -/
def outOfService (d : LinkDir) : LinkDir := { d with lst := 0 }

/-- The receiver of an eyelet sends a notice on the reverse direction and switches at its Z. -/
def sendNotice (s : State) (e : Nat) (c : LaneChange) (lst : BitVec 3) : State :=
  let x := s.eyelet e
  let s := s.setEyelet e { x with rx := { x.rx with pending := some c, lst := lst } }
  let s := if x.tx.lst = 0 then (s.modRx e outOfService).modTx e outOfService
    else eyeletQueue s e (controlFlit 2 ((c.seq.getD 0)) c.mask.toNat c.z)
  s.after (8 * (c.z - s.gslot)) (.resumeSlotZ e .rx)

/-- The marginal lane with the lowest margin borrows the spare, if it can (R394). -/
def lendSpare (s : State) (e : Nat) : State :=
  let x := s.eyelet e
  let best := x.rx.marginal.foldl (fun (m : Option (Nat × Nat)) k =>
    match m with | none => some k | some b => if k.2 < b.2 then some k else some b) none
  match best with
  | none => s
  | some (j, _) =>
    if !spareFree x then s
    else
      let s := s.modRx e (fun d => { d with
        marginal := d.marginal.filter (fun k => k.1 != j), training := d.training ++ [j] })
      sendNotice (retrainRecord s e j 0) e ⟨dropLane x.rx.act j, some j, none, resumeSlot s.gslot⟩ 4

/-- LANE_MARGINAL: a data lane below MTHR for 64 slots waits for the spare (R393, R394); an idle spare's estimate is SMARG. -/
def execLaneMarginal (e lane margin : Nat) (s : State) : Out :=
  let d := (s.eyelet e).rx
  if lane = 16 then .next (s.modRx e (fun d => { d with smarg := BitVec.ofNat 8 margin }))
  else if (s.eyelet e).mthr.toNat ≤ margin ∨ d.dark.contains lane ∨ d.training.contains lane then .next s
  else .next (lendSpare (s.modRx e (fun d => { d with
    marginal := d.marginal.filter (fun k => k.1 != lane) ++ [(lane, margin)] })) e)

/-- LANE_CHANGE_NOTICE at the transmitter: a later notice replaces an earlier one; one that answers a loss of light stops
sequenced flits until Z (R394, R395, Table 18-5). -/
def execLaneChangeNotice (e : Nat) (c : LaneChange) (s : State) : Out :=
  let s := s.modTx e (fun d => { d with
    pending := some c, stopped := d.stopped || c.seq.isSome
    lst := if c.seq.isSome then 3 else if c.spareFor.isSome then 4 else 2 })
  .next (s.after (8 * (c.z - s.gslot)) (.resumeSlotZ e .tx))

/-- Data of a restripe or substitution record (Table 18-8). -/
def restripeData (dir : Direction) (d : LinkDir) (z : Nat) : List Byte :=
  natBytes 1 (dirNumber dir) ++ [0] ++ natBytes 2 d.act.toNat ++ natBytes 2 d.ft.toNat ++ natBytes 1 d.spfor.toNat ++
    natBytes 1 (boolNat d.spon) ++ natBytes 8 z

/-- Whether an entry's skew is within the realignment buffer on its path or its alternate (R401). -/
def entryUsable (w : Word32) (skew : Nat × Nat) : Bool := decide (skew.1 ≤ 64) || (w.getLsbD 26 && decide (skew.2 ≤ 64))

/-- A retrain measures the paths again: entries are retired, or return to service (R401). -/
def remeasure (s : State) (e : Nat) : State :=
  let x := s.eyelet e
  let n := x.entries.length
  let measured := (List.range n).map (fun i => (i, Config.measuredSkew e i s.free))
  let s := s.nextFree.setEyelet e { x with skews := measured }
  measured.foldl (fun s (i, skew) =>
    let x := s.eyelet e
    let w := nth x.entries i 0
    let usable := entryUsable w skew
    if usable = !w.getLsbD 27 then s
    else
      let v := if usable then w &&& ~~~(1#32 <<< 27) else w ||| (1#32 <<< 27)
      linkRecord (s.setEyelet e { x with entries := setNth x.entries i v }) 0x06 3 e
        (natBytes 2 i ++ natBytes 1 (boolNat usable) ++ [0, 0, 0, 0, 0])) s

/-- WMASK of the edge entries of an eyelet holds its active lanes (R404). -/
def rewriteMasks (s : State) (e : Nat) : State :=
  let m := (s.eyelet e).tx.act
  { s with parts := s.parts.map (fun (k, p) => (k, { p with
      edges := p.edges.map (fun (v, w) =>
        (v, if w.toNat % 512 = e ∧ w.getLsbD 9 then (w &&& ~~~(0xFFFF#64 <<< 16)) ||| (m.zeroExtend 64 <<< 16) else w)) })) }

/-- What the direction becomes at Z. A substitution after a loss of light waits for the spare's lock (R396). -/
def switched (d : LinkDir) (dir : Direction) (c : LaneChange) (now : Nat) : LinkDir :=
  let d := withStriping { d with
    act := c.mask, spon := c.spareFor.isSome, spfor := BitVec.ofNat 4 (c.spareFor.getD 0), pending := none }
  let d := match dir, c.seq with | .tx, some q => resendFrom d (BitVec.ofNat 24 q) now | _, _ => d
  if activeLanes d = 0 then { d with lst := 0, stopped := true }
  else if c.seq.isSome ∧ c.spareFor.isSome then { d with lst := 3, stopped := true }
  else if c.spareFor.isSome ∧ d.stopped = false then { d with lst := 4 }
  else { d with lst := 2, stopped := false }

/-- RESUME_SLOT_Z: at Z both ends use the new striping, and the transmitter resends from the named SEQ (R394, R395); a Z that a
later notice has replaced is dropped. -/
def execResumeSlotZ (e : Nat) (dir : Direction) (s : State) : Out :=
  match ((s.eyelet e).dir dir).pending with
  | none => .next s
  | some c =>
    if s.gslot < c.z then .next (s.after (8 * (c.z - s.gslot)) (.resumeSlotZ e dir))
    else
      let s := s.modDir e dir (fun d => switched d dir c s.cycle)
      let s := linkRecord s 0x02 3 e (restripeData dir ((s.eyelet e).dir dir) c.z)
      match dir with
      | .tx => .next (remeasure (rewriteMasks s e) e)
      | .rx => .next (lendSpare s e)

/-- A restripe over the lit data lanes, or the end of service (R396). -/
def restripe (s : State) (e : Nat) : State :=
  let d := (s.eyelet e).rx
  let c : LaneChange := ⟨litLanes d, none, some d.expected.toNat, resumeSlot s.gslot⟩
  sendNotice s e c (if litLanes d = 0 then 0 else 3)

/-- LOSS_OF_LIGHT: the lanes that went dark in one declaration window (R395, R396, R398). -/
def execLossOfLight (e : Nat) (dark : List Nat) (s : State) : Out :=
  let x := s.eyelet e
  let fresh := dark.filter (fun j => decide (j ≤ 16) && !x.rx.dark.contains j)
  if fresh.isEmpty then .next s
  else
    let mask := fresh.foldl (fun m j => addLane m j) (0 : BitVec 16)
    let s := linkRecord s 0x01 3 e (natBytes 1 1 ++ [0] ++ natBytes 2 mask.toNat ++ [0, 0, 0, 0] ++ natBytes 8 x.rx.expected.toNat)
    let free := spareFree x && !fresh.contains 16
    let s := s.modRx e (fun d => { d with
      dark := d.dark ++ fresh, spblk := d.spblk || fresh.contains 16, partialTokens := d.partialTokens
      training := d.training.filter (fun j => !fresh.contains j), marginal := d.marginal.filter (fun k => !fresh.contains k.1) })
    let d := (s.eyelet e).rx
    let data := d.dark.filter (fun j => decide (j < 16))
    match data, fresh.filter (fun j => decide (j < 16)) with
    | _, [] => .next (if x.rx.spon then restripe s e else s)
    | [j], [_] =>
      if free then
        let c : LaneChange := ⟨dropLane x.rx.act j, some j, some d.expected.toNat, resumeSlot s.gslot⟩
        .next ((sendNotice s e c 3).after (8 * (c.z - s.gslot) + lockCycles) (.spareLockTimeout e))
      else .next (restripe s e)
    | _, _ => .next (restripe s e)

/-- LIGHT_RETURN: the lane retrains; the spare's light lifts its bar (R397, Table 18-5). -/
def execLightReturn (e lane : Nat) (s : State) : Out :=
  let x := s.eyelet e
  if !x.rx.dark.contains lane then .next s
  else
    let s := s.modRx e (fun d => { d with dark := d.dark.filter (· != lane) })
    if lane = 16 then .next (if x.barUntil ≤ s.cycle then s.modRx e (fun d => { d with spblk := false }) else s)
    else
      let s := s.modRx e (fun d => { d with
        training := d.training ++ [lane], lst := if d.lst = 0 then 1 else d.lst })
      .next (retrainRecord s e lane 0)

/-- LANE_TRAINED: the lane takes its bits back at the next resume slot; lanes that rejoin together share one notice (R394,
R397). A direction out of service takes its sequence up again from the next expected SEQ (Table 18-5). -/
def execLaneTrained (e lane : Nat) (s : State) : Out :=
  let x := s.eyelet e
  if !x.rx.training.contains lane then .next s
  else
    let d : LinkDir := { x.rx with training := x.rx.training.filter (· != lane) }
    let base := match d.pending with | none => d.act | some c => c.mask
    let keeps : Option Nat := match d.pending with
      | some c => c.spareFor.filter (· != lane)
      | none => if d.spon ∧ d.spfor.toNat ≠ lane then some d.spfor.toNat else none
    let seq : Option Nat := match d.pending with
      | some c => c.seq
      | none => if x.rx.lst = 0 ∨ x.rx.lst = 1 then some d.expected.toNat else none
    let s := retrainRecord (s.setEyelet e { x with
      rx := d, tx := { x.tx with lst := if x.tx.lst = 0 ∧ activeLanes x.tx ≠ 0 then 2 else x.tx.lst } }) e lane 1
    .next (sendNotice s e ⟨addLane base lane, keeps, seq, resumeSlot s.gslot⟩ 2)

/-- SPARE_LOCK: the substituting spare has locked, and sending resumes at the next multiple of 16 slots (R396). -/
def execSpareLock (e : Nat) (s : State) : Out :=
  let x := s.eyelet e
  let s := if x.rx.lst = 3 ∧ x.rx.spon then s.modRx e (fun d => { d with lst := 2, stopped := false }) else s
  if x.tx.lst = 3 ∧ x.tx.spon ∧ x.tx.pending.isNone then
    let z := (s.gslot + 16) / 16 * 16
    let c : LaneChange := ⟨x.tx.act, some x.tx.spfor.toNat, none, z⟩
    .next ((s.modTx e (fun d => { d with pending := some c })).after (8 * (z - s.gslot)) (.resumeSlotZ e .tx))
  else .next s

/-- SPARE_LOCK_TIMEOUT: no lock by Z + 50 µs restripes over the 15 other data lanes and bars the spare for 1 s (R396). -/
def execSpareLockTimeout (e : Nat) (s : State) : Out :=
  let x := s.eyelet e
  if x.rx.lst = 3 ∧ x.rx.spon then
    let s := s.setEyelet e { x with barUntil := s.cycle + barCycles, rx := { x.rx with spblk := true } }
    let s := linkRecord s 0x04 3 e ([0, 0, 0, 0, 0, 0, 0, 0] ++ natBytes 8 s.gslot)
    .next ((restripe s e).after barCycles (.spareBarExpiry e))
  else .next s

/-- SPARE_BAR_EXPIRY (R396). -/
def execSpareBarExpiry (e : Nat) (s : State) : Out :=
  let x := s.eyelet e
  .next (if x.barUntil ≤ s.cycle then s.modRx e (fun d => { d with spblk := d.dark.contains 16 }) else s)

/-! ### Lasers (R385, R403) -/

/-- The eyelets and lanes of the transmit directions that a laser slot feeds (Table 18-1). -/
def fedLanes (slot : Nat) : List (Nat × Nat) :=
  if slot < 2048 then (List.range 4).map (fun k => (slot / 4, 4 * (slot % 4) + k))
  else (List.range 4).map (fun k => (4 * (slot - 2048) + k, 16))

def laserRecord (s : State) (slot restored : Nat) : State :=
  linkRecord s 0x05 6 0 (natBytes 2 slot ++ natBytes 1 restored ++ [0, 0, 0, 0, 0])

/-- A laser slot goes dark, and with it the lanes it feeds. -/
def darkenSlot (s : State) (slot : Nat) : State :=
  let s := { s with ctl := { s.ctl with lasersOut := setInsert s.ctl.lasersOut slot } }
  let s := (fedLanes slot).foldl (fun s (e, j) => s.modTx e (fun d =>
    { d with dark := if d.dark.contains j then d.dark else d.dark ++ [j], spblk := d.spblk || j == 16 })) s
  laserRecord s slot 0

/-- The slot holds a working module again; its lanes rejoin by R397, as the other ends notice. -/
def lightSlot (s : State) (slot : Nat) : State :=
  let s := { s with ctl := { s.ctl with lasersOut := setErase s.ctl.lasersOut slot } }
  let s := (fedLanes slot).foldl (fun s (e, j) => s.modTx e (fun d =>
    { d with dark := d.dark.filter (· != j), spblk := d.spblk && j != 16 })) s
  laserRecord s slot 1

/-- LASER_FAULT. -/
def execLaserFault (slot : Nat) (s : State) : Out := .next (if s.ctl.lasersOut.contains slot then s else darkenSlot s slot)

/-! ### The edge switch (R390, R400, R401) -/

/-- The entry of an eyelet's timetable in a slot. -/
def edgeSlotEntry (x : Eyelet) (slot : Nat) : Word32 :=
  if x.entries.isEmpty then 0 else nth x.entries ((slot - x.s0 + x.phi) % x.entries.length) 0

/-- Whether the slot carries tokens: KIND 1 or 2, not retired, no halt (R400, R401). -/
def slotCarries (s : State) (x : Eyelet) : Bool :=
  let w := edgeSlotEntry x s.gslot
  !s.halt.active && !w.getLsbD 27 && (w.toNat % 4 == 1 || w.toNat % 4 == 2)

/-- A flit leaves the eyelet: a sequenced one takes the next SEQ and is held until it is acknowledged (R391). -/
def sendNew (s : State) (e : Nat) (f : EyeletFlit) : State :=
  s.modTx e (fun d =>
    let rest := d.queue.erase f
    if sequenced f.cls then
      let g := { f with seq := d.seq }
      { d with
        queue := rest, seq := d.seq + 1, heldFlits := d.heldFlits ++ [g], out := g :: d.out
        heard := if d.heldFlits.isEmpty then s.cycle else d.heard }
    else { d with queue := rest, out := f :: d.out })

/-- The head of the flits to be sent again leaves. -/
def sendAgain (s : State) (e : Nat) : State :=
  s.modTx e (fun d => match d.resend with | [] => d | f :: r => { d with resend := r, out := f :: d.out })

/-- A new sequenced flit may be sent: nothing is sent again, and fewer than 8,192 are held (R391). -/
def mayStart (d : LinkDir) : Bool := d.resend.isEmpty && decide (d.heldFlits.length < 8192)

/-- One flit time: reserved ones carry copy flits or control flits; the others control flits first, then tokens (R390). -/
def flitTime (s : State) (e : Nat) (reserved tokens : Bool) : State :=
  let d := (s.eyelet e).tx
  let control := match d.queue.find? isHaltNotice with | some f => some f | none => d.queue.find? isControlFlit
  let again := match d.resend with | [] => false | f :: _ => !d.stopped && isCopyFlit f == reserved
  let fresh := if d.stopped || !mayStart d then none
    else if reserved then d.queue.find? isCopyFlit else if tokens then d.queue.find? (fun f => f.cls == 1) else none
  let later (s : State) : State :=
    if again then sendAgain s e else match fresh with | some f => sendNew s e f | none => s
  if reserved then
    if again || fresh.isSome then later s else match control with | some f => sendNew s e f | none => s
  else match control with | some f => sendNew s e f | none => later s

/-- Reserved flit times of a slot: ceil(5 n / 16). -/
def reservedTimes (n : Nat) : Nat := (5 * n + 15) / 16

/-- EDGE_SWITCH_SLOT: the flit times of a slot of an eyelet that is in service; a tree eyelet's last non-copy time carries a
sync frame at multiples of 2^16; a send queue with fewer than 1,024 free entries is an overrun (R390, R400 to R402). A copy's
flits enter the send queue as they leave, so they do not count. -/
def execEdgeSwitchSlot (e : Nat) (s : State) : Out :=
  let x := s.eyelet e
  if x.tx.lst = 0 ∨ x.tx.lst = 1 then .next s
  else
    let n := x.tx.nfm1.toNat + 1
    let r := reservedTimes n
    let sync := x.tree && decide (s.gslot % 2 ^ 16 = 0) && decide (r < n) && !s.halt.active
    let carries := slotCarries s x
    let s := (List.range (if sync then n - 1 else n)).foldl (fun s i => flitTime s e (decide (i < r)) carries) s
    let s := if sync then s.modTx e (fun d => { d with out := syncFlit s.gslot s.number :: d.out }) else s
    .next (if 3072 < ((s.eyelet e).tx.queue.filter (fun f => !isCopyFlit f)).length then overrun s 3 e 0xFFFF 0xFF else s)

/-! ### Sync frames (R402) -/

/-- A halt notice goes out for slot H. -/
def declareHalt (s : State) (who : Nat × Nat × Nat × Nat) : State :=
  if s.halt.active then s
  else onEyelets (setHalt s (haltSlot s.gslot) who) (haltNoticeFlit (haltSlot s.gslot))

/-- SYNC_FRAME: an error of up to 1/8 slot is slewed away; a larger one, or a count that differs, makes the module send a halt
notice, and its count is corrected during the halt. -/
def execSyncFrame (sender count : Nat) (err : Int) (s : State) : Out :=
  if s.number = 0 then .next s
  else
    let s' := { s with slotError := err }
    if count = s.gslot ∧ -128 ≤ err ∧ err ≤ 128 then .next s'
    else
      let d : Nat := (err % 2 ^ 64).toNat
      .next (declareHalt (linkRecord s' 0x07 6 0 (natBytes 1 sender ++ [0, 0, 0, 0, 0, 0, 0] ++ natBytes 8 d)) (6, 0, 0xFFFF, 0xFF))

/-- The slot clock is slewed by at most 1/1,024 slot per slot (R402). -/
def slew (e : Int) : Int := if 0 < e then e - 1 else if e < 0 then e + 1 else 0

/-! ### Tags (R118, R404, R405) -/

/-- A flit under a tag is for the owner of the eyelet: its entry is valid and names the sender. -/
def tagOwner (s : State) (e tag sender : Nat) : Option Nat :=
  match eyeletOwner s e with
  | none => none
  | some pid =>
    let w := edgeEntry (s.part pid) tag
    if edgeValid w && decide (w.toNat / 2 ^ 32 % 256 = sender) then some pid else none

/-- An edge miss: discarded, counted and recorded (R118). -/
def edgeMiss (s : State) (e tag : Nat) : State :=
  match eyeletOwner s e with
  | none => s
  | some pid =>
    let p := s.part pid
    let n := p.edgeMisses + 1
    post (s.setPart pid { p with edgeMisses := n }) pid 0x06 0 0 3 e 0xFF 0
      (natBytes 2 e ++ natBytes 1 tag ++ [0, 0, 0, 0, 0] ++ natBytes 8 n)

/-- EDGE_TOKEN_ARRIVAL: a token goes on by the module's routes under its tag, or is an edge miss (R118). One that no couching
tree of the module has as a child or parent stays at the eyelet (log 24). -/
def execEdgeTokenArrival (e tag sender : Nat) (token : List Byte) (s : State) : Out :=
  match tagOwner s e tag sender with
  | none => .next (edgeMiss s e tag)
  | some pid =>
    .next ((routeTagged s pid tag token).getD (s.setEyelet e { s.eyelet e with arrived := (tag, token) :: (s.eyelet e).arrived }))

/-! ### Peer copies (R405) -/

/-- The binding whose `.edge` line wrote an entry, with its origin. -/
def edgeBinding (s : State) (pid tag : Nat) : Option (Image × (Nat × Nat)) :=
  let p := s.part pid
  p.bindings.findSome? (fun (_, b) => match b.image with
    | none => none
    | some i => if b.bound && i.edges.any (fun l => l.1 == tag) then some (i, originOf p b) else none)

/-- The tag under which the peer of an entry knows the link. -/
def peerTag (s : State) (pid tag : Nat) : Nat := (edgeEntry (s.part pid) tag).toNat / 2 ^ 40 % 32

/-- The tile that a copy header addresses, if the range is within its store and the placement. -/
def copyTarget (s : State) (pid tag off tile len : Nat) : Option Nat :=
  match edgeBinding s pid tag with
  | none => none
  | some (i, o) =>
    if off + 32 * len ≤ Config.storeSize ∧ tile % 64 < i.pw ∧ tile / 64 < i.ph then some (tileAt o tile) else none

/-- COPY_HEADER: a copy out of range is not written and is answered with status 1. -/
def execCopyHeader (e tag sender off tile len id : Nat) (s : State) : Out :=
  match tagOwner s e tag sender with
  | none => .next (edgeMiss s e tag)
  | some pid =>
    let target := copyTarget s pid tag off tile len
    let s := s.modRx e (fun d => { d with
      copies := if len = 0 then tabDel d.copies tag else tabPut d.copies tag (target.getD Config.numTiles, off, len, id) })
    .next (if target.isNone then eyeletQueue s e (doneFlit (peerTag s pid tag) id 1)
      else if len = 0 then eyeletQueue s e (doneFlit (peerTag s pid tag) id 0) else s)

/-- A data flit of the tag waits for a bank; later ones wait behind it. -/
def dataWaits (s : State) (e tag : Nat) : Option Nat :=
  s.timers.foldl (fun m (t, w) =>
    match w with | .event (.copyData k v _ _) => if k = e ∧ v = tag then some (max t (m.getD 0)) else m | _ => m) none

/-- COPY_DATA: data flit k is written at OFF + 32 k; after the last one the copy is answered with status 0. -/
def execCopyData (e tag sender : Nat) (data : List Byte) (s : State) : Out :=
  match tagOwner s e tag sender, tabFind (s.eyelet e).rx.copies tag with
  | none, _ => .next (edgeMiss s e tag)
  | some _, none => .next s
  | some pid, some (tile, off, left, id) =>
    match dataWaits s e tag, (if tile < Config.numTiles then heldIn (s.tile tile) off 32 else none) with
    | some t, _ => .next (s.after (t - s.cycle) (.copyData e tag sender data))
    | none, some b => .next ((wakeBank s tile b).after (wakeCycles tile + 1) (.copyData e tag sender data))
    | none, none =>
      let s := if tile < Config.numTiles then s.modTile tile (fun x => storeWrite x off data) else s
      let s := s.modRx e (fun d => { d with
        copies := if left ≤ 1 then tabDel d.copies tag else tabPut d.copies tag (tile, off + 32, left - 1, id) })
      .next (if left ≤ 1 ∧ tile < Config.numTiles then eyeletQueue s e (doneFlit (peerTag s pid tag) id 0) else s)

/-- The tile whose copy at the head of its channel a done flit names. -/
def copySource (s : State) (pid e tag id : Nat) : Option Nat :=
  (s.tiles.find? (fun (t, x) =>
    holdsTile (s.part pid) t && (match x.eng.copies with
      | [] => false
      | c :: _ => c.sent && endKind c.dst == 8 && endVc c.dst == tag && c.ident == id &&
        (edgeEntry (s.part pid) tag).toNat % 512 == e))).map (·.1)

/-- COPY_DONE: the copy's number is posted; a range failure also goes to the issuing context's reduction fault log (R226). -/
def execCopyDone (e tag sender id status : Nat) (s : State) : Out :=
  match tagOwner s e tag sender with
  | none => .next (edgeMiss s e tag)
  | some pid =>
    match copySource s pid e tag id with
    | none => .next s
    | some tile =>
      match (s.tile tile).eng.copies with
      | [] => .next s
      | c :: _ =>
        let s := if status = 0 then s else reductionFault s tile 5 2 c.thread c.dst.toNat c.len 0 0x06 0
        .next (endCopy s tile)

end Sys2Proof.Machine
end

