-- ==== Sys2Proof/Machine/Manage.lean ====
section
/-! DEFINITION. The module controller: management commands, suspend and resume, firmware, attestation and bring-up (spec 19
R412 to R419, 14 R325, R326). -/

namespace Sys2Proof.Machine

/-! ### Responses (R412, Table 19-2) -/

/-- The response to a command: its code, its status and the data it returns. -/
def respond (s : State) (code status : Nat) (data : List Nat) : State :=
  { s with ctl := { s.ctl with responses := (code, status, data) :: s.ctl.responses } }

/-- Statuses: 0 done, 1 busy, 2 invalid, 3 failed. -/
def answer (s : State) (code status : Nat) : Out := .next (respond s code status [])

/-! ### Partitions (R325, R326) -/

/-- No element of the first list stands in the second. -/
def apart (a b : List Nat) : Bool := a.all (fun k => !b.contains k)

/-- The rectangle of a record lies within the module and holds no unavailable tile; no other partition owns a tile, a channel
or an eyelet of it; each channel and eyelet exists (R325, R326). -/
def partRecordOk (s : State) (r : PartRecord) : Bool :=
  let ts := rectTiles r.x0 r.y0 r.w r.h
  decide (r.pid < 64) && decide (1 ≤ r.w) && decide (1 ≤ r.h) && decide (r.x0 + r.w ≤ 64) && decide (r.y0 + r.h ≤ 64) &&
    decide (r.snapi < 16) && ts.all (fun t => !(s.tile t).ctl.unavailable) &&
    r.channels.all (fun c => decide (c < Config.numSequencers) && !s.ctl.retiredStacks.contains (c / 32)) &&
    r.eyelets.all (fun e => decide (e < Config.numEyelets)) &&
    s.parts.all (fun (k, p) => k == r.pid || !p.present ||
      (apart ts (rectTiles p.x0 p.y0 p.w p.h) && apart r.channels p.channels && apart r.eyelets p.eyelets))

/-- Every dirty line is written back and every line invalidated, because home slices follow the tile set (R326, R87). -/
def flushLines (s : State) (pid : Nat) : State :=
  let dirty := ((s.part pid).lines.filter (fun (_, l) => l.dirty)).map (fun (k, _) => BitVec.ofNat 60 k)
  let s := dirty.foldl (fun s t => cleanNow s pid t) s
  s.setPart pid { s.part pid with lines := [] }

/-- PE registers and scratch are 0 and every full bit is cleared; the configuration stays. -/
def clearPe (x : PE) : PE :=
  { x with
    k := Vector.replicate 16 0, c := Vector.replicate 8 0, scratch := []
    n := Latch.reset, e := Latch.reset, s := Latch.reset, w := Latch.reset, m := Latch.reset
    replies := [], awaited := 0, inflight := [], reads := [], keeps := [], drives := [], scratchWrite := none }

/-- A tile before it joins a partition: store, operand buffers, accumulators, PEs and instruction memory (R326). -/
def clearTile (s : State) (t : Nat) : State :=
  let x := s.tile t
  let s := s.setTile t { x with
    store := Store.reset, configured := none, tlb := [], edge := []
    eng := { x.eng with streams := x.eng.streams.map (fun c => { c with pages := [] }) }
    core := { x.core with imem := [] }
    matrix := { x.matrix with acc := Vector.replicate 16 [], ob := Vector.replicate 16 ⟨[], false⟩ } }
  { s with pes := s.pes.map (fun (k, p) => (k, if peTile k = t then clearPe p else p)) }

/-- The last-level TLBs of the fields of tiles that leave a partition drop its entries (R356). -/
def dropFieldTlbs (p : Partition) (left : List Nat) : Partition :=
  { p with tlb := p.tlb.filter (fun (f, _) => !(left.map fieldOf).contains f) }

/-- The record takes its values (Table 14-5, R374); launch numbers count from 1 again (R334), and power is measured in the
window in which the slot counter stands (R328). -/
def writePartition (s : State) (r : PartRecord) : State :=
  s.setPart r.pid { s.part r.pid with
    present := true, x0 := r.x0, y0 := r.y0, w := r.w, h := r.h, channels := r.channels, eyelets := r.eyelets
    snapi := r.snapi, saveArea := r.saveArea
    nextLaunch := 1, windowStart := s.gslot / Config.powerWindowSlots * Config.powerWindowSlots }

/-- A partition takes a record: the tiles that join are cleared first (R326). -/
def takeRecord (s : State) (r : PartRecord) : State :=
  let p := s.part r.pid
  let old := if p.present then rectTiles p.x0 p.y0 p.w p.h else []
  let new := rectTiles r.x0 r.y0 r.w r.h
  let s := if old = new then s else flushLines s r.pid
  let s := (new.filter (fun t => !old.contains t)).foldl clearTile s
  writePartition (s.setPart r.pid (dropFieldTlbs (s.part r.pid) (old.filter (fun t => !new.contains t)))) r

/-- PARTSET: refused while a launch of the partition is live (R325). -/
def execPartset (r : PartRecord) (s : State) : Out :=
  if !(liveLaunches (s.part r.pid)).isEmpty then answer s 0x01 1
  else if !partRecordOk s r then answer s 0x01 2
  else answer (takeRecord s r) 0x01 0

/-- The allocations of all partitions with a new one in place (R411). -/
def allocSum (s : State) (pid alloc : Nat) : Nat :=
  s.parts.foldl (fun n (k, p) => if k = pid ∨ !p.present then n else n + p.allocNext) alloc

/-- PALLOC: refused when the sum would exceed 2,300 units; it takes effect at the next window boundary. -/
def execPalloc (pid alloc : Nat) (s : State) : Out :=
  if !(s.part pid).present || decide (2300 < allocSum s pid alloc) then answer s 0x02 2
  else answer (s.setPart pid { s.part pid with allocNext := alloc }) 0x02 0

/-! ### Suspend (R413, R414, Table 19-3) -/

/-- Cycles of 4.5 s, and slots of 50 ms, at 1.6 GHz and 0.2 GHz (R4). -/
def haltBound : Nat := 7200000000
def cutBound : Nat := 10000000

/-- A launch that holds tiles and is not yet held by a cut. -/
def incomplete (l : Launch) : Bool :=
  match l.phase with
  | .configuring | .starting | .live => true
  | .held => l.cause != 0x11
  | .queued | .ended => false

def incompleteLaunches (s : State) : List (Nat × Nat) :=
  s.parts.flatMap (fun (pid, p) => (p.launches.filter (fun (_, l) => incomplete l)).map (fun (n, _) => (pid, n)))

/-- A suspend cut of a launch whose elements run or stand still; a snapshot in progress is abandoned (Table 19-3 step 1). -/
def suspendCut (s : State) (pid lnum : Nat) : State :=
  let l := s.launch pid lnum
  if (l.phase = .live ∨ l.phase = .held) ∧ !l.restoring then
    let s := abandonCut s pid lnum
    if (s.launch pid lnum).cutting.isSome then s
    else
      let s := startCut s pid lnum .suspend
      s.after (8 * (cutSlotAfter s.gslot - s.gslot + cutBound)) (.suspendDeadline pid lnum)
  else s

/-- SUSPEND: the notice goes out on every eyelet, and every live launch takes a cut. -/
def execSuspend (s : State) : Out :=
  if s.suspend ≠ .running then answer s 0x03 1
  else
    let s := onEyelets { s with suspend := .suspending false s.gslot } ⟨4, 0, 0, Config.suspendNotice s.gslot⟩
    let s := (incompleteLaunches s).foldl (fun s (p, n) => suspendCut s p n) s
    answer ((s.event .suspendComplete).after haltBound .suspendHaltTimeout) 0x03 0

/-- The last complete snapshot takes the place of a cut that is not complete, and the launch is held there (R414, R376). -/
def holdAtSnapshot (s : State) (pid lnum : Nat) (c : Cut) : State :=
  let s := restoreFilters (undoLines s pid c) pid c
  let s := cutRecord s pid lnum 3 c.number c.slot (Config.discardedState s.free).toNat
  let s := s.nextFree.setLaunch pid lnum { s.launch pid lnum with
    restoring := false, cutting := none, heldEvents := [], heldPackets := [], cuts := [{ c with undo := [], full := false, kind := .suspend }] }
  holdAfterCut s pid lnum

/-- A launch whose cut is not complete is rolled back to its last complete snapshot, once every flit is delivered, or ends
with STATUS 1 when it has none, or none whose log has not filled (R414, R375). Cause 0x0E and `restoring` mark the rollback while flits are in the networks. -/
def giveUpCut (s : State) (pid lnum : Nat) : State :=
  let l := s.launch pid lnum
  match usableCut l with
  | none => discardLaunch s pid lnum
  | some c =>
    if awaitsRollback l then
      if settled s pid lnum then holdAtSnapshot s pid lnum c else s.after 1 (.suspendDeadline pid lnum)
    else
      let s := stopLaunch (s.setLaunch pid lnum { l with cutting := none }) pid lnum 0x0E
      (s.setLaunch pid lnum { s.launch pid lnum with restoring := true }).after 1 (.suspendDeadline pid lnum)

/-- SUSPEND_DEADLINE: K + 50 ms (R414). -/
def execSuspendDeadline (pid lnum : Nat) (s : State) : Out :=
  let l := s.launch pid lnum
  match s.suspend with
  | .suspending _ _ =>
    if !incomplete l then .next s
    else
      match l.cutting with
      | some c =>
        if s.gslot < c.slot + cutBound then .next (s.after (8 * (c.slot + cutBound - s.gslot)) (.suspendDeadline pid lnum))
        else .next (giveUpCut s pid lnum)
      | none => .next (if l.phase = .held ∧ l.restoring then giveUpCut s pid lnum else s)
  | .running | .suspended _ => .next s

/-- SUSPEND_HALT_TIMEOUT: a domain halt still in effect 4.5 s after the notice (R414). -/
def execSuspendHaltTimeout (s : State) : Out :=
  match s.suspend with
  | .suspending _ _ =>
    .next (if s.halt.active then (incompleteLaunches s).foldl (fun s (p, n) => giveUpCut s p n) s else s)
  | .running | .suspended _ => .next s

/-- A direction without power: out of service. -/
def darkDir (d : LinkDir) : LinkDir := { d with lst := 0, stopped := true }

/-- Steps 3 and 4: channels enter self-refresh with their debts frozen, and the layers and eyelets lose power. -/
def powerDown (s : State) (slot : Nat) : State :=
  { s with
    suspend := .suspended slot
    chans := s.chans.map (fun (k, c) => (k, { enterSelfRefresh c s.mck with intervalHeld := true }))
    tiles := s.tiles.map (fun (k, x) => (k, { x with configured := none, ctl := { x.ctl with ton := false } }))
    eyelets := s.eyelets.map (fun (k, x) => (k, { x with tx := darkDir x.tx, rx := darkDir x.rx })) }

/-- SUSPEND_COMPLETE: once every launch is held by its cut and every channel is with its keeper, steps 3 and 4 are taken; a
RESUME that arrived earlier is then performed. A launch that became live after the notice is cut too. -/
def execSuspendComplete (s : State) : Out :=
  match s.suspend with
  | .suspending again slot =>
    let l := incompleteLaunches s
    if l.isEmpty && s.chans.all (fun (_, c) => c.keeper) then
      let s := powerDown s slot
      .next (if again then s.event .resume else s)
    else .next ((l.foldl (fun s (p, n) => suspendCut s p n) s).after 8 .suspendComplete)
  | .running | .suspended _ => .next s

/-! ### Resume (R415) -/

/-- Lanes 0 to 15 that are lit. -/
def litData (d : LinkDir) : BitVec 16 :=
  (List.range 16).foldl (fun m j => if d.dark.contains j then m else addLane m j) 0

/-- A direction after training: its lit lanes carry data, and it is up if there is one (R386, Table 18-6). -/
def trainedDir (d : LinkDir) : LinkDir :=
  withStriping { d with
    act := litData d, spon := false, spfor := 0, lst := if litData d = 0 then 0 else 2, stopped := decide (litData d = 0)
    pending := none, training := [], marginal := [], requested := false }

/-- The channel leaves self-refresh; its debts count again (R244, R415). -/
def leaveSelfRefresh (c : Chan) (now : Nat) : Chan :=
  let c := { c with intervalHeld := false, interval := now }
  if c.selfRefresh then
    let t := earliestFor c now ⟨0x0C, 0, 32, 0⟩
    { issue c ⟨0x0C, 0, 32, 0⟩ t with last := t }
  else c

/-- No tile of a launch was retired. -/
def tilesStay (s : State) (pid n : Nat) : Bool :=
  (launchTiles s pid n).all (fun t => !(s.tile t).ctl.retire && !(s.tile t).ctl.unavailable)

/-- A launch of a suspend cut; no tile of its cut group was retired (R415). -/
def restorable (s : State) (pid n : Nat) (l : Launch) : Bool :=
  l.phase == .held && l.cause == 0x11 &&
    (match l.cuts with | [] => false | c :: _ => c.kind == .suspend && c.group.all (fun (q, m) => tilesStay s q m)) &&
    tilesStay s pid n

/-- An eyelet of a greater delay, in UI, is not brought into service: 64 slots (R386). -/
def maxDelay : Nat := 64 * 320

/-- An eyelet trains again and measures its delay again, which is a free value (R386, R415, log 14). -/
def retrained (s : State) (e : Nat) (x : Eyelet) : Eyelet :=
  let d := Config.measuredDelay e s.free
  if d ≤ maxDelay then { x with delay := d, tx := trainedDir x.tx, rx := trainedDir x.rx }
  else { x with delay := d, tx := darkDir x.tx, rx := darkDir x.rx }

/-- A held launch of a cut group is restored as R373 states. -/
def restoreHeld (s : State) (pid n : Nat) : State :=
  let l := s.launch pid n
  let s := s.setLaunch pid n { l with restoring := true }
  (s.modQueue pid l.queue (fun x => { x with held := false })).event (.dispatch pid)

/-- RESUME: power, slot count, self-refresh exit and restores, in this order. -/
def execResume (s : State) : Out :=
  match s.suspend with
  | .running => answer s 0x04 2
  | .suspending _ slot => .next { s with suspend := .suspending true slot }
  | .suspended slot =>
    let s : State := { s with
      suspend := .running, gslot := (slot / 2 ^ 16 + 1) * 2 ^ 16
      tiles := s.tiles.map (fun (k, x) => (k, { x with ctl := { x.ctl with ton := true } }))
      eyelets := s.eyelets.map (fun (k, x) => (k, retrained s k x)), free := s.nextFree.free }
    let s := s.eyelets.foldl (fun s (e, _) => remeasure s e) s
    let s : State := { s with chans := s.chans.map (fun (k, c) => (k, leaveSelfRefresh c s.mck)) }
    let s : State := { s with parts := s.parts.map (fun (k, p) => (k, { p with windowStart := s.gslot })) }
    let held := s.parts.flatMap (fun (pid, p) => (p.launches.filter (fun (n, l) => restorable s pid n l)).map (fun (n, _) => (pid, n)))
    answer (held.foldl (fun s (p, n) => restoreHeld s p n) s) 0x04 0

/-! ### Firmware (R416) -/

/-- Measurements 1 to 5 follow the order of the blocks (Table 19-5). -/
def blockIndex : FwBlock → Nat
  | .controller => 0
  | .launchUnit => 1
  | .sequencers => 2
  | .eyelets => 3
  | .tiles => 4

def Controller.block (c : Controller) (b : FwBlock) : Firmware := nth c.blocks.toList (blockIndex b) Firmware.reset
def Controller.setBlock (c : Controller) (b : FwBlock) (f : Firmware) : Controller :=
  { c with blocks := Vector.ofFn (fun i => if i.val = (blockIndex b) then f else c.blocks[i]) }
/-- Measurement k + 1 of Table 19-5. -/
def Controller.measure (c : Controller) (k : Nat) (m : BitVec 384) : Controller :=
  { c with measurements := Vector.ofFn (fun i => if i.val = k then m else c.measurements[i]) }

/-- FWSTAGE: refused when the signature does not verify or the SVN is too low; a staged image goes to the inactive bank. -/
def execFwstage (block : FwBlock) (image : List Byte) (svn : Nat) (s : State) : Out :=
  let f := s.ctl.block block
  if !Config.signatureVerifies image || decide (svn < f.minSvn) then answer s 0x05 2
  else
    let g := if f.bankB then { f with imageA := image, svnA := svn, staged := true }
      else { f with imageB := image, svnB := svn, staged := true }
    answer { s with ctl := s.ctl.setBlock block g } 0x05 0

/-- FWACT: refused without a staged image; the activation waits for the block's quiet point and then answers. -/
def execFwact (block : FwBlock) (s : State) : Out :=
  if !(s.ctl.block block).staged then answer s 0x06 2
  else .next { s with ctl := { s.ctl with
    activating := if s.ctl.activating.contains block then s.ctl.activating else s.ctl.activating ++ [block] } }

/-- The block's quiet point (Table 19-4). -/
def quietPoint (s : State) (b : FwBlock) : Bool :=
  match b with
  | .tiles => s.tiles.all (fun (_, x) => x.place.isNone)
  | .sequencers => s.chans.all (fun (_, c) => c.launch.isNone && c.keeper)
  | .launchUnit => s.parts.all (fun (_, p) => p.dispatching.isNone)
  | .eyelets | .controller => true

/-- The activation is over: on success the image of the other bank is active and measured; a block whose activation fails
returns to its other bank, with status 3. -/
def finishActivation (s : State) (b : FwBlock) (ok : Bool) : State :=
  let f := s.ctl.block b
  let image := if f.bankB then f.imageA else f.imageB
  let c := { s.ctl with activating := s.ctl.activating.erase b }
  let c := if ok then (c.setBlock b { f with bankB := !f.bankB, staged := false }).measure (blockIndex b) (Config.sha384 image)
    else c.setBlock b { f with staged := false }
  respond { s with ctl := c } 0x06 (if ok then 0 else 3) []

/-- The eyelet that was out of service for its activation is back. -/
def eyeletBack (s : State) : State :=
  match s.ctl.downEyelet with
  | none => s
  | some (e, tx, rx) =>
    let s := s.modTx e (fun d => if d.lst = 0 then { d with lst := tx } else d)
    let s := s.modRx e (fun d => if d.lst = 0 then { d with lst := rx } else d)
    { s with ctl := { s.ctl with downEyelet := none } }

/-- The next eyelet in service goes out of service for its activation. -/
def nextEyelet (s : State) : Option Nat :=
  let from_ := match s.ctl.downEyelet with | none => 0 | some (e, _, _) => e + 1
  (keysWhere s.eyelets (fun e x => decide (from_ ≤ e) && x.tx.lst != 0)).head?

/-- FIRMWARE_ACTIVATION at the block's quiet point. Eyelets take it one at a time, each out of service for 50 µs. -/
def execFirmwareActivation (block : FwBlock) (ok : Bool) (s : State) : Out :=
  if !s.ctl.activating.contains block then .next s
  else if !quietPoint s block then .next (s.after 1 (.firmwareActivation block ok))
  else
    match block, nextEyelet s with
    | .eyelets, some e =>
      let s := eyeletBack s
      let x := s.eyelet e
      let s := s.setEyelet e { x with tx := { x.tx with lst := 0 }, rx := { x.rx with lst := 0 } }
      let s := { s with ctl := { s.ctl with downEyelet := some (e, x.tx.lst, x.rx.lst) } }
      .next (s.after lockCycles (.firmwareActivation block ok))
    | _, _ => .next (finishActivation (eyeletBack s) block ok)

/-! ### Retirement, lasers, eyelets and the link log (R412) -/

/-- Tiles that are unavailable or named for retirement, as the identity record lists them (R18). -/
def goneTiles (s : State) : List Nat := keysWhere s.tiles (fun _ x => x.ctl.unavailable || x.ctl.retire)
/-- Those of them whose router does not forward (R18). -/
def silentTiles (s : State) : List Nat := (goneTiles s).filter (fun t => !(s.tile t).ctl.forwards)

/-- The measurement of the identity record (R18, R417 to R419). -/
def measureIdentity (s : State) : State :=
  let m := Config.identityDigest (goneTiles s) (silentTiles s) s.ctl.retiredStacks s.ctl.outOfService
  { s with ctl := s.ctl.measure 7 m }

/-- TRETIRE is never refused; R19 says when it takes effect. -/
def execTretire (tile : Nat) (s : State) : Out := answer (measureIdentity (retireTile s tile)) 0x07 0

/-- SRETIRE: refused while a partition owns any channel of the stack. -/
def execSretire (stack : Nat) (s : State) : Out :=
  if s.parts.any (fun (_, p) => p.present && p.channels.any (fun c => c / 32 == stack)) then answer s 0x08 1
  else answer (measureIdentity { s with ctl := { s.ctl with retiredStacks := setInsert s.ctl.retiredStacks stack } }) 0x08 0

/-- LASER out darkens the slot; LASER in is issued after a module has been inserted. -/
def execLaser (slot : Nat) (into : Bool) (s : State) : Out :=
  let out := s.ctl.lasersOut.contains slot
  answer (if into then (if out then lightSlot s slot else s) else if out then s else darkenSlot s slot) 0x09 0

/-- ESTAT of a direction (Table 18-6). -/
def estatValue (d : LinkDir) : Nat :=
  d.act.toNat + 2 ^ 16 * boolNat d.spon + 2 ^ 17 * d.spfor.toNat + 2 ^ 21 * boolNat d.spblk + 2 ^ 22 * d.lst.toNat +
    2 ^ 25 * d.ft.toNat + 2 ^ 34 * d.nfm1.toNat + 2 ^ 38 * d.smarg.toNat

/-- EREG: ECFG is written, or ESTAT read (R399). -/
def execEreg (e : Nat) (op : EregOp) (s : State) : Out :=
  match tabFind s.eyelets e, op with
  | none, _ => answer s 0x0A 2
  | some x, .writeEcfg v => answer (s.setEyelet e { x with mthr := v.truncate 8, spen := v.getLsbD 8 }) 0x0A 0
  | some x, .readEstat d => .next (respond s 0x0A 0 [estatValue (x.dir d)])

/-- LLOG: the bytes of the link-log records numbered from `first` (R403, Table 17-2). -/
def execLlog (first count : Nat) (s : State) : Out :=
  let rs := (s.ctl.linkLog.filter (fun r => decide (first ≤ r.seq) && decide (r.seq < first + count))).reverse
  .next (respond s 0x0B 0 ((rs.flatMap recordBytes).map (·.toNat)))

/-- SPDM_REQUEST: the measurements and the identity key's signature (R417). -/
def execSpdmRequest (nonce : Nat) (s : State) : Out :=
  let m := s.ctl.measurements.toList
  .next { s with ctl := { s.ctl with signatures := (m, Config.spdmSignature m nonce) :: s.ctl.signatures } }

/-! ### Bring-up (R418, Table 19-6) -/

/-- The last attempt at a step left no completion record, or one of a failure. -/
def needsAlternative (c : Controller) (step : Nat) : Option Nat :=
  match c.flash.find? (fun r => r.step == step) with
  | none => none
  | some r => if r.done = some true then none else some r.attempt

/-- The completion record of the step whose start record was written last. -/
def complete (c : Controller) (ok : Bool) : Controller :=
  match c.flash with
  | [] => c
  | r :: l => { c with flash := { r with done := some ok } :: l }

def setUnavailable (s : State) (ts : List Nat) : State :=
  ts.foldl (fun s t => s.modTile t (fun x => { x with ctl := { x.ctl with unavailable := true } })) s

def retireStacks (s : State) (l : List Nat) : State :=
  { s with ctl := { s.ctl with retiredStacks := l.foldl setInsert s.ctl.retiredStacks } }

/-- The 64 tiles of a field (R16, R17). -/
def fieldTiles (f : Nat) : List Nat := rectTiles (8 * (f % 8)) (8 * (f / 8)) 8 8

/-- An eyelet after training (R386). -/
def bringEyelet (r : BringUpReport) (s : State) (p : Nat × Nat × Nat) : State :=
  let x := s.eyelet p.1
  s.setEyelet p.1 { x with
    peer := some p.2.1, delay := p.2.2, tree := r.tree.contains p.1, tx := trainedDir x.tx, rx := trainedDir x.rx
    mthr := BitVec.ofNat 8 (tabGet x.mthr.toNat r.margins p.1) }

/-- A channel after bring-up: every debt 0, with its keeper, its interval counted from now (R244, R248). -/
def bringChannel (s : State) (n : Nat) : Nat × Chan :=
  (n, { Chan.reset with mem := (s.chan n).mem, interval := s.mck })

/-- The stacks that are in service are initialised: each channel is listed, for its keeper (R418, step 3). -/
def bringChannels (s : State) : State :=
  { s with chans := (((List.range Config.numSequencers).filter (fun n => !s.ctl.retiredStacks.contains (n / 32))).map (bringChannel s)) }

/-- A partition and its ALLOC take their values of the partition defaults record, where the record is one that PARTSET and PALLOC
would take (R9, R411, R417). -/
def bringPartition (s : State) (d : PartRecord × Nat) : State :=
  if !partRecordOk s d.1 ∨ 2300 < allocSum s d.1.pid d.2 then s
  else
    let s := takeRecord s d.1
    s.setPart d.1.pid { s.part d.1.pid with alloc := d.2, allocNext := d.2 }

/-- The settings record gives each block its minimum SVN; one that does not verify is not used (R416, R417). -/
def takeSettings (c : Controller) (r : BringUpReport) : Controller :=
  match r.settings with
  | none => c
  | some (bs, svns) =>
    if Config.signatureVerifies bs then
      { c with blocks := Vector.ofFn (fun i => { c.blocks[i] with minSvn := nth svns i.val c.blocks[i].minSvn }) }
    else c

/-- The repair map is applied: the tiles of its columns with two failures, and the routers that do not forward (R17, R18). A new
map that verifies is measured, and with it the settings record (Table 19-5, R417). -/
def applyRepairMap (s : State) (r : BringUpReport) : State :=
  let s := setUnavailable s r.repairTiles
  let s := r.silentRouters.foldl (fun s t => s.modTile t (fun x => { x with ctl := { x.ctl with forwards := false } })) s
  match r.repairMap with
  | none => s
  | some bs =>
    if Config.signatureVerifies bs then
      let c := s.ctl.measure 5 (Config.sha384 bs)
      { s with ctl := match r.settings with | some (ws, _) => c.measure 6 (Config.sha384 ws) | none => c }
    else s

/-- The work of a step, in its first form or its alternative (Table 19-6). -/
def stepWork (r : BringUpReport) (step : Nat) (alt : Bool) (s : State) : State :=
  match step with
  | 1 =>
    let f := s.ctl.block .controller
    if alt then { s with ctl := s.ctl.setBlock .controller { f with bankB := !f.bankB } } else s
  | 2 => if alt then s else { s with ctl := takeSettings s.ctl r }
  | 3 => bringChannels (retireStacks s (r.slowStacks ++ (if alt then r.badStacks else [])))
  | 4 => if alt then setUnavailable s (r.badFields.flatMap fieldTiles) else s
  | 5 => if alt then setUnavailable (applyRepairMap s r) r.badTiles else applyRepairMap s r
  | 6 => if alt then { s with ctl := { s.ctl with failedWaveguides := r.badWaveguides.foldl setInsert s.ctl.failedWaveguides } } else s
  | 7 => (r.eyelets.filter (fun e => decide (e.2.2 ≤ maxDelay) && (!alt || !r.badEyelets.contains e.1))).foldl (bringEyelet r) { s with number := r.number }
  | 8 => r.defaults.foldl bringPartition (measureIdentity s)
  | _ => s

/-- One step: its start record, its work, its completion record; whether bring-up goes on. Step 8 has no alternative. -/
def bringStep (r : BringUpReport) (at_ : State × Bool) (step : Nat) : State × Bool :=
  if at_.2 then
    let s := at_.1
    let last := needsAlternative s.ctl step
    let alt := last.isSome && decide (step < 8)
    let s := { s with ctl := { s.ctl with flash := ⟨s.ctl.boot, step, last.getD 0 + 1, none⟩ :: s.ctl.flash } }
    if alt then
      if r.failedAlternative.contains step then
        (measureIdentity { s with ctl := { complete s.ctl false with outOfService := some step } }, false)
      else
        let s := stepWork r step true s
        ({ s with ctl := complete s.ctl true }, true)
    else if r.hung.contains step then (s, false)
    else if r.failed.contains step then ({ s with ctl := complete s.ctl false }, false)
    else
      let s := stepWork r step false s
      ({ s with ctl := complete s.ctl true }, true)
  else at_

/-- Work that comes from outside the module; it is still to come after a restart. -/
def fromOutside (w : Work) : Bool :=
  match w with
  | .event e =>
    match e with
    | .queueWriteError _ _ | .launchPacket _ _ _ _ | .patchPacket _ _ _ _ | .bindPacket _ _ _ _ | .unbindPacket _ _ _ _
    | .partset _ | .palloc _ _ | .suspend | .resume | .fwstage _ _ _ | .fwact _ | .tretire _ | .sretire _ | .laser _ _
    | .ereg _ _ | .llog _ _ | .spdmRequest _ | .bringUp _ | .laserFault _ | .lossOfLight _ _ | .lightReturn _ _ => true
    | _ => false
  | _ => false

/-- A module that starts again: registers have their reset values and the memories are as after a cold start; what flash and the
identity record hold stays: the firmware, the step records, the measurements, the retired tiles and stacks (R9, R418, R419;
DESIGN CHOICE, log 38). The host's memory is not the module's, and the clock that numbers the cycles goes on. -/
def restarted (s : State) : State :=
  let c := s.ctl
  let gone := keysWhere s.tiles (fun _ x => x.ctl.retire)
  let s' : State := { State.reset with
    cycle := s.cycle, host := s.host, sched := s.sched, free := s.free
    timers := s.timers.filter (fun (_, w) => fromOutside w)
    ctl := { Controller.reset with
      blocks := c.blocks, measurements := c.measurements, flash := c.flash, boot := c.boot, retiredStacks := c.retiredStacks } }
  gone.foldl (fun s t => s.modTile t (fun x => { x with ctl := { x.ctl with retire := true, unavailable := true } })) s'

/-- BRING_UP: the steps in order, on a module that has been reset. A step that hangs or fails in its first form ends this start;
the next one takes its alternative. One that fails in its alternative leaves the module out of service. -/
def execBringUp (r : BringUpReport) (s : State) : Out :=
  let s := if s.ctl.boot = 0 then s else restarted s
  let s := { s with ctl := { s.ctl with boot := s.ctl.boot + 1, outOfService := none } }
  .next (([1, 2, 3, 4, 5, 6, 7, 8].foldl (bringStep r) (s, true)).1)

end Sys2Proof.Machine
end

