-- ==== Sys2Proof/Machine/Prefix.lean ====
section
/-! DEFINITION. The prefixes RPT and RLX (spec 06 R144 to R147, 04 R78, R96). -/

namespace Sys2Proof.Machine

/-! ### RLX (R144) -/

/-- The guard and the body of the words that RLX may prefix; a full/empty operation behind it is cause 0x0A (R78). -/
def relaxedBody (i : Instr) : Option (PReg × (State → Res)) :=
  let forbidden (p : PReg) : Option (PReg × (State → Res)) := some (p, fun s => trapHere s 0x0A s.cur.ipc)
  match i with
  | .ld d a p sz i => some (p, bodyLoad false d a sz i)
  | .lds d a p sz i => some (p, bodyLoad true d a sz i)
  | .st d a p sz i => some (p, bodyStoreRelaxed d a sz i)
  | .peekf d a p i => some (p, bodyPeekf d a i)
  | .ldf _ _ p _ => forbidden p
  | .ldfe _ _ p _ => forbidden p
  | .stef _ _ p _ => forbidden p
  | .stf _ _ p _ => forbidden p
  | .sete _ p _ => forbidden p
  | .setf _ p _ => forbidden p
  | _ => none

/-- RLX: the next word is performed as a relaxed access; another word is illegal (R144). -/
def execRlx (w : Word32) (s : State) : Out :=
  match (decodeSeqWord w.toNat).bind relaxedBody with
  | none => seq 0 (fun s => trapHere s 0x01 (wordValue s)) s
  | some (p, body) => seq p body s

/-! ### RPT (R145 to R147) -/

/-- A repetition after the first of the RPT pair at the pc is next (R145, R147). -/
def inRepetition (h : Thread) : Bool := h.rptAt == some h.pc && h.next != 0

/-- A register field in repetition k. -/
def stepReg (k : Nat) (stride : BitVec 3) (r : GReg) : GReg := BitVec.ofNat 5 (r.toNat + k * stride.toNat)

/-- A word that RPT may prefix, with its register fields changed where it has them (R145). -/
def mapRegs (i : Instr) (d a b : GReg → GReg) : Instr :=
  match i with
  | .add x y z p => .add (d x) (a y) (b z) p
  | .sub x y z p => .sub (d x) (a y) (b z) p
  | .and x y z p => .and (d x) (a y) (b z) p
  | .or x y z p => .or (d x) (a y) (b z) p
  | .xor x y z p => .xor (d x) (a y) (b z) p
  | .andn x y z p => .andn (d x) (a y) (b z) p
  | .shl x y z p => .shl (d x) (a y) (b z) p
  | .shr x y z p => .shr (d x) (a y) (b z) p
  | .sar x y z p => .sar (d x) (a y) (b z) p
  | .rotl x y z p => .rotl (d x) (a y) (b z) p
  | .min x y z p => .min (d x) (a y) (b z) p
  | .max x y z p => .max (d x) (a y) (b z) p
  | .minu x y z p => .minu (d x) (a y) (b z) p
  | .maxu x y z p => .maxu (d x) (a y) (b z) p
  | .clz x y p => .clz (d x) (a y) p
  | .popc x y p => .popc (d x) (a y) p
  | .mul x y z p => .mul (d x) (a y) (b z) p
  | .mulh x y z p => .mulh (d x) (a y) (b z) p
  | .mulhu x y z p => .mulhu (d x) (a y) (b z) p
  | .div x y z p => .div (d x) (a y) (b z) p
  | .divu x y z p => .divu (d x) (a y) (b z) p
  | .rem x y z p => .rem (d x) (a y) (b z) p
  | .remu x y z p => .remu (d x) (a y) (b z) p
  | .addi x y p i => .addi (d x) (a y) p i
  | .andi x y p i => .andi (d x) (a y) p i
  | .ori x y p i => .ori (d x) (a y) p i
  | .xori x y p i => .xori (d x) (a y) p i
  | .shli x y p i => .shli (d x) (a y) p i
  | .shri x y p i => .shri (d x) (a y) p i
  | .sari x y p i => .sari (d x) (a y) p i
  | .sel x y z p => .sel (d x) (a y) (b z) p
  | .addr1 x y z p => .addr1 (d x) (a y) (b z) p
  | .addr2 x y z p => .addr2 (d x) (a y) (b z) p
  | .addr4 x y z p => .addr4 (d x) (a y) (b z) p
  | .addr8 x y z p => .addr8 (d x) (a y) (b z) p
  | .bfx x y z p => .bfx (d x) (a y) (b z) p
  | .bfi x y z p => .bfi (d x) (a y) (b z) p
  | .cpack x y z p => .cpack (d x) (a y) (b z) p
  | .cunpk x y p => .cunpk (d x) (a y) p
  | .ld x y p sz i => .ld (d x) (a y) p sz i
  | .lds x y p sz i => .lds (d x) (a y) p sz i
  | .st x y p sz i => .st (d x) (a y) p sz i
  | .ldg x y p sz i => .ldg (d x) (a y) p sz i
  | .stg x y p sz i => .stg (d x) (a y) p sz i
  | .red y z p g w o => .red (a y) (b z) p g w o
  | .rndk x y z p => .rndk (d x) (a y) (b z) p
  | i => i

/-- The guard and the body of a word that RPT may prefix (R145); SEL has no guard (R140). -/
def repeatedBody (i : Instr) : Option (PReg × (State → Res)) :=
  match i with
  | .add d a b p => some (p, bodyAlu2 (· + ·) d a b)
  | .sub d a b p => some (p, bodyAlu2 (· - ·) d a b)
  | .and d a b p => some (p, bodyAlu2 (· &&& ·) d a b)
  | .or d a b p => some (p, bodyAlu2 (· ||| ·) d a b)
  | .xor d a b p => some (p, bodyAlu2 (· ^^^ ·) d a b)
  | .andn d a b p => some (p, bodyAlu2 aluAndn d a b)
  | .shl d a b p => some (p, bodyAlu2 aluShl d a b)
  | .shr d a b p => some (p, bodyAlu2 aluShr d a b)
  | .sar d a b p => some (p, bodyAlu2 aluSar d a b)
  | .rotl d a b p => some (p, bodyAlu2 aluRotl d a b)
  | .min d a b p => some (p, bodyAlu2 aluMin d a b)
  | .max d a b p => some (p, bodyAlu2 aluMax d a b)
  | .minu d a b p => some (p, bodyAlu2 aluMinu d a b)
  | .maxu d a b p => some (p, bodyAlu2 aluMaxu d a b)
  | .clz d a p => some (p, bodyAlu1 aluClz d a)
  | .popc d a p => some (p, bodyAlu1 aluPopc d a)
  | .mul d a b p => some (p, bodyAlu2 (· * ·) d a b)
  | .mulh d a b p => some (p, bodyAlu2 aluMulh d a b)
  | .mulhu d a b p => some (p, bodyAlu2 aluMulhu d a b)
  | .div d a b p => some (p, bodyAlu2 aluDiv d a b)
  | .divu d a b p => some (p, bodyAlu2 aluDivu d a b)
  | .rem d a b p => some (p, bodyAlu2 aluRem d a b)
  | .remu d a b p => some (p, bodyAlu2 aluRemu d a b)
  | .addi d a p i => some (p, bodyAlu1 (· + sx i) d a)
  | .andi d a p i => some (p, bodyAlu1 (· &&& zx i) d a)
  | .ori d a p i => some (p, bodyAlu1 (· ||| zx i) d a)
  | .xori d a p i => some (p, bodyAlu1 (· ^^^ zx i) d a)
  | .shli d a p i => some (p, bodyAlu1 (aluShl · (zx i)) d a)
  | .shri d a p i => some (p, bodyAlu1 (aluShr · (zx i)) d a)
  | .sari d a p i => some (p, bodyAlu1 (aluSar · (zx i)) d a)
  | .sel d a b p => some (0, bodySel d a b p)
  | .addr1 d a b p => some (p, bodyAlu2 (fun x y => x + y) d a b)
  | .addr2 d a b p => some (p, bodyAlu2 (fun x y => x + (y <<< 1)) d a b)
  | .addr4 d a b p => some (p, bodyAlu2 (fun x y => x + (y <<< 2)) d a b)
  | .addr8 d a b p => some (p, bodyAlu2 (fun x y => x + (y <<< 3)) d a b)
  | .bfx d a b p => some (p, bodyAlu2 aluBfx d a b)
  | .bfi d a b p => some (p, bodyBfi d a b)
  | .cpack d a b p => some (p, bodyCpack d a b)
  | .cunpk d a p => some (p, bodyAlu1 unpackTile d a)
  | .ld d a p sz i => some (p, bodyLoad false d a sz i)
  | .lds d a p sz i => some (p, bodyLoad true d a sz i)
  | .st d a p sz i => some (p, bodyStore d a sz i)
  | .ldg d a p sz i => some (p, bodyLdg d a sz i)
  | .stg d a p sz i => some (p, bodyStg d a sz i)
  | .red a b p g w o => some (p, bodyRed a b g w o)
  | .rndk d a b p => some (p, bodyAlu2 keyed d a b)
  | _ => none

/-- The guard and the body of repetition k of a pair. -/
def repetition (srd sra srb : BitVec 3) (relaxed : Bool) (w : Word32) (k : Nat) : Option (PReg × (State → Res)) :=
  match decodeSeqWord w.toNat with
  | none => none
  | some i =>
    let j := mapRegs i (stepReg k srd) (stepReg k sra) (stepReg k srb)
    if relaxed then relaxedBody j else repeatedBody j

/-- The thread within the pair at its pc, with NEXT (Table 06-8). -/
def atRepetition (s : State) (k : Nat) : State :=
  s.setMe { s.me with next := BitVec.ofNat 10 k, rptAt := some s.cur.ipc }

/-- The pair is over. -/
def leavePair (s : State) : State := (s.setMe { s.me with next := 0, rptAt := none }).setPc s.cur.npc

/-- Repetition k is performed: NEXT rises and the thread stays at the pair, or goes on behind it (R145). A repetition that
waits leaves NEXT, and so does one that traps (R147). -/
def performRepetition (count : Nat) (k : Nat) (body : State → Res) (s : State) : State :=
  let s := atRepetition s k
  match body s with
  | .done t => if k + 1 < count then atRepetition t (k + 1) else leavePair t
  | r => finish s r

/-- RPT at its entry: the strides and register numbers are checked, the guard is read once, and repetition 0 is performed;
a count of 0 has no effect (R145, R146). -/
def execRpt (count : BitVec 10) (srd sra srb : BitVec 3) (relaxed : Bool) (w : Word32) (s : State) : Out :=
  if !rptAllowed count.toNat srd sra srb relaxed w.toNat then seq 0 (fun s => trapHere s 0x01 (wordValue s)) s
  else
    match repetition srd sra srb relaxed w 0 with
    | none => seq 0 (fun s => trapHere s 0x01 (wordValue s)) s
    | some (p, body) =>
      if s.me.pred p = false ∨ count = 0 then .next (leavePair s)
      else .next (performRepetition count.toNat 0 body s)

/-- RPT_REPETITION: repetition NEXT of the pair at the pc, without its guard (R145, R147). -/
def execRptRepetition (s : State) : Out :=
  match decodeSeq (fetchWords s.here s.me s.cur.ipc) with
  | .instr (.rpt count srd sra srb relaxed w) _ =>
    let k := s.me.next.toNat
    match repetition srd sra srb relaxed w k with
    | none => .next s
    | some (_, body) => .next (if k < count.toNat then performRepetition count.toNat k body s else leavePair s)
  | _ => .next s

end Sys2Proof.Machine
end

