-- ==== Sys2Proof/Machine/Dispatch.lean ====
section
/-! DEFINITION. One arm per instruction: its meaning, or its rejection by name. -/

namespace Sys2Proof.Machine

def exec (i : Instr) (s : State) : Host.Outcome State Fault Refusal :=
  match i with
  | .add d a b p => Sys2Proof.Machine.execAdd d a b p s
  | .sub d a b p => Sys2Proof.Machine.execSub d a b p s
  | .and d a b p => Sys2Proof.Machine.execAnd d a b p s
  | .or d a b p => Sys2Proof.Machine.execOr d a b p s
  | .xor d a b p => Sys2Proof.Machine.execXor d a b p s
  | .andn d a b p => Sys2Proof.Machine.execAndn d a b p s
  | .shl d a b p => Sys2Proof.Machine.execShl d a b p s
  | .shr d a b p => Sys2Proof.Machine.execShr d a b p s
  | .sar d a b p => Sys2Proof.Machine.execSar d a b p s
  | .rotl d a b p => Sys2Proof.Machine.execRotl d a b p s
  | .min d a b p => Sys2Proof.Machine.execMin d a b p s
  | .max d a b p => Sys2Proof.Machine.execMax d a b p s
  | .minu d a b p => Sys2Proof.Machine.execMinu d a b p s
  | .maxu d a b p => Sys2Proof.Machine.execMaxu d a b p s
  | .clz d a p => Sys2Proof.Machine.execClz d a p s
  | .popc d a p => Sys2Proof.Machine.execPopc d a p s
  | .mul d a b p => Sys2Proof.Machine.execMul d a b p s
  | .mulh d a b p => Sys2Proof.Machine.execMulh d a b p s
  | .mulhu d a b p => Sys2Proof.Machine.execMulhu d a b p s
  | .div d a b p => Sys2Proof.Machine.execDiv d a b p s
  | .divu d a b p => Sys2Proof.Machine.execDivu d a b p s
  | .rem d a b p => Sys2Proof.Machine.execRem d a b p s
  | .remu d a b p => Sys2Proof.Machine.execRemu d a b p s
  | .addi d a p imm => Sys2Proof.Machine.execAddi d a p imm s
  | .andi d a p imm => Sys2Proof.Machine.execAndi d a p imm s
  | .ori d a p imm => Sys2Proof.Machine.execOri d a p imm s
  | .xori d a p imm => Sys2Proof.Machine.execXori d a p imm s
  | .shli d a p imm => Sys2Proof.Machine.execShli d a p imm s
  | .shri d a p imm => Sys2Proof.Machine.execShri d a p imm s
  | .sari d a p imm => Sys2Proof.Machine.execSari d a p imm s
  | .lui d p imm => Sys2Proof.Machine.execLui d p imm s
  | .lix d p imm => Sys2Proof.Machine.execLix d p imm s
  | .cmp d a b p c => Sys2Proof.Machine.execCmp d a b p c s
  | .cmpi d a p c imm => Sys2Proof.Machine.execCmpi d a p c imm s
  | .pand d a b p => Sys2Proof.Machine.execPand d a b p s
  | .por d a b p => Sys2Proof.Machine.execPor d a b p s
  | .pxor d a b p => Sys2Proof.Machine.execPxor d a b p s
  | .pnot d a p => Sys2Proof.Machine.execPnot d a p s
  | .pmov d a p => Sys2Proof.Machine.execPmov d a p s
  | .pget d p => Sys2Proof.Machine.execPget d p s
  | .sel d a b p => Sys2Proof.Machine.execSel d a b p s
  | .addr1 d a b p => Sys2Proof.Machine.execAddr1 d a b p s
  | .addr2 d a b p => Sys2Proof.Machine.execAddr2 d a b p s
  | .addr4 d a b p => Sys2Proof.Machine.execAddr4 d a b p s
  | .addr8 d a b p => Sys2Proof.Machine.execAddr8 d a b p s
  | .bfx d a b p => Sys2Proof.Machine.execBfx d a b p s
  | .bfi d a b p => Sys2Proof.Machine.execBfi d a b p s
  | .cpack d a b p => Sys2Proof.Machine.execCpack d a b p s
  | .cunpk d a p => Sys2Proof.Machine.execCunpk d a p s
  | .tileid d p => Sys2Proof.Machine.execTileid d p s
  | .thid d p => Sys2Proof.Machine.execThid d p s
  | .ccnt d p => Sys2Proof.Machine.execCcnt d p s
  | .scnt d p => Sys2Proof.Machine.execScnt d p s
  | .br p n d => Sys2Proof.Machine.execBr p n d s
  | .jal p n d => Sys2Proof.Machine.execJal p n d s
  | .jalr d a p imm => Sys2Proof.Machine.execJalr d a p imm s
  | .loop d p imm => Sys2Proof.Machine.execLoop d p imm s
  | .yield p => Sys2Proof.Machine.execYield p s
  | .park p => Sys2Proof.Machine.execPark p s
  | .wake a p => Sys2Proof.Machine.execWake a p s
  | .waitt a p => Sys2Proof.Machine.execWaitt a p s
  | .waite a p => Sys2Proof.Machine.execWaite a p s
  | .haltt p => Sys2Proof.Machine.execHaltt p s
  | .ld d a p st_ imm => Sys2Proof.Machine.execLd d a p st_ imm s
  | .lds d a p st_ imm => Sys2Proof.Machine.execLds d a p st_ imm s
  | .st d a p st_ imm => Sys2Proof.Machine.execSt d a p st_ imm s
  | .ldf d a p imm => Sys2Proof.Machine.execLdf d a p imm s
  | .ldfe d a p imm => Sys2Proof.Machine.execLdfe d a p imm s
  | .stef d a p imm => Sys2Proof.Machine.execStef d a p imm s
  | .stf d a p imm => Sys2Proof.Machine.execStf d a p imm s
  | .sete a p imm => Sys2Proof.Machine.execSete a p imm s
  | .setf a p imm => Sys2Proof.Machine.execSetf a p imm s
  | .peekf d a p imm => Sys2Proof.Machine.execPeekf d a p imm s
  | .ldg d a p st_ imm => Sys2Proof.Machine.execLdg d a p st_ imm s
  | .stg d a p st_ imm => Sys2Proof.Machine.execStg d a p st_ imm s
  | .atom d a b p g w o => Sys2Proof.Machine.execAtom d a b p g w o s
  | .cas d a b p g w => Sys2Proof.Machine.execCas d a b p g w s
  | .red a b p g w o => Sys2Proof.Machine.execRed a b p g w o s
  | .fenceT p => Sys2Proof.Machine.execFenceT p s
  | .fenceC p => Sys2Proof.Machine.execFenceC p s
  | .fenceP p => Sys2Proof.Machine.execFenceP p s
  | .fenceS p => Sys2Proof.Machine.execFenceS p s
  | .drain p => Sys2Proof.Machine.execDrain p s
  | .send a b p q => Sys2Proof.Machine.execSend a b p q s
  | .sendp a b p q => Sys2Proof.Machine.execSendp a b p q s
  | .qpoll d p q => Sys2Proof.Machine.execQpoll d p q s
  | .qwait d p q => Sys2Proof.Machine.execQwait d p q s
  | .strmBind a b p => Sys2Proof.Machine.execStrmBind a b p s
  | .strmStart a p => Sys2Proof.Machine.execStrmStart a p s
  | .strmCancel a p => Sys2Proof.Machine.execStrmCancel a p s
  | .strmStat d a p => Sys2Proof.Machine.execStrmStat d a p s
  | .scopy d a b p => Sys2Proof.Machine.execScopy d a b p s
  | .vxfer a b p => Sys2Proof.Machine.execVxfer a b p s
  | .ltdef a b p => Sys2Proof.Machine.execLtdef a b p s
  | .ltld d a b p => Sys2Proof.Machine.execLtld d a b p s
  | .ltst d a b p => Sys2Proof.Machine.execLtst d a b p s
  | .ltpf a b p => Sys2Proof.Machine.execLtpf a b p s
  | .lthalo a b p => Sys2Proof.Machine.execLthalo a b p s
  | .ltinv a p => Sys2Proof.Machine.execLtinv a p s
  | .ltwb a p => Sys2Proof.Machine.execLtwb a p s
  | .ltq d a b p => Sys2Proof.Machine.execLtq d a b p s
  | .bar a p => Sys2Proof.Machine.execBar a p s
  | .bara a p => Sys2Proof.Machine.execBara a p s
  | .barw a p => Sys2Proof.Machine.execBarw a p s
  | .cstep a p => Sys2Proof.Machine.execCstep a p s
  | .rndk d a b p => Sys2Proof.Machine.execRndk d a b p s
  | .fload a b p => Sys2Proof.Machine.execFload a b p s
  | .fgo a b p => Sys2Proof.Machine.execFgo a b p s
  | .fphase a b p => Sys2Proof.Machine.execFphase a b p s
  | .fstop a p => Sys2Proof.Machine.execFstop a p s
  | .fstat d a p => Sys2Proof.Machine.execFstat d a p s
  | .mxload a b p => Sys2Proof.Machine.execMxload a b p s
  | .mxgo a p => Sys2Proof.Machine.execMxgo a p s
  | .mxdrain a b p => Sys2Proof.Machine.execMxdrain a b p s
  | .mxclr a p => Sys2Proof.Machine.execMxclr a p s
  | .mxstat d a p => Sys2Proof.Machine.execMxstat d a p s
  | .lnch d a b p => Sys2Proof.Machine.execLnch d a b p s
  | .evsig a p => Sys2Proof.Machine.execEvsig a p s
  | .evwait a p => Sys2Proof.Machine.execEvwait a p s
  | .csrr d c p => Sys2Proof.Machine.execCsrr d c p s
  | .csrw d c p => Sys2Proof.Machine.execCsrw d c p s
  | .tret p => Sys2Proof.Machine.execTret p s
  | .tlbinv a b p => Sys2Proof.Machine.execTlbinv a b p s
  | .cutm a p => Sys2Proof.Machine.execCutm a p s
  | .cfgld a b p => Sys2Proof.Machine.execCfgld a b p s
  | .haltc p => Sys2Proof.Machine.execHaltc p s
  | .trap p imm => Sys2Proof.Machine.execTrap p imm s
  | .rpt count srd sra srb relaxed w => Sys2Proof.Machine.execRpt count srd sra srb relaxed w s
  | .rlx w => Sys2Proof.Machine.execRlx w s
  | .rptRepetition => Sys2Proof.Machine.execRptRepetition s
  | .debugStop tile thread => Sys2Proof.Machine.execDebugStop tile thread s
  | .nop st_ d => Sys2Proof.Machine.execNop st_ d s
  | .mov st_ a d w => Sys2Proof.Machine.execMov st_ a d w s
  | .selp st_ a b d w => Sys2Proof.Machine.execSelp st_ a b d w s
  | .fadd st_ a b d w => Sys2Proof.Machine.execFadd st_ a b d w s
  | .fsub st_ a b d w => Sys2Proof.Machine.execFsub st_ a b d w s
  | .fmul st_ a b d w => Sys2Proof.Machine.execFmul st_ a b d w s
  | .ffma st_ a b d w => Sys2Proof.Machine.execFfma st_ a b d w s
  | .fmin st_ a b d w => Sys2Proof.Machine.execFmin st_ a b d w s
  | .fmax st_ a b d w => Sys2Proof.Machine.execFmax st_ a b d w s
  | .fabs st_ a d w => Sys2Proof.Machine.execFabs st_ a d w s
  | .fneg st_ a d w => Sys2Proof.Machine.execFneg st_ a d w s
  | .fcmplt st_ a b d w => Sys2Proof.Machine.execFcmplt st_ a b d w s
  | .fcmpeq st_ a b d w => Sys2Proof.Machine.execFcmpeq st_ a b d w s
  | .hadd2 st_ a b d w => Sys2Proof.Machine.execHadd2 st_ a b d w s
  | .hmul2 st_ a b d w => Sys2Proof.Machine.execHmul2 st_ a b d w s
  | .hfma2 st_ a b d w => Sys2Proof.Machine.execHfma2 st_ a b d w s
  | .hmax2 st_ a b d w => Sys2Proof.Machine.execHmax2 st_ a b d w s
  | .iadd st_ a b d w => Sys2Proof.Machine.execIadd st_ a b d w s
  | .isub st_ a b d w => Sys2Proof.Machine.execIsub st_ a b d w s
  | .imul st_ a b d w => Sys2Proof.Machine.execImul st_ a b d w s
  | .imad st_ a b d w => Sys2Proof.Machine.execImad st_ a b d w s
  | .iand st_ a b d w => Sys2Proof.Machine.execIand st_ a b d w s
  | .ior st_ a b d w => Sys2Proof.Machine.execIor st_ a b d w s
  | .ixor st_ a b d w => Sys2Proof.Machine.execIxor st_ a b d w s
  | .ishl st_ a b d w => Sys2Proof.Machine.execIshl st_ a b d w s
  | .ishr st_ a b d w => Sys2Proof.Machine.execIshr st_ a b d w s
  | .isar st_ a b d w => Sys2Proof.Machine.execIsar st_ a b d w s
  | .imin st_ a b d w => Sys2Proof.Machine.execImin st_ a b d w s
  | .imax st_ a b d w => Sys2Proof.Machine.execImax st_ a b d w s
  | .icmplt st_ a b d w => Sys2Proof.Machine.execIcmplt st_ a b d w s
  | .icmpeq st_ a b d w => Sys2Proof.Machine.execIcmpeq st_ a b d w s
  | .cvtif st_ a d w => Sys2Proof.Machine.execCvtif st_ a d w s
  | .cvtfi st_ a d w => Sys2Proof.Machine.execCvtfi st_ a d w s
  | .cvtbf st_ a d w => Sys2Proof.Machine.execCvtbf st_ a d w s
  | .cvtbfs st_ a b d w => Sys2Proof.Machine.execCvtbfs st_ a b d w s
  | .cvte4 st_ a d w => Sys2Proof.Machine.execCvte4 st_ a d w s
  | .cvte5 st_ a d w => Sys2Proof.Machine.execCvte5 st_ a d w s
  | .cvte4s st_ a b d w => Sys2Proof.Machine.execCvte4s st_ a b d w s
  | .pack2 st_ a b d w => Sys2Proof.Machine.execPack2 st_ a b d w s
  | .unpk st_ a d w => Sys2Proof.Machine.execUnpk st_ a d w s
  | .frcp st_ a d w => Sys2Proof.Machine.execFrcp st_ a d w s
  | .frsq st_ a d w => Sys2Proof.Machine.execFrsq st_ a d w s
  | .fexp2 st_ a d w => Sys2Proof.Machine.execFexp2 st_ a d w s
  | .flog2 st_ a d w => Sys2Proof.Machine.execFlog2 st_ a d w s
  | .prnd st_ a b d w => Sys2Proof.Machine.execPrnd st_ a b d w s
  | .pld st_ a d w => Sys2Proof.Machine.execPld st_ a d w s
  | .pst st_ a b d => Sys2Proof.Machine.execPst st_ a b d s
  | .pred st_ a d => Sys2Proof.Machine.execPred st_ a d s
  | .jnx st_ a b d w => Sys2Proof.Machine.execJnx st_ a b d w s
  | .jnu st_ a b d w => Sys2Proof.Machine.execJnu st_ a b d w s
  | .route n e st_ w => Sys2Proof.Machine.execRoute n e st_ w s
  | .mnop slot => Sys2Proof.Machine.execMnop slot s
  | .mma slot a b at_ vc afmt rel => Sys2Proof.Machine.execMma slot a b at_ vc afmt rel s
  | .mmas slot a b at_ vc afmt rel => Sys2Proof.Machine.execMmas slot a b at_ vc afmt rel s
  | .mzero slot at_ => Sys2Proof.Machine.execMzero slot at_ s
  | .msig slot sig => Sys2Proof.Machine.execMsig slot sig s
  | .mwait slot sig => Sys2Proof.Machine.execMwait slot sig s
  | .mdrain slot at_ tsel ofmt srnd => Sys2Proof.Machine.execMdrain slot at_ tsel ofmt srnd s
  | .mend slot => Sys2Proof.Machine.execMend slot s
  | .dnop delta ch => Sys2Proof.Machine.execDnop delta ch s
  | .dact delta ch pc bg ba row => Sys2Proof.Machine.execDact delta ch pc bg ba row s
  | .dpre delta ch pc bg ba => Sys2Proof.Machine.execDpre delta ch pc bg ba s
  | .dprea delta ch pc => Sys2Proof.Machine.execDprea delta ch pc s
  | .drd delta ch pc bg ba row col lkind lidx close => Sys2Proof.Machine.execDrd delta ch pc bg ba row col lkind lidx close s
  | .drda delta ch pc bg ba row col lkind lidx close => Sys2Proof.Machine.execDrda delta ch pc bg ba row col lkind lidx close s
  | .dwr delta ch pc bg ba row col lkind lidx => Sys2Proof.Machine.execDwr delta ch pc bg ba row col lkind lidx s
  | .dwra delta ch pc bg ba row col lkind lidx => Sys2Proof.Machine.execDwra delta ch pc bg ba row col lkind lidx s
  | .drefab delta ch pc => Sys2Proof.Machine.execDrefab delta ch pc s
  | .drefpb delta ch pc bg ba => Sys2Proof.Machine.execDrefpb delta ch pc bg ba s
  | .drfm delta ch pc bg ba => Sys2Proof.Machine.execDrfm delta ch pc bg ba s
  | .dsre delta ch => Sys2Proof.Machine.execDsre delta ch s
  | .dsrx delta ch => Sys2Proof.Machine.execDsrx delta ch s
  | .dframe delta ch idle => Sys2Proof.Machine.execDframe delta ch idle s
  | .ddem delta ch slots => Sys2Proof.Machine.execDdem delta ch slots s
  | .dloop delta ch runs => Sys2Proof.Machine.execDloop delta ch runs s
  | .dend delta ch => Sys2Proof.Machine.execDend delta ch s
  | .dmrs delta ch pc reg value => Sys2Proof.Machine.execDmrs delta ch pc reg value s
  | .refreshDebtRise ch => Sys2Proof.Machine.execRefreshDebtRise ch s
  | .idleFrameRun ch => Sys2Proof.Machine.execIdleFrameRun ch s
  | .refreshKeeperRefresh ch pc => Sys2Proof.Machine.execRefreshKeeperRefresh ch pc s
  | .laneDataEntry ch kind idx data close => Sys2Proof.Machine.execLaneDataEntry ch kind idx data close s
  | .demandSlot ch => Sys2Proof.Machine.execDemandSlot ch s
  | .threadWake tile thread => Sys2Proof.Machine.execThreadWake tile thread s
  | .waittExpiry tile thread => Sys2Proof.Machine.execWaittExpiry tile thread s
  | .launchStart pid lnum => Sys2Proof.Machine.execLaunchStart pid lnum s
  | .regionCycle r => Sys2Proof.Machine.execRegionCycle r s
  | .regionBoundary r => Sys2Proof.Machine.execRegionBoundary r s
  | .regionResume r => Sys2Proof.Machine.execRegionResume r s
  | .regionStart r => Sys2Proof.Machine.execRegionStart r s
  | .phaseRewrite r => Sys2Proof.Machine.execPhaseRewrite r s
  | .regionDrainTokens r => Sys2Proof.Machine.execRegionDrainTokens r s
  | .latchArrival pe port value => Sys2Proof.Machine.execLatchArrival pe port value s
  | .storeOpPerform tile chn => Sys2Proof.Machine.execStoreOpPerform tile chn s
  | .predFlitSend tile rid q => Sys2Proof.Machine.execPredFlitSend tile rid q s
  | .matrixStart tile => Sys2Proof.Machine.execMatrixStart tile s
  | .mslotAdvance tile => Sys2Proof.Machine.execMslotAdvance tile s
  | .matrixResume tile => Sys2Proof.Machine.execMatrixResume tile s
  | .matrixEntryComplete tile entry => Sys2Proof.Machine.execMatrixEntryComplete tile entry s
  | .signalWrite tile => Sys2Proof.Machine.execSignalWrite tile s
  | .matrixRunEnd tile => Sys2Proof.Machine.execMatrixRunEnd tile s
  | .streamElement tile ctx => Sys2Proof.Machine.execStreamElement tile ctx s
  | .streamComplete tile ctx => Sys2Proof.Machine.execStreamComplete tile ctx s
  | .copyComplete tile => Sys2Proof.Machine.execCopyComplete tile s
  | .vxferComplete tile idx => Sys2Proof.Machine.execVxferComplete tile idx s
  | .tensorLineComplete tile cnum => Sys2Proof.Machine.execTensorLineComplete tile cnum s
  | .generationWalkEnd pid tid => Sys2Proof.Machine.execGenerationWalkEnd pid tid s
  | .homeSliceAccess req => Sys2Proof.Machine.execHomeSliceAccess req s
  | .llcFillComplete pid tag => Sys2Proof.Machine.execLlcFillComplete pid tag s
  | .llcWriteback pid tag => Sys2Proof.Machine.execLlcWriteback pid tag s
  | .blockExpansion tile vc => Sys2Proof.Machine.execBlockExpansion tile vc s
  | .expansionComplete tile vc => Sys2Proof.Machine.execExpansionComplete tile vc s
  | .transmitterSlot tx => Sys2Proof.Machine.execTransmitterSlot tx s
  | .zwiluFlitReceive tile flit good => Sys2Proof.Machine.execZwiluFlitReceive tile flit good s
  | .refusalReceive tx group seq => Sys2Proof.Machine.execRefusalReceive tx group seq s
  | .haltNotice h => Sys2Proof.Machine.execHaltNotice h s
  | .domainHaltStart => Sys2Proof.Machine.execDomainHaltStart s
  | .haltResend tx => Sys2Proof.Machine.execHaltResend tx s
  | .haltClear => Sys2Proof.Machine.execHaltClear s
  | .domainStallTimeout => Sys2Proof.Machine.execDomainStallTimeout s
  | .edgeTokenArrival eyelet tag sender token => Sys2Proof.Machine.execEdgeTokenArrival eyelet tag sender token s
  | .sweep pid lnum => Sys2Proof.Machine.execSweep pid lnum s
  | .routerForward flit => Sys2Proof.Machine.execRouterForward flit s
  | .meshFlitArrival flit check => Sys2Proof.Machine.execMeshFlitArrival flit check s
  | .meshReplay src dst vc seq => Sys2Proof.Machine.execMeshReplay src dst vc seq s
  | .meshAcknowledgement src dst vc seq => Sys2Proof.Machine.execMeshAcknowledgement src dst vc seq s
  | .treeNodeCombine tile flit => Sys2Proof.Machine.execTreeNodeCombine tile flit s
  | .scatterReduceApply tile unit => Sys2Proof.Machine.execScatterReduceApply tile unit s
  | .messageDelivery tile flit => Sys2Proof.Machine.execMessageDelivery tile flit s
  | .remoteWrite tile flit => Sys2Proof.Machine.execRemoteWrite tile flit s
  | .drainToken tile channel => Sys2Proof.Machine.execDrainToken tile channel s
  | .barrierArrival pid lnum bar parties tile thread => Sys2Proof.Machine.execBarrierArrival pid lnum bar parties tile thread s
  | .barrierCompletion pid lnum bar tile => Sys2Proof.Machine.execBarrierCompletion pid lnum bar tile s
  | .collectiveCallComplete pid lnum tile node call => Sys2Proof.Machine.execCollectiveCallComplete pid lnum tile node call s
  | .queueWriteError pid q => Sys2Proof.Machine.execQueueWriteError pid q s
  | .launchPacket pid q src bytes => Sys2Proof.Machine.execLaunchPacket pid q src bytes s
  | .patchPacket pid q src bytes => Sys2Proof.Machine.execPatchPacket pid q src bytes s
  | .bindPacket pid q src bytes => Sys2Proof.Machine.execBindPacket pid q src bytes s
  | .bindComplete pid handle img => Sys2Proof.Machine.execBindComplete pid handle img s
  | .unbindPacket pid q src bytes => Sys2Proof.Machine.execUnbindPacket pid q src bytes s
  | .qrelResume pid q => Sys2Proof.Machine.execQrelResume pid q s
  | .qrelAbort pid q => Sys2Proof.Machine.execQrelAbort pid q s
  | .dispatch pid => Sys2Proof.Machine.execDispatch pid s
  | .agingStep pid q => Sys2Proof.Machine.execAgingStep pid q s
  | .configurationComplete pid lnum => Sys2Proof.Machine.execConfigurationComplete pid lnum s
  | .launchEnd pid lnum => Sys2Proof.Machine.execLaunchEnd pid lnum s
  | .powerWindow pid => Sys2Proof.Machine.execPowerWindow pid s
  | .operatingPointStep tile => Sys2Proof.Machine.execOperatingPointStep tile s
  | .pageWalkComplete walk => Sys2Proof.Machine.execPageWalkComplete walk s
  | .registerWrite reg value => Sys2Proof.Machine.execRegisterWrite reg value s
  | .tstatWrite tile thread value => Sys2Proof.Machine.execTstatWrite tile thread value s
  | .tvecWrite tile machine value => Sys2Proof.Machine.execTvecWrite tile machine value s
  | .ptrootWrite pid value => Sys2Proof.Machine.execPtrootWrite pid value s
  | .evlogWrite pid value => Sys2Proof.Machine.execEvlogWrite pid value s
  | .pclkWrite pid value => Sys2Proof.Machine.execPclkWrite pid value s
  | .cselWrite tile sel value => Sys2Proof.Machine.execCselWrite tile sel value s
  | .lbwWrite tile path value => Sys2Proof.Machine.execLbwWrite tile path value s
  | .gateWrite tile value => Sys2Proof.Machine.execGateWrite tile value s
  | .unitWakeComplete tile unit => Sys2Proof.Machine.execUnitWakeComplete tile unit s
  | .cutSlot pid lnum => Sys2Proof.Machine.execCutSlot pid lnum s
  | .elementCut pid lnum elem => Sys2Proof.Machine.execElementCut pid lnum elem s
  | .picotArrival pid lnum elem input => Sys2Proof.Machine.execPicotArrival pid lnum elem input s
  | .cutComplete pid lnum => Sys2Proof.Machine.execCutComplete pid lnum s
  | .snapshotInterval pid lnum => Sys2Proof.Machine.execSnapshotInterval pid lnum s
  | .restore pid lnum => Sys2Proof.Machine.execRestore pid lnum s
  | .rollback pid lnum sub => Sys2Proof.Machine.execRollback pid lnum sub s
  | .scrubPass store damage => Sys2Proof.Machine.execScrubPass store damage s
  | .verticalBusTest tile bus ev => Sys2Proof.Machine.execVerticalBusTest tile bus ev s
  | .tileRetirement tile => Sys2Proof.Machine.execTileRetirement tile s
  | .eyeletFlitReceive e flit good => Sys2Proof.Machine.execEyeletFlitReceive e flit good s
  | .eyeletAcknowledgement e seq => Sys2Proof.Machine.execEyeletAcknowledgement e seq s
  | .replayRequest e seq => Sys2Proof.Machine.execReplayRequest e seq s
  | .replayTimeout e => Sys2Proof.Machine.execReplayTimeout e s
  | .laneMarginal e lane margin => Sys2Proof.Machine.execLaneMarginal e lane margin s
  | .laneChangeNotice e change => Sys2Proof.Machine.execLaneChangeNotice e change s
  | .resumeSlotZ e dir => Sys2Proof.Machine.execResumeSlotZ e dir s
  | .lossOfLight e dark => Sys2Proof.Machine.execLossOfLight e dark s
  | .laneTrained e lane => Sys2Proof.Machine.execLaneTrained e lane s
  | .lightReturn e lane => Sys2Proof.Machine.execLightReturn e lane s
  | .spareLock e => Sys2Proof.Machine.execSpareLock e s
  | .spareLockTimeout e => Sys2Proof.Machine.execSpareLockTimeout e s
  | .spareBarExpiry e => Sys2Proof.Machine.execSpareBarExpiry e s
  | .laserFault slot => Sys2Proof.Machine.execLaserFault slot s
  | .edgeSwitchSlot e => Sys2Proof.Machine.execEdgeSwitchSlot e s
  | .syncFrame sender count err => Sys2Proof.Machine.execSyncFrame sender count err s
  | .copyHeader e tag sender off tile len id => Sys2Proof.Machine.execCopyHeader e tag sender off tile len id s
  | .copyData e tag sender data => Sys2Proof.Machine.execCopyData e tag sender data s
  | .copyDone e tag sender id status => Sys2Proof.Machine.execCopyDone e tag sender id status s
  | .partset r => Sys2Proof.Machine.execPartset r s
  | .palloc pid alloc => Sys2Proof.Machine.execPalloc pid alloc s
  | .suspend => Sys2Proof.Machine.execSuspend s
  | .suspendDeadline pid lnum => Sys2Proof.Machine.execSuspendDeadline pid lnum s
  | .resume => Sys2Proof.Machine.execResume s
  | .fwstage block image svn => Sys2Proof.Machine.execFwstage block image svn s
  | .fwact block => Sys2Proof.Machine.execFwact block s
  | .firmwareActivation block ok => Sys2Proof.Machine.execFirmwareActivation block ok s
  | .tretire tile => Sys2Proof.Machine.execTretire tile s
  | .sretire stack => Sys2Proof.Machine.execSretire stack s
  | .laser slot into => Sys2Proof.Machine.execLaser slot into s
  | .ereg e op => Sys2Proof.Machine.execEreg e op s
  | .llog first count => Sys2Proof.Machine.execLlog first count s
  | .spdmRequest nonce => Sys2Proof.Machine.execSpdmRequest nonce s
  | .bringUp report => Sys2Proof.Machine.execBringUp report s
  | .illegalInstruction w => Sys2Proof.Machine.execIllegalInstruction w s
  | .undefinedDWord w => Sys2Proof.Machine.execUndefinedDWord w s
  | .suspendHaltTimeout => Sys2Proof.Machine.execSuspendHaltTimeout s
  | .suspendComplete => Sys2Proof.Machine.execSuspendComplete s

end Sys2Proof.Machine
end

