-- ==== Sys2Proof/Machine/Issue.lean ====
section
/-! DEFINITION. What holds a thread's next instruction back, and what an issued one leaves behind: results that are not ready,
activation-store accesses that are outstanding, and the cycles of the banks (spec 02 R33, R34, 08 R175, R176, Table 08-1). -/

namespace Sys2Proof.Machine

/-- The general registers that an instruction names, as sources or destination; JAL links g30 (R137, R138). -/
def registers (i : Instr) : List GReg :=
  match i with
  | .add d a b _ => [d, a, b]
  | .sub d a b _ => [d, a, b]
  | .and d a b _ => [d, a, b]
  | .or d a b _ => [d, a, b]
  | .xor d a b _ => [d, a, b]
  | .andn d a b _ => [d, a, b]
  | .shl d a b _ => [d, a, b]
  | .shr d a b _ => [d, a, b]
  | .sar d a b _ => [d, a, b]
  | .rotl d a b _ => [d, a, b]
  | .min d a b _ => [d, a, b]
  | .max d a b _ => [d, a, b]
  | .minu d a b _ => [d, a, b]
  | .maxu d a b _ => [d, a, b]
  | .clz d a _ => [d, a]
  | .popc d a _ => [d, a]
  | .mul d a b _ => [d, a, b]
  | .mulh d a b _ => [d, a, b]
  | .mulhu d a b _ => [d, a, b]
  | .div d a b _ => [d, a, b]
  | .divu d a b _ => [d, a, b]
  | .rem d a b _ => [d, a, b]
  | .remu d a b _ => [d, a, b]
  | .addi d a _ _ => [d, a]
  | .andi d a _ _ => [d, a]
  | .ori d a _ _ => [d, a]
  | .xori d a _ _ => [d, a]
  | .shli d a _ _ => [d, a]
  | .shri d a _ _ => [d, a]
  | .sari d a _ _ => [d, a]
  | .lui d _ _ => [d]
  | .lix d _ _ => [d]
  | .cmp _ a b _ _ => [a, b]
  | .cmpi _ a _ _ _ => [a]
  | .pget d _ => [d]
  | .sel d a b _ => [d, a, b]
  | .addr1 d a b _ => [d, a, b]
  | .addr2 d a b _ => [d, a, b]
  | .addr4 d a b _ => [d, a, b]
  | .addr8 d a b _ => [d, a, b]
  | .bfx d a b _ => [d, a, b]
  | .bfi d a b _ => [d, a, b]
  | .cpack d a b _ => [d, a, b]
  | .cunpk d a _ => [d, a]
  | .tileid d _ => [d]
  | .thid d _ => [d]
  | .ccnt d _ => [d]
  | .scnt d _ => [d]
  | .jal _ _ _ => [30]
  | .jalr d a _ _ => [d, a]
  | .loop d _ _ => [d]
  | .wake a _ => [a]
  | .waitt a _ => [a]
  | .waite a _ => [a]
  | .ld d a _ _ _ => [d, a]
  | .lds d a _ _ _ => [d, a]
  | .st d a _ _ _ => [d, a]
  | .ldf d a _ _ => [d, a]
  | .ldfe d a _ _ => [d, a]
  | .stef d a _ _ => [d, a]
  | .stf d a _ _ => [d, a]
  | .sete a _ _ => [a]
  | .setf a _ _ => [a]
  | .peekf d a _ _ => [d, a]
  | .ldg d a _ _ _ => [d, a]
  | .stg d a _ _ _ => [d, a]
  | .atom d a b _ _ _ _ => [d, a, b]
  | .cas d a b _ _ _ => [d, a, b]
  | .red a b _ _ _ _ => [a, b]
  | .send a b _ _ => [a, b]
  | .sendp a b _ _ => [a, b]
  | .qpoll d _ _ => [d]
  | .qwait d _ _ => [d]
  | .strmBind a b _ => [a, b]
  | .strmStart a _ => [a]
  | .strmCancel a _ => [a]
  | .strmStat d a _ => [d, a]
  | .scopy d a b _ => [d, a, b]
  | .vxfer a b _ => [a, b]
  | .ltdef a b _ => [a, b]
  | .ltld d a b _ => [d, a, b]
  | .ltst d a b _ => [d, a, b]
  | .ltpf a b _ => [a, b]
  | .lthalo a b _ => [a, b]
  | .ltinv a _ => [a]
  | .ltwb a _ => [a]
  | .ltq d a b _ => [d, a, b]
  | .bar a _ => [a]
  | .bara a _ => [a]
  | .barw a _ => [a]
  | .cstep a _ => [a]
  | .rndk d a b _ => [d, a, b]
  | .fload a b _ => [a, b]
  | .fgo a b _ => [a, b]
  | .fphase a b _ => [a, b]
  | .fstop a _ => [a]
  | .fstat d a _ => [d, a]
  | .mxload a b _ => [a, b]
  | .mxgo a _ => [a]
  | .mxdrain a b _ => [a, b]
  | .mxclr a _ => [a]
  | .mxstat d a _ => [d, a]
  | .lnch d a b _ => [d, a, b]
  | .evsig a _ => [a]
  | .evwait a _ => [a]
  | .csrr d _ _ => [d]
  | .csrw d _ _ => [d]
  | .tlbinv a b _ => [a, b]
  | .cutm a _ => [a]
  | .cfgld a b _ => [a, b]
  | _ => []

/-- The guard of a sequencer instruction (R140): SEL, the branches and calls and the prefixes have none. A CSR number that
names no CSR is left out. -/
def guardOf (i : Instr) : Option PReg :=
  match i with
  | .add _ _ _ p => some p
  | .sub _ _ _ p => some p
  | .and _ _ _ p => some p
  | .or _ _ _ p => some p
  | .xor _ _ _ p => some p
  | .andn _ _ _ p => some p
  | .shl _ _ _ p => some p
  | .shr _ _ _ p => some p
  | .sar _ _ _ p => some p
  | .rotl _ _ _ p => some p
  | .min _ _ _ p => some p
  | .max _ _ _ p => some p
  | .minu _ _ _ p => some p
  | .maxu _ _ _ p => some p
  | .clz _ _ p => some p
  | .popc _ _ p => some p
  | .mul _ _ _ p => some p
  | .mulh _ _ _ p => some p
  | .mulhu _ _ _ p => some p
  | .div _ _ _ p => some p
  | .divu _ _ _ p => some p
  | .rem _ _ _ p => some p
  | .remu _ _ _ p => some p
  | .addi _ _ p _ => some p
  | .andi _ _ p _ => some p
  | .ori _ _ p _ => some p
  | .xori _ _ p _ => some p
  | .shli _ _ p _ => some p
  | .shri _ _ p _ => some p
  | .sari _ _ p _ => some p
  | .lui _ p _ => some p
  | .lix _ p _ => some p
  | .cmp _ _ _ p _ => some p
  | .cmpi _ _ p _ _ => some p
  | .pand _ _ _ p => some p
  | .por _ _ _ p => some p
  | .pxor _ _ _ p => some p
  | .pnot _ _ p => some p
  | .pmov _ _ p => some p
  | .pget _ p => some p
  | .addr1 _ _ _ p => some p
  | .addr2 _ _ _ p => some p
  | .addr4 _ _ _ p => some p
  | .addr8 _ _ _ p => some p
  | .bfx _ _ _ p => some p
  | .bfi _ _ _ p => some p
  | .cpack _ _ _ p => some p
  | .cunpk _ _ p => some p
  | .tileid _ p => some p
  | .thid _ p => some p
  | .ccnt _ p => some p
  | .scnt _ p => some p
  | .loop _ p _ => some p
  | .yield p => some p
  | .park p => some p
  | .wake _ p => some p
  | .waitt _ p => some p
  | .waite _ p => some p
  | .haltt p => some p
  | .ld _ _ p _ _ => some p
  | .lds _ _ p _ _ => some p
  | .st _ _ p _ _ => some p
  | .ldf _ _ p _ => some p
  | .ldfe _ _ p _ => some p
  | .stef _ _ p _ => some p
  | .stf _ _ p _ => some p
  | .sete _ p _ => some p
  | .setf _ p _ => some p
  | .peekf _ _ p _ => some p
  | .ldg _ _ p _ _ => some p
  | .stg _ _ p _ _ => some p
  | .atom _ _ _ p _ _ _ => some p
  | .cas _ _ _ p _ _ => some p
  | .red _ _ p _ _ _ => some p
  | .fenceT p => some p
  | .fenceC p => some p
  | .fenceP p => some p
  | .fenceS p => some p
  | .drain p => some p
  | .send _ _ p _ => some p
  | .sendp _ _ p _ => some p
  | .qpoll _ p _ => some p
  | .qwait _ p _ => some p
  | .strmBind _ _ p => some p
  | .strmStart _ p => some p
  | .strmCancel _ p => some p
  | .strmStat _ _ p => some p
  | .scopy _ _ _ p => some p
  | .vxfer _ _ p => some p
  | .ltdef _ _ p => some p
  | .ltld _ _ _ p => some p
  | .ltst _ _ _ p => some p
  | .ltpf _ _ p => some p
  | .lthalo _ _ p => some p
  | .ltinv _ p => some p
  | .ltwb _ p => some p
  | .ltq _ _ _ p => some p
  | .bar _ p => some p
  | .bara _ p => some p
  | .barw _ p => some p
  | .cstep _ p => some p
  | .rndk _ _ _ p => some p
  | .fload _ _ p => some p
  | .fgo _ _ p => some p
  | .fphase _ _ p => some p
  | .fstop _ p => some p
  | .fstat _ _ p => some p
  | .mxload _ _ p => some p
  | .mxgo _ p => some p
  | .mxdrain _ _ p => some p
  | .mxclr _ p => some p
  | .mxstat _ _ p => some p
  | .lnch _ _ _ p => some p
  | .evsig _ p => some p
  | .evwait _ p => some p
  | .csrr _ n p => if (csrOf n).isSome then some p else none
  | .csrw _ n p => if (csrOf n).isSome then some p else none
  | .tret p => some p
  | .tlbinv _ _ p => some p
  | .cutm _ p => some p
  | .cfgld _ _ p => some p
  | .haltc p => some p
  | .trap p _ => some p
  | _ => none

/-- The instruction whose registers and address are at hand: of a pair, the repetition that is next (R144, R145). -/
def issuedForm (s : State) (i : Instr) : Option Instr :=
  match i with
  | .rlx w => decodeSeqWord w.toNat
  | .rpt _ srd sra srb _ w =>
    let k := if inRepetition s.me then s.me.next.toNat else 0
    (decodeSeqWord w.toNat).map (fun j => mapRegs j (stepReg k srd) (stepReg k sra) (stepReg k srb))
  | i => some i

/-- The guard is read at issue, and by RPT at its entry alone (R140, R145). -/
def guardHolds (s : State) (i : Instr) : Bool :=
  match i with
  | .rpt _ _ _ _ _ _ =>
    inRepetition s.me || (match (issuedForm s i).bind guardOf with | some p => s.me.pred p | none => true)
  | i => match (issuedForm s i).bind guardOf with | some p => s.me.pred p | none => true

/-- The cycles after which a result of more than 8 cycles is usable, and its register (Table 08-1). -/
def slowResult (i : Instr) : Option (GReg × Nat) :=
  match i with
  | .mul d _ _ _ | .mulh d _ _ _ | .mulhu d _ _ _ => some (d, 16)
  | .div d _ _ _ | .divu d _ _ _ | .rem d _ _ _ | .remu d _ _ _ => some (d, 72)
  | .atom d _ _ _ 0 _ _ | .cas d _ _ _ 0 _ => some (d, 16)
  | .ld d _ _ _ _ | .lds d _ _ _ _ | .peekf d _ _ _ | .ldf d _ _ _ | .ldfe d _ _ _ => some (d, 8)
  | _ => none

/-- The activation-store offset of an access that reaches a bank at issue (R176). -/
def storeAddress (s : State) (i : Instr) : Option Nat :=
  match i with
  | .ld _ a _ sz j | .lds _ a _ sz j | .st _ a _ sz j => some (ea s a sz.toNat j).toNat
  | .ldf _ a _ j | .ldfe _ a _ j | .stef _ a _ j | .stf _ a _ j | .sete a _ j | .setf a _ j | .peekf _ a _ j => some (ea s a 3 j).toNat
  | .atom _ a _ _ 0 _ _ | .cas _ a _ _ 0 _ => some (s.g a).toNat
  | _ => none

/-- An access marked with RLX, which is not held behind one that is outstanding (R96, R176). -/
def marked (i : Instr) : Bool :=
  match i with
  | .rlx _ | .rpt _ _ _ _ true _ => true
  | _ => false

/-- A load, which is outstanding until its data return (R176). -/
def isLoad (i : Instr) : Bool :=
  match i with
  | .ld _ _ _ _ _ | .lds _ _ _ _ _ | .peekf _ _ _ _ | .ldf _ _ _ _ | .ldfe _ _ _ _ => true
  | _ => false

/-- A fence, which waits for the thread's own outstanding access (Table 04-5). -/
def isFence (i : Instr) : Bool :=
  match i with
  | .fenceT _ | .fenceC _ | .fenceP _ | .fenceS _ | .drain _ | .haltt _ => true
  | _ => false

/-- The instruction needs nothing that is not yet available: no register of it has a result to come, and an unmarked
activation-store access finds none outstanding (R33, R176, Table 02-1). -/
def needsReady (s : State) (i : Instr) : Bool :=
  match issuedForm s i with
  | none => true
  | some j =>
    (registers j).all (fun r => decide (tabGet 0 s.me.slow r.toNat ≤ s.cycle)) &&
      (!((storeAddress s j).isSome && !marked i || isFence j) || decide (s.me.storeUntil ≤ s.cycle))

/-- The thread has gone on behind the instruction or to the next repetition, or it waits in a waiter entry of the bank. -/
def reachedBank (s t : State) : Bool :=
  t.me.inh == s.me.inh &&
    (t.me.pc == s.cur.npc || (t.me.pc == s.me.pc && t.me.rptAt == some s.me.pc && t.me.next.toNat == s.me.next.toNat + 1) ||
      (match t.me.st with | .parked (.word _) => true | _ => false))

/-- Results that are not ready yet, and the register of one that will be ready in a cycle (Table 08-1). -/
def noteSlow (s : State) (r : Option (GReg × Nat)) (wait : Nat) : State :=
  let l := s.me.slow.filter (fun e => decide (s.cycle < e.2))
  match r with
  | none => s.setMe { s.me with slow := l }
  | some (d, n) =>
    s.setMe { s.me with slow := if d = 0 ∨ n + wait ≤ 8 then l else tabPut l d.toNat (s.cycle + n + wait) }

/-- What an instruction that reached its bank leaves behind: its result comes after the bank wait, and an unmarked access is
outstanding until it is performed, a load until its data return (R176). -/
def noteAccess (s : State) (i j : Instr) (wait : Nat) : State :=
  let parks := match s.me.st with | .parked _ => true | _ => false
  let s := noteSlow s (if parks then none else slowResult j) wait
  if marked i || parks then s
  else s.setMe { s.me with storeUntil := s.cycle + wait + (if isLoad j then 8 else 1) }

/-- The instruction that was read is performed. -/
def perform (s : State) (i : Instr) : Out :=
  match i with
  | .rpt c x y z r w => if inRepetition s.me then execRptRepetition s else exec (.rpt c x y z r w) s
  | i => exec i s

/-- The instruction issues: an access takes the next free cycle of its bank, a result of Table 08-1 comes later; one that needs
what is not available leaves the thread Waiting (R33, R34, R176). -/
def issueInstr (s : State) (i : Instr) : Out :=
  if !needsReady s i then .next (s.setMe { s.me with st := .waiting .retry })
  else
    match issuedForm s i with
    | none => perform s i
    | some j =>
      match (if guardHolds s i then storeAddress s j else none) with
      | none =>
        match perform s i with
        | .next t => .next (if reachedBank s t && guardHolds s i then noteSlow t (slowResult j) 0 else t)
        | o => o
      | some a =>
        let b := bankOf a
        match perform (s.setHere (takeBank s.cycle s.here b)) i with
        | .next t => if reachedBank s t then .next (noteAccess t i j (bankCycle s.here s.cycle b - s.cycle)) else perform s i
        | o => o

end Sys2Proof.Machine
end

