-- ==== Sys2Proof/WellFormed.lean ====
section
/-! DEFINITION. Well-formed instructions: the operands that Tables 06-2 to 06-16 can encode and 06-9 and R155 do not
refuse, and, for events, the numbers of units that exist (spec 01, 05, 15, 18). -/

namespace Sys2Proof

def tileOk (t : Nat) : Bool := decide (t < Config.numTiles)
def threadOk (t n : Nat) : Bool := tileOk t && decide (n < 8)
def partOk (p : Nat) : Bool := decide (p < 64)
def queueOk (p q : Nat) : Bool := partOk p && decide (q < 64)
def chanOk (c : Nat) : Bool := decide (c < Config.numSequencers)
def peOk (n : Nat) : Bool := decide (n < 512 * 512)
def eyeletOk (e : Nat) : Bool := decide (e < Config.numEyelets)
def bankOk (ch pc : Nat) : Bool := chanOk ch && decide (pc < 2)

/-- The units that a register written by REGISTER_WRITE belongs to exist. -/
def plainRegOk (r : PlainReg) : Bool :=
  match r with
  | .fflags t n | .tcause t n | .tepc t n | .tval t n | .tscr t n => threadOk t n
  | .shared t n => tileOk t && decide (n < 16)
  | .readOnly _ => true
  | .qcfg p q | .qstat p q => queueOk p q

/-- Operands that the encodings admit; every check names its rule. -/
def Instr.wf (i : Instr) : Bool :=
  match i with
  | .add _ _ _ _ => true
  | .sub _ _ _ _ => true
  | .and _ _ _ _ => true
  | .or _ _ _ _ => true
  | .xor _ _ _ _ => true
  | .andn _ _ _ _ => true
  | .shl _ _ _ _ => true
  | .shr _ _ _ _ => true
  | .sar _ _ _ _ => true
  | .rotl _ _ _ _ => true
  | .min _ _ _ _ => true
  | .max _ _ _ _ => true
  | .minu _ _ _ _ => true
  | .maxu _ _ _ _ => true
  | .clz _ _ _ => true
  | .popc _ _ _ => true
  | .mul _ _ _ _ => true
  | .mulh _ _ _ _ => true
  | .mulhu _ _ _ _ => true
  | .div _ _ _ _ => true
  | .divu _ _ _ _ => true
  | .rem _ _ _ _ => true
  | .remu _ _ _ _ => true
  | .addi _ _ _ _ => true
  | .andi _ _ _ _ => true
  | .ori _ _ _ _ => true
  | .xori _ _ _ _ => true
  | .shli _ _ _ _ => true
  | .shri _ _ _ _ => true
  | .sari _ _ _ _ => true
  | .lui _ _ _ => true
  | .lix _ _ _ => true
  | .cmp _ _ _ _ c => decide (c.toNat < 6)
  | .cmpi _ _ _ c _ => decide (c.toNat < 6)
  | .pand _ _ _ _ => true
  | .por _ _ _ _ => true
  | .pxor _ _ _ _ => true
  | .pnot _ _ _ => true
  | .pmov _ _ _ => true
  | .pget _ _ => true
  | .sel _ _ _ _ => true
  | .addr1 _ _ _ _ => true
  | .addr2 _ _ _ _ => true
  | .addr4 _ _ _ _ => true
  | .addr8 _ _ _ _ => true
  | .bfx _ _ _ _ => true
  | .bfi _ _ _ _ => true
  | .cpack _ _ _ _ => true
  | .cunpk _ _ _ => true
  | .tileid _ _ => true
  | .thid _ _ => true
  | .ccnt _ _ => true
  | .scnt _ _ => true
  | .br p n _ => !(p == 0 && n == 1)
  | .jal p n _ => !(p == 0 && n == 1)
  | .jalr _ _ _ _ => true
  | .loop _ _ _ => true
  | .yield _ => true
  | .park _ => true
  | .wake _ _ => true
  | .waitt _ _ => true
  | .waite _ _ => true
  | .haltt _ => true
  | .ld _ _ _ _ _ => true
  | .lds _ _ _ s _ => s != 3
  | .st _ _ _ _ _ => true
  | .ldf _ _ _ _ => true
  | .ldfe _ _ _ _ => true
  | .stef _ _ _ _ => true
  | .stf _ _ _ _ => true
  | .sete _ _ _ => true
  | .setf _ _ _ => true
  | .peekf _ _ _ _ => true
  | .ldg _ _ _ _ _ => true
  | .stg _ _ _ _ _ => true
  | .atom _ _ _ _ _ w o => atomOp o w
  | .cas _ _ _ _ _ _ => true
  | .red _ _ _ _ w o => atomOp o w && o != 8
  | .fenceT _ => true
  | .fenceC _ => true
  | .fenceP _ => true
  | .fenceS _ => true
  | .drain _ => true
  | .send _ _ _ q => decide (2 ≤ q.toNat)
  | .sendp _ _ _ q => decide (2 ≤ q.toNat)
  | .qpoll _ _ q => decide (q.toNat < 2)
  | .qwait _ _ q => decide (q.toNat < 2)
  | .strmBind _ _ _ => true
  | .strmStart _ _ => true
  | .strmCancel _ _ => true
  | .strmStat _ _ _ => true
  | .scopy _ _ _ _ => true
  | .vxfer _ _ _ => true
  | .ltdef _ _ _ => true
  | .ltld _ _ _ _ => true
  | .ltst _ _ _ _ => true
  | .ltpf _ _ _ => true
  | .lthalo _ _ _ => true
  | .ltinv _ _ => true
  | .ltwb _ _ => true
  | .ltq _ _ _ _ => true
  | .bar _ _ => true
  | .bara _ _ => true
  | .barw _ _ => true
  | .cstep _ _ => true
  | .rndk _ _ _ _ => true
  | .fload _ _ _ => true
  | .fgo _ _ _ => true
  | .fphase _ _ _ => true
  | .fstop _ _ => true
  | .fstat _ _ _ => true
  | .mxload _ _ _ => true
  | .mxgo _ _ => true
  | .mxdrain _ _ _ => true
  | .mxclr _ _ => true
  | .mxstat _ _ _ => true
  | .lnch _ _ _ _ => true
  | .evsig _ _ => true
  | .evwait _ _ => true
  | .csrr _ _ _ => true
  | .csrw _ _ _ => true
  | .tret _ => true
  | .tlbinv _ _ _ => true
  | .cutm _ _ => true
  | .cfgld _ _ _ => true
  | .haltc _ => true
  | .trap _ _ => true
  | .rpt c x y z r w => 
    (if r then rptRelaxed (bits w.toNat 26 6) else rptOpcode (bits w.toNat 26 6)) && (decodeSeqWord w.toNat).isSome &&
      rptAllowed c.toNat x y z r w.toNat
  | .rlx w => ((decodeSeqWord w.toNat).map rlxAllowed).getD false
  | .rptRepetition => true
  | .debugStop tile thread => threadOk tile thread
  | .nop _ _ => true
  | .mov _ _ _ _ => true
  | .selp _ _ _ _ _ => true
  | .fadd _ _ _ _ _ => true
  | .fsub _ _ _ _ _ => true
  | .fmul _ _ _ _ _ => true
  | .ffma _ _ _ _ _ => true
  | .fmin _ _ _ _ _ => true
  | .fmax _ _ _ _ _ => true
  | .fabs _ _ _ _ => true
  | .fneg _ _ _ _ => true
  | .fcmplt _ _ _ _ _ => true
  | .fcmpeq _ _ _ _ _ => true
  | .hadd2 _ _ _ _ _ => true
  | .hmul2 _ _ _ _ _ => true
  | .hfma2 _ _ _ _ _ => true
  | .hmax2 _ _ _ _ _ => true
  | .iadd _ _ _ _ _ => true
  | .isub _ _ _ _ _ => true
  | .imul _ _ _ _ _ => true
  | .imad _ _ _ _ _ => true
  | .iand _ _ _ _ _ => true
  | .ior _ _ _ _ _ => true
  | .ixor _ _ _ _ _ => true
  | .ishl _ _ _ _ _ => true
  | .ishr _ _ _ _ _ => true
  | .isar _ _ _ _ _ => true
  | .imin _ _ _ _ _ => true
  | .imax _ _ _ _ _ => true
  | .icmplt _ _ _ _ _ => true
  | .icmpeq _ _ _ _ _ => true
  | .cvtif _ _ _ _ => true
  | .cvtfi _ _ _ _ => true
  | .cvtbf _ _ _ _ => true
  | .cvtbfs _ _ _ _ _ => true
  | .cvte4 _ _ _ _ => true
  | .cvte5 _ _ _ _ => true
  | .cvte4s _ _ _ _ _ => true
  | .pack2 _ _ _ _ _ => true
  | .unpk _ _ _ _ => true
  | .frcp _ _ _ _ => true
  | .frsq _ _ _ _ => true
  | .fexp2 _ _ _ _ => true
  | .flog2 _ _ _ _ => true
  | .prnd _ _ _ _ _ => true
  | .pld _ a _ _ => a != 30
  | .pst _ a b _ => a != 30 && b != 30
  | .pred _ a _ => a != 30
  | .jnx _ _ _ _ _ => true
  | .jnu _ _ _ _ _ => true
  | .route _ _ _ _ => true
  | .mnop _ => true
  | .mma _ _ _ _ _ f _ => matrixFormat f
  | .mmas _ _ _ _ _ f _ => matrixFormat f
  | .mzero _ _ => true
  | .msig _ _ => true
  | .mwait _ _ => true
  | .mdrain _ _ _ o r => o != 3 && !(r == 1 && o == 0)
  | .mend _ => true
  | .dnop _ _ => true
  | .dact _ _ _ _ _ _ => true
  | .dpre _ _ _ _ _ => true
  | .dprea _ _ _ => true
  | .drd _ _ _ _ _ _ _ _ _ _ => true
  | .drda _ _ _ _ _ _ _ _ _ _ => true
  | .dwr _ _ _ _ _ _ _ _ _ => true
  | .dwra _ _ _ _ _ _ _ _ _ => true
  | .drefab _ _ _ => true
  | .drefpb _ _ _ _ _ => true
  | .drfm _ _ _ _ _ => true
  | .dsre _ _ => true
  | .dsrx _ _ => true
  | .dframe _ _ _ => true
  | .ddem _ _ _ => true
  | .dloop _ _ _ => true
  | .dend _ _ => true
  | .dmrs _ _ _ _ _ => true
  | .refreshDebtRise ch => chanOk ch
  | .idleFrameRun ch => chanOk ch
  | .refreshKeeperRefresh ch pc => bankOk ch pc
  | .laneDataEntry ch _ _ _ _ => chanOk ch
  | .demandSlot ch => chanOk ch
  | .threadWake tile thread => threadOk tile thread
  | .waittExpiry tile thread => threadOk tile thread
  | .launchStart pid _ => partOk pid
  | .regionCycle _ => true
  | .regionBoundary _ => true
  | .regionResume _ => true
  | .regionStart _ => true
  | .phaseRewrite _ => true
  | .regionDrainTokens _ => true
  | .latchArrival pe _ _ => peOk pe
  | .storeOpPerform tile _ => tileOk tile
  | .predFlitSend tile _ _ => tileOk tile
  | .matrixStart tile => tileOk tile
  | .mslotAdvance tile => tileOk tile
  | .matrixResume tile => tileOk tile
  | .matrixEntryComplete tile _ => tileOk tile
  | .signalWrite tile => tileOk tile
  | .matrixRunEnd tile => tileOk tile
  | .streamElement tile ctx => tileOk tile && decide (ctx < 16)
  | .streamComplete tile ctx => tileOk tile && decide (ctx < 16)
  | .copyComplete tile => tileOk tile
  | .vxferComplete tile _ => tileOk tile
  | .tensorLineComplete tile _ => tileOk tile
  | .generationWalkEnd pid tid => partOk pid && decide (tid < 4096)
  | .homeSliceAccess _ => true
  | .llcFillComplete pid _ => partOk pid
  | .llcWriteback pid _ => partOk pid
  | .blockExpansion tile _ => tileOk tile
  | .expansionComplete tile _ => tileOk tile
  | .transmitterSlot tx => chanOk tx
  | .zwiluFlitReceive tile _ _ => tileOk tile
  | .refusalReceive tx _ _ => chanOk tx
  | .haltNotice _ => true
  | .domainHaltStart => true
  | .haltResend tx => chanOk tx
  | .haltClear => true
  | .domainStallTimeout => true
  | .edgeTokenArrival eyelet _ _ _ => eyeletOk eyelet
  | .sweep pid _ => partOk pid
  | .routerForward _ => true
  | .meshFlitArrival _ _ => true
  | .meshReplay _ _ _ _ => true
  | .meshAcknowledgement _ _ _ _ => true
  | .treeNodeCombine tile _ => tileOk tile
  | .scatterReduceApply tile _ => tileOk tile
  | .messageDelivery tile _ => tileOk tile
  | .remoteWrite tile _ => tileOk tile
  | .drainToken tile _ => tileOk tile
  | .barrierArrival pid _ k _ tile thread => threadOk tile thread && partOk pid && decide (k < 16)
  | .barrierCompletion pid _ k tile => tileOk tile && partOk pid && decide (k < 16)
  | .collectiveCallComplete pid _ tile _ _ => tileOk tile && partOk pid
  | .queueWriteError pid q => queueOk pid q
  | .launchPacket pid q _ _ => queueOk pid q
  | .patchPacket pid q _ _ => queueOk pid q
  | .bindPacket pid q _ _ => queueOk pid q
  | .bindComplete pid handle _ => partOk pid && decide (handle < 1024)
  | .unbindPacket pid q _ _ => queueOk pid q
  | .qrelResume pid q => queueOk pid q
  | .qrelAbort pid q => queueOk pid q
  | .dispatch pid => partOk pid
  | .agingStep pid q => queueOk pid q
  | .configurationComplete pid _ => partOk pid
  | .launchEnd pid _ => partOk pid
  | .powerWindow pid => partOk pid
  | .operatingPointStep tile => tileOk tile
  | .pageWalkComplete _ => true
  | .registerWrite reg _ => plainRegOk reg
  | .tstatWrite tile thread _ => threadOk tile thread
  | .tvecWrite tile _ _ => tileOk tile
  | .ptrootWrite pid _ => partOk pid
  | .evlogWrite pid _ => partOk pid
  | .pclkWrite pid _ => partOk pid
  | .cselWrite tile _ _ => tileOk tile
  | .lbwWrite tile _ _ => tileOk tile
  | .gateWrite tile _ => tileOk tile
  | .unitWakeComplete tile _ => tileOk tile
  | .cutSlot pid _ => partOk pid
  | .elementCut pid _ _ => partOk pid
  | .picotArrival pid _ _ _ => partOk pid
  | .cutComplete pid _ => partOk pid
  | .snapshotInterval pid _ => partOk pid
  | .restore pid _ => partOk pid
  | .rollback pid _ _ => partOk pid
  | .scrubPass _ _ => true
  | .verticalBusTest tile _ _ => tileOk tile
  | .tileRetirement tile => tileOk tile
  | .eyeletFlitReceive e _ _ => eyeletOk e
  | .eyeletAcknowledgement e _ => eyeletOk e
  | .replayRequest e _ => eyeletOk e
  | .replayTimeout e => eyeletOk e
  | .laneMarginal e lane _ => eyeletOk e && decide (lane < 17)
  | .laneChangeNotice e _ => eyeletOk e
  | .resumeSlotZ e _ => eyeletOk e
  | .lossOfLight e _ => eyeletOk e
  | .laneTrained e lane => eyeletOk e && decide (lane < 17)
  | .lightReturn e lane => eyeletOk e && decide (lane < 17)
  | .spareLock e => eyeletOk e
  | .spareLockTimeout e => eyeletOk e
  | .spareBarExpiry e => eyeletOk e
  | .laserFault slot => decide (slot < Config.numLaserSlots)
  | .edgeSwitchSlot e => eyeletOk e
  | .syncFrame _ _ _ => true
  | .copyHeader e _ _ _ tile _ _ => tileOk tile && eyeletOk e
  | .copyData e _ _ _ => eyeletOk e
  | .copyDone e _ _ _ _ => eyeletOk e
  | .partset _ => true
  | .palloc pid _ => partOk pid
  | .suspend => true
  | .suspendDeadline pid _ => partOk pid
  | .resume => true
  | .fwstage _ _ _ => true
  | .fwact _ => true
  | .firmwareActivation _ _ => true
  | .tretire tile => tileOk tile
  | .sretire stack => decide (stack < 48)
  | .laser slot _ => decide (slot < Config.numLaserSlots)
  | .ereg e _ => eyeletOk e
  | .llog _ _ => true
  | .spdmRequest _ => true
  | .bringUp _ => true
  | .illegalInstruction _ => true
  | .undefinedDWord _ => true
  | .suspendHaltTimeout => true
  | .suspendComplete => true

/-- The units that an event of the agenda names exist: the same checks. -/
def Event.wf (i : Event) : Bool :=
  match i with
  | .refreshDebtRise ch => chanOk ch
  | .idleFrameRun ch => chanOk ch
  | .refreshKeeperRefresh ch pc => bankOk ch pc
  | .laneDataEntry ch _ _ _ _ => chanOk ch
  | .demandSlot ch => chanOk ch
  | .threadWake tile thread => threadOk tile thread
  | .waittExpiry tile thread => threadOk tile thread
  | .launchStart pid _ => partOk pid
  | .regionCycle _ => true
  | .regionBoundary _ => true
  | .regionResume _ => true
  | .regionStart _ => true
  | .phaseRewrite _ => true
  | .regionDrainTokens _ => true
  | .latchArrival pe _ _ => peOk pe
  | .storeOpPerform tile _ => tileOk tile
  | .predFlitSend tile _ _ => tileOk tile
  | .matrixStart tile => tileOk tile
  | .mslotAdvance tile => tileOk tile
  | .matrixResume tile => tileOk tile
  | .matrixEntryComplete tile _ => tileOk tile
  | .signalWrite tile => tileOk tile
  | .matrixRunEnd tile => tileOk tile
  | .streamElement tile ctx => tileOk tile && decide (ctx < 16)
  | .streamComplete tile ctx => tileOk tile && decide (ctx < 16)
  | .copyComplete tile => tileOk tile
  | .vxferComplete tile _ => tileOk tile
  | .tensorLineComplete tile _ => tileOk tile
  | .generationWalkEnd pid tid => partOk pid && decide (tid < 4096)
  | .homeSliceAccess _ => true
  | .llcFillComplete pid _ => partOk pid
  | .llcWriteback pid _ => partOk pid
  | .blockExpansion tile _ => tileOk tile
  | .expansionComplete tile _ => tileOk tile
  | .transmitterSlot tx => chanOk tx
  | .zwiluFlitReceive tile _ _ => tileOk tile
  | .refusalReceive tx _ _ => chanOk tx
  | .haltNotice _ => true
  | .domainHaltStart => true
  | .haltResend tx => chanOk tx
  | .haltClear => true
  | .domainStallTimeout => true
  | .edgeTokenArrival eyelet _ _ _ => eyeletOk eyelet
  | .sweep pid _ => partOk pid
  | .routerForward _ => true
  | .meshFlitArrival _ _ => true
  | .meshReplay _ _ _ _ => true
  | .meshAcknowledgement _ _ _ _ => true
  | .treeNodeCombine tile _ => tileOk tile
  | .scatterReduceApply tile _ => tileOk tile
  | .messageDelivery tile _ => tileOk tile
  | .remoteWrite tile _ => tileOk tile
  | .drainToken tile _ => tileOk tile
  | .barrierArrival pid _ k _ tile thread => threadOk tile thread && partOk pid && decide (k < 16)
  | .barrierCompletion pid _ k tile => tileOk tile && partOk pid && decide (k < 16)
  | .collectiveCallComplete pid _ tile _ _ => tileOk tile && partOk pid
  | .queueWriteError pid q => queueOk pid q
  | .launchPacket pid q _ _ => queueOk pid q
  | .patchPacket pid q _ _ => queueOk pid q
  | .bindPacket pid q _ _ => queueOk pid q
  | .bindComplete pid handle _ => partOk pid && decide (handle < 1024)
  | .unbindPacket pid q _ _ => queueOk pid q
  | .qrelResume pid q => queueOk pid q
  | .qrelAbort pid q => queueOk pid q
  | .dispatch pid => partOk pid
  | .agingStep pid q => queueOk pid q
  | .configurationComplete pid _ => partOk pid
  | .launchEnd pid _ => partOk pid
  | .powerWindow pid => partOk pid
  | .operatingPointStep tile => tileOk tile
  | .pageWalkComplete _ => true
  | .registerWrite reg _ => plainRegOk reg
  | .tstatWrite tile thread _ => threadOk tile thread
  | .tvecWrite tile _ _ => tileOk tile
  | .ptrootWrite pid _ => partOk pid
  | .evlogWrite pid _ => partOk pid
  | .pclkWrite pid _ => partOk pid
  | .cselWrite tile _ _ => tileOk tile
  | .lbwWrite tile _ _ => tileOk tile
  | .gateWrite tile _ => tileOk tile
  | .unitWakeComplete tile _ => tileOk tile
  | .cutSlot pid _ => partOk pid
  | .elementCut pid _ _ => partOk pid
  | .picotArrival pid _ _ _ => partOk pid
  | .cutComplete pid _ => partOk pid
  | .snapshotInterval pid _ => partOk pid
  | .restore pid _ => partOk pid
  | .rollback pid _ _ => partOk pid
  | .scrubPass _ _ => true
  | .verticalBusTest tile _ _ => tileOk tile
  | .tileRetirement tile => tileOk tile
  | .eyeletFlitReceive e _ _ => eyeletOk e
  | .eyeletAcknowledgement e _ => eyeletOk e
  | .replayRequest e _ => eyeletOk e
  | .replayTimeout e => eyeletOk e
  | .laneMarginal e lane _ => eyeletOk e && decide (lane < 17)
  | .laneChangeNotice e _ => eyeletOk e
  | .resumeSlotZ e _ => eyeletOk e
  | .lossOfLight e _ => eyeletOk e
  | .laneTrained e lane => eyeletOk e && decide (lane < 17)
  | .lightReturn e lane => eyeletOk e && decide (lane < 17)
  | .spareLock e => eyeletOk e
  | .spareLockTimeout e => eyeletOk e
  | .spareBarExpiry e => eyeletOk e
  | .laserFault slot => decide (slot < Config.numLaserSlots)
  | .edgeSwitchSlot e => eyeletOk e
  | .syncFrame _ _ _ => true
  | .copyHeader e _ _ _ tile _ _ => tileOk tile && eyeletOk e
  | .copyData e _ _ _ => eyeletOk e
  | .copyDone e _ _ _ _ => eyeletOk e
  | .partset _ => true
  | .palloc pid _ => partOk pid
  | .suspend => true
  | .suspendDeadline pid _ => partOk pid
  | .resume => true
  | .fwstage _ _ _ => true
  | .fwact _ => true
  | .firmwareActivation _ _ => true
  | .tretire tile => tileOk tile
  | .sretire stack => decide (stack < 48)
  | .laser slot _ => decide (slot < Config.numLaserSlots)
  | .ereg e _ => eyeletOk e
  | .llog _ _ => true
  | .spdmRequest _ => true
  | .bringUp _ => true
  | .illegalInstruction _ => true
  | .undefinedDWord _ => true
  | .suspendHaltTimeout => true
  | .suspendComplete => true
  | .debugStop tile thread => threadOk tile thread
  | .wordFlaw _ => true

end Sys2Proof
end

