-- ==== Sys2Proof/Machine/Turn.lean ====
section
/-! DEFINITION. How a piece of work runs (log 1): a thread issues, a PE executes its slot, the matrix engine fires an
entry, a sequencer issues a D-word, an event happens (spec 02 R33, R38, R41, 06 R140, 07 R160, 09 R238). -/

namespace Sys2Proof.Machine

/-- An event's meaning: the one that `exec` gives the instruction of that name. -/
def runEvent (e : Event) (s : State) : Out :=
  match e with
  | .refreshDebtRise ch => execRefreshDebtRise ch s
  | .idleFrameRun ch => execIdleFrameRun ch s
  | .refreshKeeperRefresh ch pc => execRefreshKeeperRefresh ch pc s
  | .laneDataEntry ch kind idx data close => execLaneDataEntry ch kind idx data close s
  | .demandSlot ch => execDemandSlot ch s
  | .threadWake tile thread => execThreadWake tile thread s
  | .waittExpiry tile thread => execWaittExpiry tile thread s
  | .launchStart pid lnum => execLaunchStart pid lnum s
  | .regionCycle r => execRegionCycle r s
  | .regionBoundary r => execRegionBoundary r s
  | .regionResume r => execRegionResume r s
  | .regionStart r => execRegionStart r s
  | .phaseRewrite r => execPhaseRewrite r s
  | .regionDrainTokens r => execRegionDrainTokens r s
  | .latchArrival pe port value => execLatchArrival pe port value s
  | .storeOpPerform tile chn => execStoreOpPerform tile chn s
  | .predFlitSend tile rid q => execPredFlitSend tile rid q s
  | .matrixStart tile => execMatrixStart tile s
  | .mslotAdvance tile => execMslotAdvance tile s
  | .matrixResume tile => execMatrixResume tile s
  | .matrixEntryComplete tile entry => execMatrixEntryComplete tile entry s
  | .signalWrite tile => execSignalWrite tile s
  | .matrixRunEnd tile => execMatrixRunEnd tile s
  | .streamElement tile ctx => execStreamElement tile ctx s
  | .streamComplete tile ctx => execStreamComplete tile ctx s
  | .copyComplete tile => execCopyComplete tile s
  | .vxferComplete tile idx => execVxferComplete tile idx s
  | .tensorLineComplete tile cnum => execTensorLineComplete tile cnum s
  | .generationWalkEnd pid tid => execGenerationWalkEnd pid tid s
  | .homeSliceAccess req => execHomeSliceAccess req s
  | .llcFillComplete pid tag => execLlcFillComplete pid tag s
  | .llcWriteback pid tag => execLlcWriteback pid tag s
  | .blockExpansion tile vc => execBlockExpansion tile vc s
  | .expansionComplete tile vc => execExpansionComplete tile vc s
  | .transmitterSlot tx => execTransmitterSlot tx s
  | .zwiluFlitReceive tile flit damage => execZwiluFlitReceive tile flit damage s
  | .refusalReceive tx group seq => execRefusalReceive tx group seq s
  | .haltNotice h => execHaltNotice h s
  | .domainHaltStart => execDomainHaltStart s
  | .haltResend tx => execHaltResend tx s
  | .haltClear => execHaltClear s
  | .domainStallTimeout => execDomainStallTimeout s
  | .edgeTokenArrival eyelet tag sender token => execEdgeTokenArrival eyelet tag sender token s
  | .sweep pid lnum => execSweep pid lnum s
  | .routerForward flit => execRouterForward flit s
  | .meshFlitArrival flit good => execMeshFlitArrival flit good s
  | .meshReplay src dst vc seq => execMeshReplay src dst vc seq s
  | .meshAcknowledgement src dst vc seq => execMeshAcknowledgement src dst vc seq s
  | .treeNodeCombine tile flit => execTreeNodeCombine tile flit s
  | .scatterReduceApply tile unit => execScatterReduceApply tile unit s
  | .messageDelivery tile flit => execMessageDelivery tile flit s
  | .remoteWrite tile flit => execRemoteWrite tile flit s
  | .drainToken tile channel => execDrainToken tile channel s
  | .barrierArrival pid lnum bar parties tile thread => execBarrierArrival pid lnum bar parties tile thread s
  | .barrierCompletion pid lnum bar tile => execBarrierCompletion pid lnum bar tile s
  | .collectiveCallComplete pid lnum tile node call => execCollectiveCallComplete pid lnum tile node call s
  | .queueWriteError pid q => execQueueWriteError pid q s
  | .launchPacket pid q src bytes => execLaunchPacket pid q src bytes s
  | .patchPacket pid q src bytes => execPatchPacket pid q src bytes s
  | .bindPacket pid q src bytes => execBindPacket pid q src bytes s
  | .bindComplete pid handle img => execBindComplete pid handle img s
  | .unbindPacket pid q src bytes => execUnbindPacket pid q src bytes s
  | .qrelResume pid q => execQrelResume pid q s
  | .qrelAbort pid q => execQrelAbort pid q s
  | .dispatch pid => execDispatch pid s
  | .agingStep pid q => execAgingStep pid q s
  | .configurationComplete pid lnum => execConfigurationComplete pid lnum s
  | .launchEnd pid lnum => execLaunchEnd pid lnum s
  | .powerWindow pid => execPowerWindow pid s
  | .operatingPointStep tile => execOperatingPointStep tile s
  | .pageWalkComplete walk => execPageWalkComplete walk s
  | .registerWrite reg value => execRegisterWrite reg value s
  | .tstatWrite tile thread value => execTstatWrite tile thread value s
  | .tvecWrite tile machine value => execTvecWrite tile machine value s
  | .ptrootWrite pid value => execPtrootWrite pid value s
  | .evlogWrite pid value => execEvlogWrite pid value s
  | .pclkWrite pid value => execPclkWrite pid value s
  | .cselWrite tile sel value => execCselWrite tile sel value s
  | .lbwWrite tile path value => execLbwWrite tile path value s
  | .gateWrite tile value => execGateWrite tile value s
  | .unitWakeComplete tile unit => execUnitWakeComplete tile unit s
  | .cutSlot pid lnum => execCutSlot pid lnum s
  | .elementCut pid lnum elem => execElementCut pid lnum elem s
  | .picotArrival pid lnum elem input => execPicotArrival pid lnum elem input s
  | .cutComplete pid lnum => execCutComplete pid lnum s
  | .snapshotInterval pid lnum => execSnapshotInterval pid lnum s
  | .restore pid lnum => execRestore pid lnum s
  | .rollback pid lnum sub => execRollback pid lnum sub s
  | .scrubPass store damage => execScrubPass store damage s
  | .verticalBusTest tile bus ev => execVerticalBusTest tile bus ev s
  | .tileRetirement tile => execTileRetirement tile s
  | .eyeletFlitReceive e flit damage => execEyeletFlitReceive e flit damage s
  | .eyeletAcknowledgement e seq => execEyeletAcknowledgement e seq s
  | .replayRequest e seq => execReplayRequest e seq s
  | .replayTimeout e => execReplayTimeout e s
  | .laneMarginal e lane margin => execLaneMarginal e lane margin s
  | .laneChangeNotice e change => execLaneChangeNotice e change s
  | .resumeSlotZ e dir => execResumeSlotZ e dir s
  | .lossOfLight e dark => execLossOfLight e dark s
  | .laneTrained e lane => execLaneTrained e lane s
  | .lightReturn e lane => execLightReturn e lane s
  | .spareLock e => execSpareLock e s
  | .spareLockTimeout e => execSpareLockTimeout e s
  | .spareBarExpiry e => execSpareBarExpiry e s
  | .laserFault slot => execLaserFault slot s
  | .edgeSwitchSlot e => execEdgeSwitchSlot e s
  | .syncFrame sender count err => execSyncFrame sender count err s
  | .copyHeader e tag sender off tile len id => execCopyHeader e tag sender off tile len id s
  | .copyData e tag sender data => execCopyData e tag sender data s
  | .copyDone e tag sender id status => execCopyDone e tag sender id status s
  | .partset r => execPartset r s
  | .palloc pid alloc => execPalloc pid alloc s
  | .suspend => execSuspend s
  | .suspendDeadline pid lnum => execSuspendDeadline pid lnum s
  | .resume => execResume s
  | .fwstage block image svn => execFwstage block image svn s
  | .fwact block => execFwact block s
  | .firmwareActivation block ok => execFirmwareActivation block ok s
  | .tretire tile => execTretire tile s
  | .sretire stack => execSretire stack s
  | .laser slot into => execLaser slot into s
  | .ereg e op => execEreg e op s
  | .llog first count => execLlog first count s
  | .spdmRequest nonce => execSpdmRequest nonce s
  | .bringUp report => execBringUp report s
  | .illegalInstruction w => execIllegalInstruction w s
  | .undefinedDWord w => execUndefinedDWord w s
  | .suspendHaltTimeout => execSuspendHaltTimeout s
  | .suspendComplete => execSuspendComplete s
  | .debugStop tile thread => execDebugStop tile thread s
  | .wordFlaw flaw => .next (putFlaw s flaw)

/-! ### Threads (R32, R33, R132, R316, R323, R361) -/

/-- The thread may issue: Running or trying again, on a tile that does not stand still, before its own cut, and not a shadow,
which does what its primary does; no thread issues while the tile's instructions are written again (R33, R54, R369, R379,
R381). -/
def mayIssue (s : State) (tile t : Nat) : Bool :=
  let x := s.tile tile
  let h := x.thread t
  (h.st == .running || h.st == .waiting .retry) && !x.stopped && !s.reloading.contains (.instructions tile) &&
    !elementIsCut s tile (.thread tile t) &&
    !(x.core.shadowOf.isSome && x.core.shadowMask.getLsbD (t % 8))

/-- The thread begins to issue the instruction at its pc, which has `words` words and the first word `w`. -/
def beginIssue (s : State) (tile t words : Nat) (w : Word32) : State :=
  let x := s.tile tile
  let h := x.thread t
  { s.setTile tile { x.setThread t { h with st := .running, issued := false } with active := true } with
    cur := { s.cur with
      tile := tile, thread := t, ipc := h.pc, npc := h.pc + BitVec.ofNat 64 (4 * words), word := w } }

/-- A thread's own cycle: a debug stop is taken; HALTT stands in for the instruction of a halted core, unless that instruction was
issued before the halt and has waited for a walk since; a word that cannot be fetched is cause 0x06, an illegal one cause 0x01
(R134, R316, R323, R361). -/
def threadTurn (s : State) (tile t : Nat) : Out :=
  let x := s.tile tile
  let h := x.thread t
  let ws := fetchWords x h h.pc
  let w := ws.headD 0
  if !mayIssue s tile t then .next s
  else if h.debug && !x.core.haltc then
    let s := beginIssue s tile t 1 w
    .next (takeTrap (s.setMe { s.me with debug := false }) tile t 0x13 0 0 h.pc)
  else if x.core.haltc && !h.issued then execHaltt 0 (beginIssue s tile t 0 w)
  else
    match decodeSeq ws with
    | .instr i n => issueInstr (beginIssue s tile t n w) i
    | .illegal v => execIllegalInstruction v (beginIssue s tile t 1 w)
    | .missing n =>
      let s := beginIssue s tile t 1 w
      .next (takeTrap s tile t 0x06 0 (h.pc + BitVec.ofNat 64 (4 * n)) h.pc)

/-- The eastern core shadows this thread (R381). -/
def paired (s : State) (tile t : Nat) : Bool :=
  let c := (s.tile (tile + 1)).core
  c.shadowOf == some tile && c.shadowMask.getLsbD (t % 8)

/-- The shadow of a thread holds what the thread holds (R381). -/
def mirrorThread (tile t : Nat) (s : State) : State :=
  if paired s tile t then s.setTile (tile + 1) ((s.tile (tile + 1)).setThread t (s.thread tile t)) else s

/-- A state map after an outcome. -/
def andThen (o : Out) (f : State → State) : Out :=
  match o with
  | .next s => .next (f s)
  | .fault r => .fault r
  | .refused r => .refused r

/-- The write-backs differ: nothing of the instruction is written, a record is posted, and it is issued again in the
thread's next own cycle. The second time at one instruction raises cause 0x0E with SUB 6 (R381, R376). -/
def pairDiffers (s : State) (tile t : Nat) : State :=
  let h := s.thread tile t
  let u := s.setThread tile t { h with mismatch := true }
  match (s.tile tile).place with
  | none => u
  | some pl =>
    let u := post u pl.pid 0x14 0 0 0 tile (launchQueue s pl.pid pl.lnum) pl.lnum
      (natBytes 2 tile ++ natBytes 1 t ++ natBytes 5 0 ++ natBytes 8 h.pc.toNat)
    if h.mismatch then u.event (.rollback pl.pid pl.lnum 6) else u

/-- A thread's own cycle on a core that may be paired: the write-backs are compared (R381), and differ only where a core fails,
which is a free value (log 29). -/
def pairTurn (tile t : Nat) (s : State) : Out :=
  if paired s tile t && mayIssue s tile t then
    if Config.pairMismatch s.free then .next (mirrorThread tile t (pairDiffers s.nextFree tile t))
    else andThen (threadTurn (s.nextFree.setThread tile t { s.thread tile t with mismatch := false }) tile t) (mirrorThread tile t)
  else andThen (threadTurn s tile t) (mirrorThread tile t)

/-! ### Processing elements, matrix engines, sequencers -/

/-- The PE begins its slot: its region, its number and the register-address word of the slot (R36, R154). -/
def beginPe (s : State) (r pe : Nat) : State :=
  { s with cur := { s.cur with region := r, pe := pe, ra := raAt (s.pe pe) (s.region r).slot.toNat } }

/-- The op word of a PE in a slot of its region. -/
def peOpTurn (s : State) (r pe : Nat) : Out :=
  let s := beginPe s r pe
  match decodeFabric (opAt (s.pe pe) (s.region r).slot.toNat).toNat with
  | some i => exec i s
  | none => .next s

/-- The route word of a PE in a slot of its region. -/
def peRouteTurn (s : State) (r pe : Nat) : Out :=
  let s := beginPe s r pe
  exec (decodeRoute (routeAt (s.pe pe) (s.region r).slot.toNat).toNat) s

/-- A matrix entry whose slot has begun (R291). -/
def matrixEntryTurn (s : State) (tile entry : Nat) : Out :=
  let s := { s with cur := { s.cur with tile := tile, entry := entry } }
  match decodeMatrix ((s.tile tile).matrix.entry entry).toNat with
  | some i => exec i s
  | none => .next s

/-- The D-word at a sequencer's index; the next one follows in this cycle if its MCK has come (R238). -/
def commandTurn (s : State) (n : Nat) : Out :=
  match (s.chan n).words[(s.chan n).pos]? with
  | none => .next s
  | some w =>
    let s := { s with cur := { s.cur with chan := n, dword := w } }
    andThen (match decodeD w.toNat with
      | some i => exec i s
      | none => execUndefinedDWord w s)
      (fun s => if commandDue s n then s.enqueue (.command n) else s)

end Sys2Proof.Machine
end

