-- ==== Sys2Proof/Machine/Tick.lean ====
section
/-! DEFINITION. The next core cycle, once the agenda is empty: the clocks advance, what has become due happens, and every
unit's work of the cycle is put on the agenda (spec 01 R4, 02 R33, R38 to R44, R49, 05 R111, R116, R117, 09 R238, 14 R328,
15 R341, R342, 18 R390, R391, 19 R410). -/

namespace Sys2Proof.Machine

/-! ### Work that is due -/

/-- The timers whose cycle has come, and the others. -/
def dueNow (s : State) : List Work := (s.timers.filter (fun (t, _) => decide (t ≤ s.cycle))).map (·.2)
def notDue (s : State) : List (Nat × Work) := s.timers.filter (fun (t, _) => !decide (t ≤ s.cycle))

/-- The threads whose own cycle this is: thread CCNT mod 8 of each tile (R33). -/
def ownThreads (s : State) : List Work :=
  s.tiles.filterMap (fun (t, _) =>
    let n := (s.ccnt t).toNat % 8
    if mayIssue s t n then some (.thread t n) else none)

/-- Regions that run or try to resume, and those that have ended and owe their drain tokens (R38, R41, R262). -/
def regionWork (s : State) : List Work :=
  s.regions.flatMap (fun (k, r) =>
    if r.held then []
    else if r.st = 1 then [.event (.regionCycle k)]
    else if r.st = 2 then [.event (.regionResume k)]
    else if owesDrains r && regionSettled s k then [.event (.regionDrainTokens k)]
    else [])

/-- A tile's matrix engine, its signal queue and its expansions (R287, R291, R297). -/
def engineWork (s : State) : List Work :=
  s.tiles.flatMap (fun (t, x) =>
    if x.stopped ∨ x.matrix.held then []
    else
      (if x.matrix.st = 2 then [Work.event (.mslotAdvance t)] else if x.matrix.st = 3 then [.event (.matrixResume t)] else []) ++
        (if (signalReady x.matrix).isSome then [Work.event (.signalWrite t)] else []) ++
        (x.bobbin.staging.filter (fun (v, _) => (canExpand x v).isSome)).map (fun (v, _) => Work.event (.blockExpansion t v)))

/-- Queues that wait for a dispatch, and the end of a sweep window for heads that wait (R341, R342). -/
def queueWork (s : State) : List Work :=
  s.parts.flatMap (fun (pid, p) =>
    (if p.dispatching.isNone ∧ s.suspend = .running ∧ p.queues.toList.any (fun q => !q.packets.isEmpty) then
      [Work.event (.dispatch pid)] else []) ++
    (if s.cycle % Config.sweepCycles = 0 then
      ((List.range 64).filter (fun q => (p.queue q).ready.isSome)).map (fun q => Work.event (.agingStep pid q)) else []))

/-- Replays that are due (R391). -/
def replayWork (s : State) : List Work :=
  (s.eyelets.filter (fun (_, x) => replayDue x.tx s.cycle)).map (fun (e, _) => .event (.replayTimeout e))

/-- Launches whose start slot has come (R49). -/
def startWork (s : State) : List Work :=
  s.parts.flatMap (fun (pid, p) =>
    (p.launches.filter (fun (_, l) => l.phase == .starting && decide (l.s0 ≤ s.gslot))).map (fun (n, _) => .event (.launchStart pid n)))

/-- What each slot brings, in order; `counted` says that the slot counter advanced (R116, R328, R407, R410). -/
def slotWork (s : State) (counted : Bool) : List Work :=
  (if s.halt.declared.isSome && !s.halt.active then [Work.event .domainHaltStart] else []) ++
    (if s.halt.active && decide (s.halt.since = 2 ^ 20) then [.event .domainStallTimeout] else []) ++
    (if counted && decide (s.gslot % Config.powerWindowSlots = 0) then
      (s.parts.filter (fun (_, p) => p.present)).map (fun (pid, _) => .event (.powerWindow pid)) else []) ++
    (s.tiles.filter (fun (_, x) => x.place.isSome)).map (fun (t, _) => .event (.operatingPointStep t)) ++ startWork s ++
    (s.txs.filter (fun (_, t) => t.launch.isSome)).map (fun (n, _) => .event (.transmitterSlot n)) ++
    s.eyelets.map (fun (e, _) => .event (.edgeSwitchSlot e))

/-! ### The clocks -/

/-- When this module's flits and staging allow it during a halt, it reports clear, once (R117). -/
def reportClear (s : State) : State :=
  if s.halt.active && haltIsClear s && !s.halt.reported then haltReport (onEyelets s (controlFlit 4 0 0 0)) none s.cycle else s

/-- The slot counter stands still in a halt and while the module is suspended (R116, R415). -/
def counts (s : State) : Bool := !s.halt.active && (match s.suspend with | .suspended _ => false | _ => true)

/-- The first cycle of a slot: the counter, the slot clock's slew, the monitors, the halt's length. -/
def slotBegins (s : State) : State :=
  reportClear { s with
    gslot := if counts s then s.gslot + 1 else s.gslot
    slotError := slew s.slotError
    tiles := s.tiles.map (fun (t, x) => (t, sampleMonitor (s.cycle / 8) t x))
    halt := { s.halt with since := if s.halt.active then s.halt.since + 1 else s.halt.since } }

/-- Arcs of live launches are fed, their collective calls advance, and results of ended regions land (R46, R252, R258, R262,
R306). -/
def flowOn (s : State) : State :=
  let live := s.parts.flatMap (fun (pid, p) => (p.launches.filter (fun (_, l) => l.phase == .live)).map (fun (n, _) => (pid, n)))
  let s := live.foldl (fun s (pid, n) => orderTokens (launchCalls (feedArcs s pid n) pid n) pid n) s
  let ended := keysWhere s.regions (fun _ r => regionIdle r && !r.held && (regionPes r).any (fun p => !(s.pe p).inflight.isEmpty))
  ended.foldl (fun s k => landEnded k s) s

/-- The units begin their cycle, once what has become due in it has happened (R14): threads first (log 2), the host's arrivals
last, so that a stall, a stop or an end record of the cycle goes before them (R348). -/
def beginUnits (s : State) : State :=
  let threads := ownThreads s
  let s := flowOn s
  let (now, later) := takeArrivals s.arrivals []
  { s with
    arrivals := later
    agenda := threads ++ s.agenda ++ regionWork s ++ engineWork s ++ s.chans.flatMap (fun (n, _) => chanWork s n) ++
      replayWork s ++ queueWork s ++ now }

/-- The next core cycle: what is due, what the slot brings, then the units. -/
def tick (s : State) : State :=
  let s := { s with cycle := s.cycle + 1 }
  let due := dueNow s
  let s := { s with
    agenda := due.filter (fun w => !isArrival w), timers := notDue s
    arrivals := s.arrivals ++ (due.filter isArrival).foldl insertArrival [] }
  let counted := decide (s.cycle % 8 = 0) && counts s
  let s := if s.cycle % 8 = 0 then slotBegins s else s
  { s with agenda := s.agenda ++ (if s.cycle % 8 = 0 then slotWork s counted else []) ++ [.units] }

end Sys2Proof.Machine
end

