-- ==== Sys2Proof/Machine/Agenda.lean ====
section
/-! DEFINITION. The agenda (log 1, log 2): which piece of work comes next, and running it. -/

namespace Sys2Proof.Machine

/-- The units that a piece of work names exist (R25 to R27). -/
def workOk (w : Work) : Bool :=
  match w with
  | .thread t n => tileOk t && decide (n < 8)
  | .peOp _ k | .peRoute _ k => peOk k
  | .commit _ => true
  | .matrix t e => tileOk t && decide (e < 64)
  | .matrixWork t => tileOk t
  | .command n => chanOk n
  | .event e => e.wf
  | .units => true

/-- The tile of an event was active in the window (R52); a frozen engine that tries its cycle again is not. -/
def touch (s : State) (e : Event) : State :=
  match e, workTile (.event e) with
  | .matrixResume _, _ | _, none => s
  | _, some t => s.modTile t (fun x => { x with active := true })

/-- The tiles of a region were active in the window (R52). -/
def touchRegion (s : State) (r : Nat) : State :=
  (((regionPes (s.region r)).map peTile).eraseDups).foldl (fun s t => s.modTile t (fun x => { x with active := true })) s

/-- One piece of work. -/
def runWork (w : Work) (s : State) : Out :=
  match w with
  | .thread tile t => pairTurn tile t s
  | .peOp r k => peOpTurn s r k
  | .peRoute r k => peRouteTurn s r k
  | .commit r => .next (commitRegion r (touchRegion s r))
  | .matrix tile e => matrixEntryTurn s tile e
  | .matrixWork tile => .next (matrixWork tile (s.modTile tile (fun x => { x with active := true })))
  | .command n => commandTurn s n
  | .event e => runEvent e (touch s e)
  | .units => .next (beginUnits s)

/-- The threads that issue in one cycle stand first in the agenda, one for each tile. -/
def turnsAhead (l : List Work) : Nat :=
  match l with
  | .thread _ _ :: r => turnsAhead r + 1
  | _ => 0

/-- Which piece of work is taken: the first one, or, where several threads issue in this cycle, the one that `sched` names
(log 2). -/
def pickIndex (s : State) : Nat :=
  match s.sched with
  | [] => 0
  | k :: _ => if turnsAhead s.agenda = 0 then 0 else k % turnsAhead s.agenda

/-- The work taken from the agenda, and what remains. -/
def takeWork (s : State) : Option (Work × State) :=
  let k := pickIndex s
  match s.agenda[k]? with
  | none => none
  | some w =>
    some (w, { s with
      agenda := s.agenda.eraseIdx k, sched := if turnsAhead s.agenda = 0 then s.sched else s.sched.tail })

end Sys2Proof.Machine
end

