-- ==== Sys2Proof/Machine/Fetch.lean ====
section
/-! DEFINITION. Placing one word where a unit reads its next instruction: what a loader writes for it and no more (log 1). -/

namespace Sys2Proof.Machine

/-- A sequencer word, and zeros behind it, at the pc of thread 0 of tile 0, within its program; the thread issues next. -/
def fetchSequencer (s : State) (w : Nat) : State :=
  let x := s.tile 0
  let h := x.thread 0
  let h := { h with
    st := .running, lo := min h.lo h.pc.toNat, hi := max h.hi (h.pc.toNat + 12), rptAt := none, next := 0, debug := false
    slow := [], storeUntil := 0 }
  let s := if paired s 0 0 then s.modTile 1 (fun y => { y with core := { y.core with shadowOf := none } }) else s
  { s.setTile 0 { x.setThread 0 h with
      core := { (x.setThread 0 h).core with imem := memStore x.core.imem h.pc.toNat 12 w, haltc := false, shadowOf := none }
      place := none, stopped := false } with
    agenda := [.thread 0 0], sched := [], reloading := s.reloading.filter (fun c => c != .instructions 0) }

/-- A region of PE 0 alone in its first cycle. -/
def fetchRegion (s : State) (x : PE) (w : Work) : State :=
  let r := { Region.reset with w := 1, h := 1, sv := 1, iter := 1, st := 1, loaded := true }
  { (s.setRegion 0 r).setPe 0 { x with region := some 0, opRing := ⟨0, 1⟩, routeRing := ⟨0, 1⟩, raRing := ⟨0, 1⟩ } with
    agenda := [w], sched := [] }

/-- A fabric op word in entry 0 of PE 0; an op of stage s is in a stage that is valid. -/
def fetchOp (s : State) (w : Nat) : State :=
  let x := s.pe 0
  let s := fetchRegion s { x with ops := x.ops.set 0 (BitVec.ofNat 24 w) } (.peOp 0 0)
  s.setRegion 0 { s.region 0 with sv := 1#8 <<< (w / 2 ^ 15 % 8), smax := BitVec.ofNat 3 (w / 2 ^ 15) }

/-- A route word in entry 0 of PE 0. -/
def fetchRoute (s : State) (w : Nat) : State :=
  let x := s.pe 0
  fetchRegion s { x with routes := x.routes.set 0 (BitVec.ofNat 16 w) } (.peRoute 0 0)

/-- A matrix word in entry 0 of tile 0, due in the slot at hand. -/
def fetchMatrix (s : State) (w : Nat) : State :=
  let x := s.tile 0
  { s.setTile 0 { x with matrix := { x.matrix with
      table := x.matrix.table.set 0 (BitVec.ofNat 64 w), st := 2, due := [0], ending := false, held := false } } with
    agenda := [.matrix 0 0], sched := [] }

/-- A D-word at index 0 of sequencer 0, of a program whose launch has just started. -/
def fetchCommand (s : State) (w : Nat) : State :=
  let c := s.chan 0
  { s.setChan 0 { c with
      words := [BitVec.ofNat 64 w], index := 0, idlePos := none, launch := some (0, 0), keeper := false, last := s.mck
      noDelta := true } with
    agenda := [.command 0], sched := [] }

/-- Two sequencer words, or else a matrix word, or else a D-word, as decodeTableWord reads them. -/
def fetchLong (s : State) (w : Nat) : State :=
  match decodeFamily .sequencer 2 w with
  | some (.lix _ _ _) => fetchSequencer s w
  | some (.rpt _ _ _ _ _ _) => fetchSequencer s w
  | some (.rlx _) => fetchSequencer s w
  | _ => if (decodeMatrix w).isSome then fetchMatrix s w else fetchCommand s w

end Sys2Proof.Machine
end

