-- ==== Sys2Proof/Machine/Step.lean ====
section
/-! DEFINITION. One step of the module, and the state that is about to run a given word (log 1). -/

namespace Sys2Proof.Machine

/-- One step: the next piece of work of the agenda, or the next core cycle when the agenda is empty. Work that names a unit
the module does not have is dropped: nothing is there to do it (R25 to R27, log 1). -/
def step (s : State) : Host.Outcome State Fault Refusal :=
  match takeWork s with
  | none => .next (tick s)
  | some (w, s) => if workOk w then runWork w s else .next s

/-- The state with a word of the opcode table where the next step reads it (log 1): a sequencer word at the pc of thread 0 of
tile 0, a fabric or route word in the first slot of PE 0, a matrix word in entry 0 of tile 0, a D-word at index 0 of
sequencer 0. -/
def State.withFetchWord (s : State) (nbits w : Nat) : State :=
  if nbits = 32 then fetchSequencer s w
  else if nbits = 24 then fetchOp s w
  else if nbits = 16 then fetchRoute s w
  else if nbits = 64 then fetchLong s w
  else s

end Sys2Proof.Machine
end

