-- ==== Sys2Proof/Safety.lean ====
section
/-! DEFINITION. The words in which statements speak: an instruction completes, a byte of a memory, and what an instruction
leaves as it was. -/

namespace Sys2Proof.Safety

open Sys2Proof.Machine

/-- The instruction answers a next state, and that state has the property. -/
def Completes (i : Instr) (s : State) (P : State → Prop) : Prop := ∃ t, exec i s = .next t ∧ P t

/-! ### Bytes -/

/-- One byte of a tile's activation store, of its instruction memory, of a channel of HBM4, of host memory, of a PE's scratchpad. -/
def storeByte (s : State) (tile a : Nat) : Byte := memGet (s.tile tile).store.mem a
def imemByte (s : State) (tile a : Nat) : Byte := memGet (s.tile tile).core.imem a
def hbmByte (s : State) (ch a : Nat) : Byte := memGet (s.chan ch).mem a
def hostByte (s : State) (a : Nat) : Byte := memGet s.host a
def scratchByte (s : State) (pe a : Nat) : Byte := memGet (s.pe pe).scratch a

/-- Every byte of memory but those of the activation stores reads as before. -/
structure SameBytesButStores (s t : State) : Prop where
  imem : ∀ tile a, imemByte t tile a = imemByte s tile a
  hbm : ∀ ch a, hbmByte t ch a = hbmByte s ch a
  host : ∀ a, hostByte t a = hostByte s a
  scratch : ∀ pe a, scratchByte t pe a = scratchByte s pe a

/-- Every byte of memory reads as before. -/
structure SameBytes (s t : State) : Prop extends SameBytesButStores s t where
  store : ∀ tile a, storeByte t tile a = storeByte s tile a

/-- Bytes `a` to `a + n - 1` of a tile's store hold the low `n` bytes of `v`; every other byte of memory reads as before. -/
structure StoresBytes (s : State) (tile a n v : Nat) (t : State) : Prop extends SameBytesButStores s t where
  stored : ∀ k, k < n → storeByte t tile (a + k) = BitVec.ofNat 8 (v / 256 ^ k)
  outside : ∀ u b, u ≠ tile ∨ b < a ∨ a + n ≤ b → storeByte t u b = storeByte s u b

/-! ### The issuing thread -/

/-- Every other thread, everything else of every tile, and everything else of the module is as it was. -/
structure OnlyThread (s t : State) : Prop where
  threads : ∀ tile n, tile ≠ s.cur.tile ∨ n % 8 ≠ s.cur.thread % 8 → t.thread tile n = s.thread tile n
  tiles : ∀ tile,
    { t.tile tile with core := { (t.tile tile).core with threads := (s.tile tile).core.threads } } = s.tile tile
  rest : { t with tiles := s.tiles } = s

/-- The issuing thread is now `h`, and nothing else has changed. -/
structure Becomes (s : State) (h : Thread) (t : State) : Prop where
  thread : t.me = h
  others : OnlyThread s t
  bytes : SameBytes s t

/-- g[d] reads `v` (g0 reads 0), the thread goes on behind the instruction, and nothing else has changed: no other register,
no predicate, no flag, no other register of the thread, no byte of memory. -/
structure WritesReg (s : State) (d : GReg) (v : Word) (t : State) : Prop where
  value : t.me.reg d = if d = 0 then 0 else v
  regs : ∀ r, r ≠ d → t.me.reg r = s.me.reg r
  pc : t.me.pc = s.cur.npc
  thread : { t.me with g := s.me.g, pc := s.me.pc } = s.me
  others : OnlyThread s t
  bytes : SameBytes s t

/-- p[d] reads `v` (p0 reads 1), the thread goes on behind the instruction, and nothing else has changed. -/
structure WritesPred (s : State) (d : PReg) (v : Bool) (t : State) : Prop where
  value : t.me.pred d = if d = 0 then true else v
  preds : ∀ r, r ≠ d → t.me.pred r = s.me.pred r
  pc : t.me.pc = s.cur.npc
  thread : { t.me with p := s.me.p, pc := s.me.pc } = s.me
  others : OnlyThread s t
  bytes : SameBytes s t

/-- The thread goes on behind the instruction and nothing else has changed. -/
def OnlyAdvances (s t : State) : Prop := Becomes s { s.me with pc := s.cur.npc } t

/-- The thread has taken the trap in its first form (R316): cause, subcode, value and return address are saved, the level is
saved and INH set, and the handler is entered, at S through TVEC, or at M through MTVEC. -/
def TakesTrap (s : State) (c sub : BitVec 8) (v e : Word) (t : State) : Prop :=
  Becomes s { s.me with
    cause := c, sub := sub, tval := v, tepc := e, ppl := s.me.pl, inh := true, st := .running, rptAt := none
    walkFault := []
    pl := if s.me.pl = 3 then 3 else 1
    pc := if s.me.pl = 3 then s.here.core.mtvec else s.here.core.tvec } t

/-! ### The activation store -/

/-- The little-endian value of `n` bytes of a tile's store from `a` upward (R5). -/
def storeValue (s : State) (tile a n : Nat) : Nat :=
  match n with
  | 0 => 0
  | k + 1 => (storeByte s tile a).toNat + 256 * storeValue s tile (a + 1) k

/-- A number of `8 n` bits read as signed. -/
def signedValue (n v : Nat) : Int := if v < 2 ^ (8 * n - 1) then v else (v : Int) - 2 ^ (8 * n)

/-- Nothing but the issuing thread and the bytes and full/empty bits of its tile's store has changed. -/
structure OnlyThreadAndStore (s t : State) : Prop where
  threads : ∀ tile n, tile ≠ s.cur.tile ∨ n % 8 ≠ s.cur.thread % 8 → t.thread tile n = s.thread tile n
  tiles : ∀ tile,
    { t.tile tile with
      core := { (t.tile tile).core with threads := (s.tile tile).core.threads }
      store := { (t.tile tile).store with mem := (s.tile tile).store.mem, full := (s.tile tile).store.full } } = s.tile tile
  rest : { t with tiles := s.tiles } = s

/-- The full/empty bit of word `w` of the issuing thread's tile is `b`; every other bit is as it was. -/
def SetsBit (s : State) (w : Nat) (b : Bool) (t : State) : Prop :=
  isFull t.here w = b ∧ ∀ u k, u ≠ s.cur.tile ∨ k ≠ w → isFull (t.tile u) k = isFull (s.tile u) k

/-- No thread, no remote delivery and no matrix engine waits on the word. -/
def NoWaiter (s : State) (w : Nat) : Prop := (∀ e ∈ s.here.store.waiters, e.word ≠ w) ∧ s.here.matrix.waits ≠ some w

/-- No store of the thread is deferred (R96). -/
def NoRelaxed (s : State) : Prop := s.me.relaxed = []

/-- The address of a store access of `n` bytes is aligned and inside the store, its bank has power (R75, R79), no word of the
module has lost bits (R380), and no memory-ordering arc holds the access (R46). -/
def StoreReady (s : State) (va : Word) (n : Nat) : Prop :=
  va.toNat % n = 0 ∧ va.toNat + n ≤ 0x1800000 ∧ bankHeld s.here (va.toNat / 8 % 32) = false ∧ s.flaws = [] ∧ threadWaits s = false

/-- A global access at the address finds its page in the core's TLB, and the page permits it (R350, R354 to R356). -/
def PageReady (s : State) (va : Nat) (write : Bool) : Prop :=
  va < 2 ^ 57 ∧ va / 2 ^ 48 ≠ 0x1FF ∧ (s.part (pidOf s s.cur.tile)).ptroot.getLsbD 0 = true ∧ s.me.walkFault = [] ∧
    ∃ g, tlbFind s.here.tlb va = some g ∧ permits g write (s.me.pl == 0) = true

/-! ### One part of the module -/

/-- Tile `k` is now `x`, and nothing else has changed. -/
structure TileBecomes (s : State) (k : Nat) (x : Tile) (t : State) : Prop where
  part : t.tile k = x
  others : ∀ u, u ≠ k → t.tile u = s.tile u
  rest : { t with tiles := s.tiles } = s

/-- PE `k` is now `x`, and nothing else has changed. -/
structure PeBecomes (s : State) (k : Nat) (x : PE) (t : State) : Prop where
  part : t.pe k = x
  others : ∀ u, u ≠ k → t.pe u = s.pe u
  rest : { t with pes := s.pes } = s

/-- Region `k` is now `x`, and nothing else has changed. -/
structure RegionBecomes (s : State) (k : Nat) (x : Region) (t : State) : Prop where
  part : t.region k = x
  others : ∀ u, u ≠ k → t.region u = s.region u
  rest : { t with regions := s.regions } = s

/-- Memory sequencer `k` is now `x`, and nothing else has changed. -/
structure ChanBecomes (s : State) (k : Nat) (x : Chan) (t : State) : Prop where
  part : t.chan k = x
  others : ∀ u, u ≠ k → t.chan u = s.chan u
  rest : { t with chans := s.chans } = s

/-- Transmitter `k` is now `x`, and nothing else has changed. -/
structure TxBecomes (s : State) (k : Nat) (x : Transmitter) (t : State) : Prop where
  part : t.tx k = x
  others : ∀ u, u ≠ k → t.tx u = s.tx u
  rest : { t with txs := s.txs } = s

/-- Partition `k` is now `x`, and nothing else has changed. -/
structure PartBecomes (s : State) (k : Nat) (x : Partition) (t : State) : Prop where
  part : t.part k = x
  others : ∀ u, u ≠ k → t.part u = s.part u
  rest : { t with parts := s.parts } = s

/-- Launch `l` of partition `k` is now `x`, and nothing else has changed. -/
structure LaunchBecomes (s : State) (k l : Nat) (x : Launch) (t : State) : Prop where
  launch : t.launch k l = x
  launches : ∀ u v, u ≠ k ∨ v ≠ l → t.launch u v = s.launch u v
  parts : ∀ u, { t.part u with launches := (s.part u).launches } = s.part u
  rest : { t with parts := s.parts } = s

/-- Eyelet `k` is now `x`, and nothing else has changed. -/
structure EyeletBecomes (s : State) (k : Nat) (x : Eyelet) (t : State) : Prop where
  part : t.eyelet k = x
  others : ∀ u, u ≠ k → t.eyelet u = s.eyelet u
  rest : { t with eyelets := s.eyelets } = s

/-- Tree node `k` is now `x`, and nothing else has changed. -/
structure NodeBecomes (s : State) (k : Nat) (x : TreeNode) (t : State) : Prop where
  part : t.node k = x
  others : ∀ u, u ≠ k → t.node u = s.node u
  rest : { t with nodes := s.nodes } = s

/-- Triple `k` is now `x`, and nothing else has changed. -/
structure TripleBecomes (s : State) (k : Nat) (x : Triple) (t : State) : Prop where
  part : t.triple k = x
  others : ∀ u, u ≠ k → t.triple u = s.triple u
  rest : { t with triples := s.triples } = s

/-- Thread `n` of a tile is now `h`, and nothing else has changed. -/
structure ThreadBecomes (s : State) (tile n : Nat) (h : Thread) (t : State) : Prop where
  thread : t.thread tile n = h
  threads : ∀ u m, u ≠ tile ∨ m % 8 ≠ n % 8 → t.thread u m = s.thread u m
  tiles : ∀ u, { t.tile u with core := { (t.tile u).core with threads := (s.tile u).core.threads } } = s.tile u
  rest : { t with tiles := s.tiles } = s

/-- Nothing has changed. -/
def Same (s t : State) : Prop := t = s

/-! ### Atomics and remote tiles -/

/-- OP of an atomic on two words of `n` bytes with its flags (Tables 06-7 and 08-4). -/
def atomicResult (o n old b : Nat) : Nat × BitVec 5 :=
  match o with
  | 0 => ((old + b) % 2 ^ (8 * n), 0)
  | 1 => (old &&& b, 0)
  | 2 => (old ||| b, 0)
  | 3 => (old ^^^ b, 0)
  | 4 => (if signedValue n old < signedValue n b then old else b, 0)
  | 5 => (if signedValue n b < signedValue n old then old else b, 0)
  | 6 => (min old b, 0)
  | 7 => (max old b, 0)
  | 8 => (b, 0)
  | 9 => fpAdd fp32 old b
  | 10 => fpMinMax fp32 false old b
  | 11 => fpMinMax fp32 true old b
  | _ =>
    let lo := fpAdd bf16 (old % 2 ^ 16) (b % 2 ^ 16)
    let hi := fpAdd bf16 (old / 2 ^ 16) (b / 2 ^ 16)
    (hi.1 * 2 ^ 16 + lo.1, lo.2 ||| hi.2)

/-- What an atomic with W returns of the old word (R201): the 8 bytes, or 4 sign-extended. -/
def returned (w : BitVec 1) (old : Nat) : Word := if w = 1 then BitVec.ofInt 64 (signedValue 4 old) else BitVec.ofNat 64 old

/-- Identifier `n` names the absolute tile `d` for the issuing thread (R20, R186, R326). -/
def NamesTile (s : State) (n d : Nat) : Prop :=
  (s.me.pl = 0 → ∃ q, s.here.place = some q ∧ n % 64 < q.w ∧ n / 64 < q.h ∧ d = 64 * (q.y0 + n / 64) + q.x0 + n % 64) ∧
  (s.me.pl ≠ 0 → d = n ∧ holdsTile (s.part (pidOf s s.cur.tile)) n = true)

/-! ### Processing elements -/

/-- The value of source code `c` at the issuing PE, where an immediate has the value `imm` (Table 06-11): a k register under
the rotating base, a c register, a latch, the immediate, or 0. -/
def sourceValue (s : State) (imm : Word32) (c : BitVec 5) : Word32 :=
  let x := s.pe s.cur.pe
  match c.toNat with
  | 24 => x.n.value
  | 25 => x.e.value
  | 26 => x.s.value
  | 27 => x.w.value
  | 28 => x.replies.headD 0
  | 29 => x.m.value
  | 30 => imm
  | 31 => 0
  | n => if n < 16 then (x.k[(n + (s.region s.cur.region).rbase.toNat) % 16]?).getD 0 else (x.c[n - 16]?).getD 0

/-- Source C (R154): k0 to k7 under the rotating base, or c0 to c7. -/
def sourceC (s : State) : Word32 :=
  let x := s.pe s.cur.pe
  let n := s.cur.ra.toNat / 2 ^ 12
  if n < 8 then (x.k[(n + (s.region s.cur.region).rbase.toNat) % 16]?).getD 0 else (x.c[n - 8]?).getD 0

/-- The latches that source codes read. -/
def latchesOf (cs : List (BitVec 5)) : List Port :=
  cs.filterMap (fun c => match c.toNat with
    | 24 => some .n | 25 => some .e | 26 => some .s | 27 => some .w | 28 => some .v | 29 => some .m | _ => none)

/-- The issuing PE reads the latches of its sources and has one more result in flight, which lands after `lat - 1` further
cycles in the register that DST names now, if WE; nothing else has changed (R258, R259). -/
def Lands (s : State) (srcs : List (BitVec 5)) (d : BitVec 4) (w : BitVec 1) (lat : Nat) (r : Nat × BitVec 5) (t : State) : Prop :=
  let x := s.pe s.cur.pe
  PeBecomes s s.cur.pe { x with
    reads := x.reads ++ latchesOf srcs
    inflight := x.inflight ++ [⟨lat - 1, d + (s.region s.cur.region).rbase, w == 1, BitVec.ofNat 32 r.1, r.2⟩] } t

/-- What a route selector drives and the latch it reads (Table 06-10, R261). -/
def routed (s : State) (c : BitVec 4) : List Word32 × List Port :=
  let x := s.pe s.cur.pe
  match c.toNat with
  | 0 => ([], [])
  | 1 => (((x.inflight.find? (fun f => f.left == 0)).map (·.value)).toList, [])
  | 2 => ([x.n.value], [.n])
  | 3 => ([x.e.value], [.e])
  | 4 => ([x.s.value], [.s])
  | 5 => ([x.w.value], [.w])
  | 6 => ([x.replies.headD 0], [.v])
  | 7 => ([x.m.value], [.m])
  | n => ([(x.k[(n - 8 + (s.region s.cur.region).rbase.toNat) % 16]?).getD 0], [])

/-- The least level a sequencer instruction needs: S for TRET and the S operations (R319 to R323), and what bits [9:8] of its
number say for a CSR (R313). -/
def needOf (i : Instr) : Nat :=
  match i with
  | .tret _ | .tlbinv _ _ _ | .cutm _ _ | .cfgld _ _ _ | .haltc _ => 1
  | .csrr _ n _ | .csrw _ n _ => if (csrOf n).isSome then n.toNat / 256 else 0
  | _ => 0

/-- Instructions that only T7 may run (R142, R252, R130): those of queue 0, CSTEP, and the communication CSRs. -/
def onlyT7 (i : Instr) : Bool :=
  match i with
  | .qpoll _ _ q | .qwait _ _ q => q == 0
  | .cstep _ _ => true
  | .csrr _ n _ | .csrw _ n _ =>
    (decide (0x20 ≤ n.toNat) && decide (n.toNat ≤ 0x25)) || (decide (0x28 ≤ n.toNat) && decide (n.toNat ≤ 0x2F))
  | _ => false

/-- The conditions of CMP and CMPI (R135): EQ, NE, LT, GE signed, LTU, GEU. -/
def holds (c : BitVec 3) (a b : Word) : Bool :=
  match c.toNat with
  | 0 => decide (a = b)
  | 1 => decide (a ≠ b)
  | 2 => decide (a.toInt < b.toInt)
  | 3 => decide (b.toInt ≤ a.toInt)
  | 4 => decide (a.toNat < b.toNat)
  | _ => decide (b.toNat ≤ a.toNat)

/-! ### Handler entries -/

/-- An address at which a handler may begin (R316): in the handler area, and a multiple of 4. -/
def HandlerEntry (v : Word) : Prop := 0xE000 ≤ v.toNat ∧ v.toNat < 0x10000 ∧ v.toNat % 4 = 0

/-- TVEC and MTVEC of every core, in a listed tile or one at its reset value, name handler entries. -/
def HandlersOk (s : State) : Prop :=
  ∀ x, x = Tile.reset ∨ (∃ k, (k, x) ∈ s.tiles) → HandlerEntry x.core.tvec ∧ HandlerEntry x.core.mtvec

end Sys2Proof.Safety
end

