-- ==== Sys2Proof/Certificates/Slice0/Obligations.lean ====
section
/-! DEFINITION. The statements for the provers. Each docstring cites the rules of spec/ it speaks of. -/

open Sys2Proof Sys2Proof.Machine Sys2Proof.Safety

/-- R140, steps 2 to 4. -/
def Obligations.GuardsAndLevels : Prop :=
  ∀ (i : Instr) (s : State),
    let traps := fun (c : BitVec 8) => s.me.inh = false → Completes i s (TakesTrap s c 0 (s.cur.word.zeroExtend 64) s.cur.ipc)
    (s.me.pl.toNat < needOf i → traps 0x02) ∧
    (needOf i ≤ s.me.pl.toNat → onlyT7 i = true → s.cur.thread ≠ 7 → traps 0x01) ∧
    (needOf i ≤ s.me.pl.toNat → (onlyT7 i = true → s.cur.thread = 7) →
      ∀ p, guardOf i = some p → s.me.pred p = false → Completes i s (OnlyAdvances s))

/-- R213, R316, R317, R319. -/
def Obligations.TrapsAndReturns : Prop :=
  ∀ (p : PReg) (n : BitVec 18) (s : State), s.me.pred p = true →
    (s.me.inh = false → Completes (.trap p n) s (TakesTrap s 0x12 0 (n.zeroExtend 64) (s.cur.ipc + 4))) ∧
    (s.me.inh = true → Completes (.trap p n) s (fun t =>
      t.me.st = .halted ∧ t.me.cause = s.me.cause ∧ t.me.tepc = s.me.tepc ∧ t.me.tval = s.me.tval ∧ t.me.pc = s.me.pc)) ∧
    (1 ≤ s.me.pl.toNat → Completes (.tret p) s (fun t => t.me.pc = s.me.tepc &&& ~~~3#64 ∧ t.me.pl = s.me.ppl ∧ t.me.ppl = 0 ∧
      t.me.inh = false ∧ t.me.next = (if isRptAt s.here (s.me.tepc &&& ~~~3#64) then s.me.next else 0) ∧ t.me.g = s.me.g ∧
      t.me.p = s.me.p ∧ t.me.cause = s.me.cause ∧ t.me.tval = s.me.tval ∧ t.me.tepc = s.me.tepc ∧ OnlyThread s t ∧ SameBytes s t))

/-- R177, Table 08-2, R178: every result is wrapped to 64 bits. -/
def Obligations.IntegerResults : Prop :=
  ∀ (d a b : GReg) (p : PReg) (s : State), s.me.pred p = true →
    let x := s.me.reg a
    let y := s.me.reg b
    let n := y.toNat % 64
    Completes (.add d a b p) s (WritesReg s d (BitVec.ofInt 64 (x.toInt + y.toInt))) ∧
    Completes (.sub d a b p) s (WritesReg s d (BitVec.ofInt 64 (x.toInt - y.toInt))) ∧
    Completes (.and d a b p) s (WritesReg s d (x &&& y)) ∧
    Completes (.or d a b p) s (WritesReg s d (x ||| y)) ∧
    Completes (.xor d a b p) s (WritesReg s d (x ^^^ y)) ∧
    Completes (.andn d a b p) s (WritesReg s d (x &&& ~~~y)) ∧
    Completes (.shl d a b p) s (WritesReg s d (BitVec.ofNat 64 (x.toNat * 2 ^ n))) ∧
    Completes (.shr d a b p) s (WritesReg s d (BitVec.ofNat 64 (x.toNat / 2 ^ n))) ∧
    Completes (.sar d a b p) s (WritesReg s d (BitVec.ofInt 64 (x.toInt / 2 ^ n))) ∧
    Completes (.rotl d a b p) s (WritesReg s d ((x <<< n) ||| (x >>> (64 - n)))) ∧
    Completes (.min d a b p) s (WritesReg s d (if x.toInt < y.toInt then x else y)) ∧
    Completes (.max d a b p) s (WritesReg s d (if y.toInt < x.toInt then x else y)) ∧
    Completes (.minu d a b p) s (WritesReg s d (if x.toNat < y.toNat then x else y)) ∧
    Completes (.maxu d a b p) s (WritesReg s d (if y.toNat < x.toNat then x else y)) ∧
    Completes (.clz d a p) s (WritesReg s d (if x = 0 then 64 else BitVec.ofNat 64 (63 - Nat.log2 x.toNat))) ∧
    Completes (.popc d a p) s
      (WritesReg s d (BitVec.ofNat 64 (((List.range 64).filter (fun k => x.getLsbD k)).length))) ∧
    Completes (.mul d a b p) s (WritesReg s d (BitVec.ofInt 64 (x.toInt * y.toInt))) ∧
    Completes (.mulh d a b p) s (WritesReg s d (BitVec.ofInt 64 (x.toInt * y.toInt / 2 ^ 64))) ∧
    Completes (.mulhu d a b p) s (WritesReg s d (BitVec.ofNat 64 (x.toNat * y.toNat / 2 ^ 64))) ∧
    Completes (.div d a b p) s
      (WritesReg s d (if y = 0 then BitVec.allOnes 64 else BitVec.ofInt 64 (x.toInt.tdiv y.toInt))) ∧
    Completes (.divu d a b p) s
      (WritesReg s d (if y = 0 then BitVec.allOnes 64 else BitVec.ofNat 64 (x.toNat / y.toNat))) ∧
    Completes (.rem d a b p) s (WritesReg s d (if y = 0 then x else BitVec.ofInt 64 (x.toInt.tmod y.toInt))) ∧
    Completes (.remu d a b p) s (WritesReg s d (if y = 0 then x else BitVec.ofNat 64 (x.toNat % y.toNat)))

/-- R179, R180, R148, R183, R140 (SEL). -/
def Obligations.ImmediateResults : Prop :=
  ∀ (d a b : GReg) (p : PReg) (i : BitVec 13) (k : BitVec 6) (u : BitVec 18) (w : BitVec 32) (s : State),
    let x := s.me.reg a
    let y := s.me.reg b
    (s.me.pred p = true →
      Completes (.addi d a p i) s (WritesReg s d (BitVec.ofInt 64 (x.toInt + i.toInt))) ∧
      Completes (.andi d a p i) s (WritesReg s d (x &&& BitVec.ofNat 64 i.toNat)) ∧
      Completes (.ori d a p i) s (WritesReg s d (x ||| BitVec.ofNat 64 i.toNat)) ∧
      Completes (.xori d a p i) s (WritesReg s d (x ^^^ BitVec.ofNat 64 i.toNat)) ∧
      Completes (.shli d a p k) s (WritesReg s d (BitVec.ofNat 64 (x.toNat * 2 ^ k.toNat))) ∧
      Completes (.shri d a p k) s (WritesReg s d (BitVec.ofNat 64 (x.toNat / 2 ^ k.toNat))) ∧
      Completes (.sari d a p k) s (WritesReg s d (BitVec.ofInt 64 (x.toInt / 2 ^ k.toNat))) ∧
      Completes (.lui d p u) s (WritesReg s d (BitVec.ofInt 64 (u.toInt * 2 ^ 14))) ∧
      Completes (.lix d p w) s (WritesReg s d (BitVec.ofInt 64 w.toInt)) ∧
      Completes (.addr1 d a b p) s (WritesReg s d (BitVec.ofNat 64 (x.toNat + y.toNat))) ∧
      Completes (.addr2 d a b p) s (WritesReg s d (BitVec.ofNat 64 (x.toNat + 2 * y.toNat))) ∧
      Completes (.addr4 d a b p) s (WritesReg s d (BitVec.ofNat 64 (x.toNat + 4 * y.toNat))) ∧
      Completes (.addr8 d a b p) s (WritesReg s d (BitVec.ofNat 64 (x.toNat + 8 * y.toNat)))) ∧
    Completes (.sel d a b p) s (WritesReg s d (if s.me.pred p = true then x else y))

/-- R181, R135, Table 06-3 (CMP, CMPI); R182 (the predicate operations). -/
def Obligations.ComparesAndPredicates : Prop :=
  ∀ (d q r p : PReg) (g a b : GReg) (c : BitVec 3) (i : BitVec 10) (s : State), s.me.pred p = true → c.toNat < 6 →
    Completes (.cmp d a b p c) s (WritesPred s d (holds c (s.me.reg a) (s.me.reg b))) ∧
    Completes (.cmpi d a p c i) s (WritesPred s d
      (holds c (s.me.reg a) (if c.toNat < 4 then BitVec.ofInt 64 i.toInt else BitVec.ofNat 64 i.toNat))) ∧
    Completes (.pand d q r p) s (WritesPred s d (s.me.pred q && s.me.pred r)) ∧
    Completes (.por d q r p) s (WritesPred s d (s.me.pred q || s.me.pred r)) ∧
    Completes (.pxor d q r p) s (WritesPred s d (s.me.pred q != s.me.pred r)) ∧
    Completes (.pnot d q p) s (WritesPred s d (!s.me.pred q)) ∧
    Completes (.pmov d q p) s (WritesPred s d (s.me.pred q)) ∧
    Completes (.pget g p) s (WritesReg s g
      (BitVec.ofNat 64 (1 + 2 * (s.me.p.toNat / 2))))

/-- R184, R185, R20, R187, R212 with R70 (the generator). -/
def Obligations.FieldsAndIdentifiers : Prop :=
  ∀ (d a b : GReg) (p : PReg) (s : State), s.me.pred p = true →
    let x := s.me.reg a
    let y := s.me.reg b
    let l := y.toNat % 64
    let w := min (y.toNat / 256 % 128) (64 - l)
    Completes (.bfx d a b p) s (WritesReg s d (BitVec.ofNat 64 (x.toNat / 2 ^ l % 2 ^ w))) ∧
    Completes (.bfi d a b p) s (WritesReg s d (BitVec.ofNat 64
      ((s.me.reg d).toNat / 2 ^ (l + w) * 2 ^ (l + w) + x.toNat % 2 ^ w * 2 ^ l + (s.me.reg d).toNat % 2 ^ l))) ∧
    (∀ pw ph : Nat, pw ≤ 64 → ph ≤ 64 →
      (s.me.pl = 0 → ∃ q, s.here.place = some q ∧ q.w = pw ∧ q.h = ph) → (s.me.pl ≠ 0 → pw = 64 ∧ ph = 64) →
      Completes (.cpack d a b p) s (WritesReg s d
        (if x.toNat < pw ∧ y.toNat < ph then BitVec.ofNat 64 (64 * y.toNat + x.toNat) else BitVec.allOnes 64))) ∧
    Completes (.cunpk d a p) s (WritesReg s d (BitVec.ofNat 64 (x.toNat / 64 % 64 * 2 ^ 32 + x.toNat % 64))) ∧
    (s.here.core.shadowOf = none → s.me.pl ≠ 0 → Completes (.tileid d p) s (WritesReg s d (BitVec.ofNat 64 s.cur.tile))) ∧
    (∀ q, s.here.core.shadowOf = none → s.me.pl = 0 → s.here.place = some q →
      Completes (.tileid d p) s (WritesReg s d
        (BitVec.ofNat 64 (64 * (s.cur.tile / 64 - q.y0) + (s.cur.tile % 64 - q.x0))))) ∧
    Completes (.thid d p) s (WritesReg s d (BitVec.ofNat 64 s.cur.thread)) ∧
    Completes (.ccnt d p) s (WritesReg s d (BitVec.ofNat 64 s.cycle + s.here.ccntOff)) ∧
    Completes (.scnt d p) s (WritesReg s d (BitVec.ofNat 64 s.gslot)) ∧
    Completes (.rndk d a b p) s (WritesReg s d (BitVec.ofNat 64 (kcg (x.truncate 32) (y.truncate 32)).toNat))

/-- R137, R189, R190. -/
def Obligations.BranchesAndLoops : Prop :=
  ∀ (d a : GReg) (p : PReg) (n : BitVec 1) (o : BitVec 22) (i : BitVec 13) (s : State),
    let target := BitVec.ofInt 64 (s.cur.ipc.toInt + 4 * o.toInt)
    let taken := s.me.pred p ≠ decide (n = 1)
    (taken → Completes (.br p n o) s (Becomes s { s.me with pc := target })) ∧
    (¬ taken → Completes (.br p n o) s (OnlyAdvances s)) ∧
    (taken → Completes (.jal p n o) s (Becomes s { s.me.setReg 30 (s.cur.ipc + 4) with pc := target })) ∧
    (¬ taken → Completes (.jal p n o) s (OnlyAdvances s)) ∧
    (s.me.pred p = true →
      let goal := BitVec.ofInt 64 ((s.me.reg a).toInt + i.toInt)
      (goal.toNat % 4 = 0 →
        Completes (.jalr d a p i) s (Becomes s { s.me.setReg d (s.cur.ipc + 4) with pc := goal })) ∧
      (goal.toNat % 4 ≠ 0 → s.me.inh = false → Completes (.jalr d a p i) s (TakesTrap s 0x03 0 goal s.cur.ipc)) ∧
      (s.me.reg d ≠ 1 → Completes (.loop d p i) s (Becomes s
        { s.me.setReg d (s.me.reg d - 1) with pc := BitVec.ofInt 64 (s.cur.ipc.toInt + 4 * i.toInt) })) ∧
      (s.me.reg d = 1 → Completes (.loop d p i) s (WritesReg s d 0))) ∧
    (s.me.pred p = false →
      Completes (.loop d p i) s (OnlyAdvances s) ∧ Completes (.jalr d a p i) s (OnlyAdvances s))

/-- R191 to R195. -/
def Obligations.ThreadControl : Prop :=
  ∀ (a : GReg) (p : PReg) (s : State), s.me.pred p = true →
    let v := s.me.reg a
    let tile := s.cur.tile
    let now := s.ccnt tile
    let late := fun n : BitVec 32 => n ∈ s.here.eng.pending ∧ ∃ q, (n, s.cur.thread, q) ∈ s.here.eng.promises ∧ q.toNat ≤ v.toNat
    Completes (.yield p) s (Becomes (s.after 9 (.threadWake tile s.cur.thread))
      { s.me with st := .waiting .yield, pc := s.cur.npc }) ∧
    (s.me.wake = true → Completes (.park p) s (Becomes s { s.me with wake := false, pc := s.cur.npc })) ∧
    (s.me.wake = false → Completes (.park p) s (Becomes s { s.me with st := .parked .park })) ∧
    (v.toNat < 8 →
      let h := s.thread tile v.toNat
      (h.st = .parked .park → v.toNat ≠ s.cur.thread % 8 → Completes (.wake a p) s
        (Becomes ((s.setThread tile v.toNat { h with wake := false }).event (.threadWake tile v.toNat))
          { s.me with pc := s.cur.npc })) ∧
      (h.st = .halted → Completes (.wake a p) s (OnlyAdvances s)) ∧
      (h.st ≠ .halted → h.st ≠ .parked .park → v.toNat ≠ s.cur.thread % 8 → Completes (.wake a p) s
        (Becomes (s.setThread tile v.toNat { h with wake := true }) { s.me with pc := s.cur.npc })) ∧
      (h.st ≠ .halted → h.st ≠ .parked .park → v.toNat = s.cur.thread % 8 → Completes (.wake a p) s
        (Becomes s { s.me with wake := true, pc := s.cur.npc }))) ∧
    (8 ≤ v.toNat → s.me.inh = false → Completes (.wake a p) s (TakesTrap s 0x06 0 v s.cur.ipc)) ∧
    (v.toNat ≤ now.toNat → (∀ n, ¬ late n) → Completes (.waitt a p) s (OnlyAdvances s)) ∧
    (∀ n, v.toNat ≤ now.toNat → late n → (∀ m, late m → n.toNat ≤ m.toNat) → s.me.inh = false →
      Completes (.waitt a p) s (TakesTrap s 0x07 0 (n.zeroExtend 64) s.cur.ipc)) ∧
    (now.toNat < v.toNat → Completes (.waitt a p) s
      (Becomes (s.after (v.toNat - now.toNat) (.waittExpiry tile s.cur.thread)) { s.me with st := .parked (.waitt v) })) ∧
    (v ≠ 0 → v.toNat ≤ s.here.eng.cnum.toNat →
      (v.truncate 32 ∉ s.here.eng.pending → Completes (.waite a p) s (OnlyAdvances s)) ∧
      (v.truncate 32 ∈ s.here.eng.pending → Completes (.waite a p) s
        (Becomes s { s.me with st := .parked (.waite (v.truncate 32)) }))) ∧
    (v = 0 ∨ s.here.eng.cnum.toNat < v.toNat → s.me.inh = false →
      Completes (.waite a p) s (TakesTrap s 0x06 0 v s.cur.ipc)) ∧
    (allPerformed s.me = true → NoRelaxed s → s.me.faults = 0 → Completes (.haltt p) s
      (Becomes s { s.me with st := .halted, fflags := s.me.fflags ||| s.me.redFlags, redFlags := 0 }))

/-- R206, Table 04-5, R79, R96, R104, R203. -/
def Obligations.FencesAndDrain : Prop :=
  ∀ (p : PReg) (s : State),
    let h := s.me
    let waits := Becomes s { h with st := .waiting .retry }
    let ops : List (Instr × Bool) :=
      [(.fenceT p, true), (.fenceC p, h.remoteOut == 0), (.fenceP p, h.remoteOut == 0 && h.globalOut == 0),
       (.fenceS p, h.remoteOut == 0 && h.globalOut == 0 && h.writebackOut == 0),
       (.drain p, h.remoteOut == 0 && h.globalOut == 0 && h.writebackOut == 0 && h.redOut == 0)]
    (h.pred p = false → ∀ o ∈ ops, Completes o.1 s (OnlyAdvances s)) ∧
    (h.pred p = true →
      (NoRelaxed s →
        (h.faults = 0 → ∀ o ∈ ops, o.2 = true → o.1 ≠ .drain p → Completes o.1 s (OnlyAdvances s)) ∧
        (h.faults = 0 → allPerformed h = true → Completes (.drain p) s (Becomes s
          { h with fflags := h.fflags ||| h.redFlags, redFlags := 0, pc := s.cur.npc })) ∧
        (∀ o ∈ ops, o.2 = false → Completes o.1 s waits) ∧
        (h.faults ≠ 0 → ∀ o ∈ ops, o.2 = true → Completes o.1 s (fun t => t.me.st = .waiting .fault ∧ t.me.pc = h.pc))) ∧
      (relaxedHeld s.here h.relaxed = [] → ∀ o ∈ ops, Completes o.1 s (fun t => t.me.relaxed = [])) ∧
      (relaxedHeld s.here h.relaxed ≠ [] → ∀ o ∈ ops, Completes o.1 s (fun t =>
        t.me = { h with relaxed := relaxedHeld s.here h.relaxed, st := .waiting .retry })))

/-- R196, R136, R75, R79, R46, R380. The deferred stores of R96 are those of another statement. -/
def Obligations.StoreAccesses : Prop :=
  ∀ (d a : GReg) (p : PReg) (sz : BitVec 2) (i : BitVec 11) (s : State), s.me.pred p = true → NoRelaxed s →
    let n := 2 ^ sz.toNat
    let va := BitVec.ofInt 64 ((s.me.reg a).toInt + i.toInt * 2 ^ sz.toNat)
    let ops := [Instr.ld d a p sz i, .lds d a p sz i, .st d a p sz i]
    (StoreReady s va n →
      Completes (.ld d a p sz i) s (WritesReg s d (BitVec.ofNat 64 (storeValue s s.cur.tile va.toNat n))) ∧
      Completes (.lds d a p sz i) s
        (WritesReg s d (BitVec.ofInt 64 (signedValue n (storeValue s s.cur.tile va.toNat n)))) ∧
      Completes (.st d a p sz i) s (fun t =>
        t.me = { s.me with pc := s.cur.npc } ∧ StoresBytes s s.cur.tile va.toNat n (s.me.reg d).toNat t ∧
        OnlyThreadAndStore s t ∧ ∀ u w, isFull (t.tile u) w = isFull (s.tile u) w)) ∧
    (s.me.inh = false →
      (va.toNat % n ≠ 0 → ∀ o ∈ ops, Completes o s (TakesTrap s 0x03 0 va s.cur.ipc)) ∧
      (va.toNat % n = 0 → 0x1800000 < va.toNat + n → ∀ o ∈ ops, Completes o s (TakesTrap s 0x06 0 va s.cur.ipc))) ∧
    (va.toNat % n = 0 → va.toNat + n ≤ 0x1800000 →
      let waits := fun t => t.me = { s.me with st := .waiting .retry } ∧ SameBytes s t
      let powered := bankHeld s.here (va.toNat / 8 % 32) = false
      (¬ powered ∨ threadWaits s = true → ∀ o ∈ ops, Completes o s waits) ∧
      (powered → threadWaits s = false → lost s (inStore s.cur.tile va.toNat n) = true →
        Completes (.ld d a p sz i) s waits ∧ Completes (.lds d a p sz i) s waits))

/-- R197, R198, Table 04-2, R77, R102. -/
def Obligations.FullEmptyOperations : Prop :=
  ∀ (d a : GReg) (p : PReg) (i : BitVec 11) (s : State), s.me.pred p = true → NoRelaxed s →
    let va := BitVec.ofInt 64 ((s.me.reg a).toInt + i.toInt * 8)
    let w := va.toNat / 8
    let old := BitVec.ofNat 64 (storeValue s s.cur.tile va.toNat 8)
    let fills := fun t => t.me = { s.me with pc := s.cur.npc } ∧
      StoresBytes s s.cur.tile va.toNat 8 (s.me.reg d).toNat t ∧ SetsBit s w true t ∧ OnlyThreadAndStore s t
    let sets := fun b t => t.me = { s.me with pc := s.cur.npc } ∧ SameBytes s t ∧ SetsBit s w b t ∧ OnlyThreadAndStore s t
    let parks := fun (k : WaiterKind) (t : State) =>
      t.me = { s.me with st := .parked (.word w) } ∧ t.here.store.waiters = s.here.store.waiters ++ [⟨w, k⟩] ∧
      SameBytes s t ∧ ∀ u b, isFull (t.tile u) b = isFull (s.tile u) b
    StoreReady s va 8 →
    (isFull s.here w = true →
      Completes (.ldf d a p i) s (WritesReg s d old) ∧
      (NoWaiter s w → Completes (.ldfe d a p i) s (fun t =>
        t.me = { s.me.setReg d old with pc := s.cur.npc } ∧ SameBytes s t ∧ SetsBit s w false t ∧ OnlyThreadAndStore s t)) ∧
      (writesPending s.me = false → Completes (.stef d a p i) s (parks (.stef s.cur.thread (s.me.reg d)))) ∧
      Completes (.peekf d a p i) s (WritesReg s d 1)) ∧
    (isFull s.here w = false →
      Completes (.ldf d a p i) s (parks (.ldf s.cur.thread d)) ∧
      Completes (.ldfe d a p i) s (parks (.ldfe s.cur.thread d)) ∧
      (writesPending s.me = false → NoWaiter s w → Completes (.stef d a p i) s fills) ∧
      Completes (.peekf d a p i) s (WritesReg s d 0)) ∧
    (writesPending s.me = false → NoWaiter s w → Completes (.stf d a p i) s fills) ∧
    (writesPending s.me = true → Completes (.stf d a p i) s (Becomes s { s.me with st := .waiting .retry }) ∧
      Completes (.stef d a p i) s (Becomes s { s.me with st := .waiting .retry })) ∧
    (NoWaiter s w → Completes (.sete a p i) s (sets false) ∧ Completes (.setf a p i) s (sets true))

/-- R200, R201, R204, R205, R87 (the tag), R143. -/
def Obligations.GlobalAccesses : Prop :=
  ∀ (d a b : GReg) (p : PReg) (sz : BitVec 2) (i : BitVec 11) (w : BitVec 1) (o : BitVec 4) (s : State),
    s.me.pred p = true → o.toNat ≤ 12 →
    let n := 2 ^ sz.toNat
    let m := if w = 1 ∨ 9 ≤ o.toNat then 4 else 8
    let c := if w = 1 then 4 else 8
    let va := BitVec.ofInt 64 ((s.me.reg a).toInt + i.toInt * 2 ^ sz.toNat)
    let x := s.me.reg a
    let send := fun (v : Word) (act : GlobalAct) => s.event (.homeSliceAccess
      ⟨pidOf s s.cur.tile, BitVec.ofNat 60 (v.toNat / 1024), s.cur.tile, s.cur.thread, act⟩)
    let waits := { s.me with st := .waiting .reply }
    let q := tabGet 0 s.me.redSeq 0 + 1
    (threadWaits s = false → va.toNat % n = 0 → PageReady s va.toNat false →
      Completes (.ldg d a p sz i) s (Becomes (send va (.load (va.toNat % 1024) n d)) waits)) ∧
    (threadWaits s = false → va.toNat % n = 0 → PageReady s va.toNat true →
      Completes (.stg d a p sz i) s (Becomes (send va (.store (va.toNat % 1024) n (s.me.reg d)))
        { s.me with globalOut := s.me.globalOut + 1, pc := s.cur.npc })) ∧
    (threadWaits s = false → PageReady s x.toNat true →
      (x.toNat % m = 0 →
        Completes (.atom d a b p 1 w o) s (Becomes (send x (.atom (x.toNat % 1024) o w (s.me.reg b) d)) waits) ∧
        Completes (.red a b p 1 w o) s (Becomes (send x (.red (x.toNat % 1024) o w (s.me.reg b) s.cur.thread q))
          { s.me with redSeq := tabPut s.me.redSeq 0 q, redOut := s.me.redOut + 1, globalOut := s.me.globalOut + 1
                      pc := s.cur.npc })) ∧
      (x.toNat % c = 0 →
        Completes (.cas d a b p 1 w) s (Becomes (send x (.cas (x.toNat % 1024) w (s.me.reg d) (s.me.reg b) d)) waits))) ∧
    (s.me.inh = false →
      (va.toNat % n ≠ 0 → va.toNat / 2 ^ 48 ≠ 0x1FF →
        Completes (.ldg d a p sz i) s (TakesTrap s 0x03 0 va s.cur.ipc) ∧
        Completes (.stg d a p sz i) s (TakesTrap s 0x03 0 va s.cur.ipc)) ∧
      (x.toNat % m ≠ 0 →
        Completes (.atom d a b p 1 w o) s (TakesTrap s 0x03 0 x s.cur.ipc) ∧
        Completes (.red a b p 1 w o) s (TakesTrap s 0x03 0 x s.cur.ipc)) ∧
      (x.toNat % c ≠ 0 → Completes (.cas d a b p 1 w) s (TakesTrap s 0x03 0 x s.cur.ipc)) ∧
      (va.toNat % n = 0 → s.me.pl = 0 → va.toNat / 2 ^ 48 = 0x1FF → s.me.walkFault = [] →
        Completes (.ldg d a p sz i) s (TakesTrap s 0x04 4 va s.cur.ipc) ∧
        Completes (.stg d a p sz i) s (TakesTrap s 0x05 4 va s.cur.ipc)) ∧
      (∀ g, va.toNat % n = 0 → va.toNat < 2 ^ 57 → va.toNat / 2 ^ 48 ≠ 0x1FF → s.me.walkFault = [] →
        (s.part (pidOf s s.cur.tile)).ptroot.getLsbD 0 = true → tlbFind s.here.tlb va.toNat = some g →
        (g.read = false ∨ (g.user = false ∧ s.me.pl = 0) →
          Completes (.ldg d a p sz i) s (TakesTrap s 0x04 3 va s.cur.ipc)) ∧
        (g.write = false ∨ (g.user = false ∧ s.me.pl = 0) →
          Completes (.stg d a p sz i) s (TakesTrap s 0x05 3 va s.cur.ipc)))) ∧
    (∀ g, x.toNat % m = 0 → x.toNat < 2 ^ 57 → x.toNat / 2 ^ 48 ≠ 0x1FF → s.me.walkFault = [] →
      (s.part (pidOf s s.cur.tile)).ptroot.getLsbD 0 = true → tlbFind s.here.tlb x.toNat = some g → g.write = false →
      Completes (.red a b p 1 w o) s (fun t =>
        t.me = { s.me with redSeq := tabPut s.me.redSeq 0 q, faults := s.me.faults + 1, pc := s.cur.npc } ∧
          SameBytes { s with host := t.host } t))

/-- R201, R202, R204, R205, Table 08-4. -/
def Obligations.StoreAtomics : Prop :=
  ∀ (d a b : GReg) (p : PReg) (w : BitVec 1) (o : BitVec 4) (s : State),
    s.me.pred p = true → o.toNat ≤ 12 → NoRelaxed s →
    let n := if w = 1 ∨ 9 ≤ o.toNat then 4 else 8
    let c := if w = 1 then 4 else 8
    let va := s.me.reg a
    let old := storeValue s s.cur.tile va.toNat n
    let res := atomicResult o.toNat n old ((s.me.reg b).toNat % 2 ^ (8 * n))
    let was := storeValue s s.cur.tile va.toNat c
    let q := tabGet 0 s.me.redSeq 0 + 1
    (StoreReady s va n → Completes (.atom d a b p 0 w o) s (fun t =>
      t.me = { s.me.setReg d (returned w old) with fflags := s.me.fflags ||| res.2, pc := s.cur.npc } ∧
      StoresBytes s s.cur.tile va.toNat n res.1 t ∧ OnlyThreadAndStore s t ∧
      ∀ k j, isFull (t.tile k) j = isFull (s.tile k) j)) ∧
    (StoreReady s va c → Completes (.cas d a b p 0 w) s (fun t =>
      t.me = { s.me.setReg d (returned w was) with pc := s.cur.npc } ∧
      StoresBytes s s.cur.tile va.toNat c
        (if was = (s.me.reg d).toNat % 2 ^ (8 * c) then (s.me.reg b).toNat else was) t ∧
      OnlyThreadAndStore s t ∧ ∀ k j, isFull (t.tile k) j = isFull (s.tile k) j)) ∧
    (va.toNat % n = 0 →
      (unitHasRoom s.here va.toNat s.cur.tile (32 + s.cur.thread) = true → Completes (.red a b p 0 w o) s
        (Becomes (pushToken s s.cur.tile
            ⟨va.toNat, o, w, s.me.reg b, s.cur.tile, 32 + s.cur.thread, q, 0, s.cur.thread⟩)
          { s.me with redSeq := tabPut s.me.redSeq 0 q, redOut := s.me.redOut + 1, pc := s.cur.npc })) ∧
      (unitHasRoom s.here va.toNat s.cur.tile (32 + s.cur.thread) = false →
        Completes (.red a b p 0 w o) s (Becomes s { s.me with st := .waiting .retry }))) ∧
    (s.me.inh = false →
      (va.toNat % n ≠ 0 →
        Completes (.atom d a b p 0 w o) s (TakesTrap s 0x03 0 va s.cur.ipc) ∧
        Completes (.red a b p 0 w o) s (TakesTrap s 0x03 0 va s.cur.ipc)) ∧
      (va.toNat % c ≠ 0 → Completes (.cas d a b p 0 w) s (TakesTrap s 0x03 0 va s.cur.ipc)) ∧
      (va.toNat % n = 0 → 0x1800000 < va.toNat + n →
        Completes (.atom d a b p 0 w o) s (TakesTrap s 0x06 0 va s.cur.ipc)) ∧
      (va.toNat % c = 0 → 0x1800000 < va.toNat + c →
        Completes (.cas d a b p 0 w) s (TakesTrap s 0x06 0 va s.cur.ipc)))

/-- R350, R330, Tables 15-2 and 15-3, R407, R10. -/
def Obligations.RegisterWindow : Prop :=
  ∀ (d a : GReg) (p : PReg) (sz : BitVec 2) (i : BitVec 11) (pid q tile : Nat) (s : State),
    s.me.pred p = true → s.me.pl ≠ 0 → pid < 64 → q < 64 → tile < 4096 →
    let va := BitVec.ofInt 64 ((s.me.reg a).toInt + i.toInt * 2 ^ sz.toNat)
    let at_ := fun (pa : Nat) => sz = 3 ∧ va.toNat = 0x1FF * 2 ^ 48 + pa
    let page := 0x3F000000000 + 0x40000 * pid + 0x1000 * q
    let block := 0x3F800000000 + 0x40 * tile
    let load := Instr.ldg d a p sz i
    let store := Instr.stg d a p sz i
    let v := s.me.reg d
    let x := (s.part pid).queues[q]?.getD Queue.reset
    let b := fun (c : Bool) => if c then 1 else 0
    let on := { s.me with pc := s.cur.npc }
    let writes := fun (y : Queue) (t : State) => t.me = on ∧ (t.part pid).queues[q]? = some y ∧
      (∀ k, k ≠ q → (t.part pid).queues[k]? = (s.part pid).queues[k]?) ∧
      PartBecomes (s.setMe on) pid { s.part pid with queues := (t.part pid).queues } t
    let c := (s.tile tile).ctl
    let sample := Config.monitorSample tile (s.cycle / 8)
    (pid = pidOf s s.cur.tile →
      (at_ (page + 0x40) →
        Completes load s (WritesReg s d (BitVec.ofNat 64 (b x.en + 2 * x.prio.toNat + 16 * x.agep.toNat + 256 * b x.host))) ∧
        Completes store s (writes { x with
          en := v.getLsbD 0, prio := v.extractLsb' 1 3, agep := v.extractLsb' 4 4, host := v.getLsbD 8 })) ∧
      (at_ (page + 0x48) →
        Completes load s (WritesReg s d (BitVec.ofNat 64
          (queueCount (s.part pid) q + 128 * b x.held + 256 * b x.ovf + 512 * b x.perr + 1024 * b x.pkterr +
            2 ^ 32 * x.last.toNat))) ∧
        Completes store s (writes { x with
          ovf := x.ovf && (!v.getLsbD 8 || x.ovfAt == s.cycle)
          perr := x.perr && (!v.getLsbD 9 || x.perrAt == s.cycle)
          pkterr := x.pkterr && (!v.getLsbD 10 || x.pktAt == s.cycle) })) ∧
      (at_ (page + 0x50) →
        Completes load s (WritesReg s d 0) ∧
        Completes store s (Becomes
          (if v.getLsbD 1 then s.event (.qrelAbort pid q) else if v.getLsbD 0 then s.event (.qrelResume pid q) else s) on))) ∧
    (s.me.pl = 3 ∨ holdsTile (s.part (pidOf s s.cur.tile)) tile = true →
      (at_ block →
        Completes load s (WritesReg s d (BitVec.ofNat 64 ((sample.extractLsb' 0 16).toNat +
          2 ^ 16 * (sample.extractLsb' 16 16).toNat + 2 ^ 32 * (sample.extractLsb' 32 16).toNat + 2 ^ 48 * c.opnt.toNat))) ∧
        Completes store s (OnlyAdvances s)) ∧
      (at_ (block + 8) →
        Completes load s (WritesReg s d (BitVec.ofNat 64 (c.gateBank.toNat + 2 ^ 32 * c.gateWay.toNat)))) ∧
      (at_ (block + 0x10) →
        Completes load s (WritesReg s d (BitVec.ofNat 64 (c.bwake.toNat + 2 ^ 32 * c.wwake.toNat + 2 ^ 48 * b c.ton))) ∧
        Completes store s (OnlyAdvances s))) ∧
    (s.me.inh = false → va.toNat / 2 ^ 48 = 0x1FF →
      sz ≠ 3 ∨ (pid ≠ pidOf s s.cur.tile ∧
        (at_ (page + 0x40) ∨ at_ (page + 0x48) ∨ at_ (page + 0x50))) ∨ at_ (page + 0x58) ∨ at_ (block + 0x18) →
      Completes load s (TakesTrap s 0x06 0 va s.cur.ipc) ∧ Completes store s (TakesTrap s 0x06 0 va s.cur.ipc))

/-- R186, R207 to R209, R211, R142; what `sendFlit` does is another statement. -/
def Obligations.Messages : Prop :=
  ∀ (d a b : GReg) (p : PReg) (q : BitVec 2) (s : State), s.me.pred p = true → NoRelaxed s →
    let v := s.me.reg a
    let off := v.toNat % 2 ^ 25
    let vc := v.toNat / 2 ^ 37 % 32
    let kind : BitVec 2 := v.extractLsb' 42 2
    let tile := s.cur.tile
    let room := (sendQueue s.here q).length < 32
    let out := fun (dst owner writes : Nat) (body : MeshBody) => Becomes
      (sendFlit (s.setHere (setSend { s.here with sent := s.here.sent + 1 } q
        (sendQueue s.here q ++ [⟨dst, tile, vc, 0, owner, body⟩]))) tile dst vc owner body)
      { s.me with remoteOut := s.me.remoteOut + 1, writesOut := s.me.writesOut + writes, pc := s.cur.npc }
    let waits := Becomes s { s.me with st := .waiting .retry }
    let queue := recvQueue s.here (q == 1)
    (∀ dst, 2 ≤ q.toNat → v.toNat < 2 ^ 44 → NamesTile s (v.toNat / 2 ^ 25 % 2 ^ 12) dst →
      (off = 0 → kind.toNat < 2 →
        (room → Completes (.send a b p q) s (out dst s.cur.thread 0 (.message (kind == 1) (s.me.reg b)))) ∧
        (¬ room → Completes (.send a b p q) s waits)) ∧
      (off % 8 = 0 → off < 0x1800000 → kind.toNat < 3 →
        (room → kind = 0 ∨ writesPending s.me = false →
          Completes (.sendp a b p q) s (out dst (40 + s.cur.thread) 1 (.write off (s.me.reg b) kind))) ∧
        (¬ room ∨ (kind ≠ 0 ∧ writesPending s.me = true) → Completes (.sendp a b p q) s waits)) ∧
      (s.me.inh = false → kind.toNat < 3 →
        (off % 8 ≠ 0 → Completes (.sendp a b p q) s (TakesTrap s 0x03 0 v s.cur.ipc)) ∧
        (off % 8 = 0 → 0x1800000 ≤ off → Completes (.sendp a b p q) s (TakesTrap s 0x06 0 v s.cur.ipc)))) ∧
    (s.me.inh = false →
      (2 ^ 44 ≤ v.toNat ∨ off ≠ 0 ∨ 2 ≤ kind.toNat ∨ (∀ dst, ¬ NamesTile s (v.toNat / 2 ^ 25 % 2 ^ 12) dst) →
        Completes (.send a b p q) s (TakesTrap s 0x06 0 v s.cur.ipc)) ∧
      (2 ^ 44 ≤ v.toNat ∨ kind = 3 ∨ (∀ dst, ¬ NamesTile s (v.toNat / 2 ^ 25 % 2 ^ 12) dst) →
        Completes (.sendp a b p q) s (TakesTrap s 0x06 0 v s.cur.ipc))) ∧
    (q.toNat < 2 → q ≠ 0 ∨ s.cur.thread = 7 →
      Completes (.qpoll d p q) s (WritesReg s d (BitVec.ofNat 64 queue.length)) ∧
      (queue = [] → Completes (.qwait d p q) s (Becomes s { s.me with st := .parked (.queue q d) })) ∧
      (∀ x r, queue = x :: r → s.here.core.heldMsgs.find? (messageFor (q == 1)) = none →
        Completes (.qwait d p q) s
          (Becomes (s.setHere (setRecv s.here (q == 1) r)) { s.me.setReg d x with pc := s.cur.npc })))

/-- R216, R217, R220, R223 to R225. -/
def Obligations.StreamContexts : Prop :=
  ∀ (d a b : GReg) (p : PReg) (s : State), s.me.pred p = true → NoRelaxed s →
    let x := s.here
    let e := x.eng
    let off := s.me.reg a
    let on := { s.me with pc := s.cur.npc }
    let n := e.cnum + 1
    let room := ∀ k ∈ e.pending, e.cnum.toNat + 1 < k.toNat + 256
    (∀ ctx bs, s.flaws = [] → ctx = s.me.reg b → ctx.toNat < 16 → off.toNat % 64 = 0 → off.toNat + 64 ≤ 0x1800000 →
      heldIn x off.toNat 64 = none → bs = storeBytes x off.toNat 64 →
      let c := x.stream ctx.toNat
      let f := readDescriptor bs
      c.st ≠ 1 → c.st ≠ 2 → formOk bs f = true →
      (alignedOk f = false → s.me.inh = false → Completes (.strmBind a b p) s (TakesTrap s 0x03 0 off s.cur.ipc)) ∧
      (alignedOk f = true → insideOk s f f.src f.sstr (2 ^ f.esz) = true →
        insideOk s f f.dst f.dstr (if endKind f.dst = 6 then 1 else 2 ^ f.esz) = true → ∀ sp dp,
        patternPages s (srcAddr f) false 0 (if endKind f.src = 3 ∨ endKind f.src = 5 then f.total else 0) [] = (sp, none) →
        patternPages s (dstAddr f) true 0 (if endKind f.dst = 3 then f.total else 0) [] = (dp, none) →
        pinned x + sp.length + dp.length ≤ 128 →
        Completes (.strmBind a b p) s (Becomes (s.setHere (x.setStream ctx.toNat { Stream.reset with
            st := 1, cnum := c.cnum, desc := some f, pages := sp ++ dp, thread := s.cur.thread, node := c.node
            srcTile := (copyTile s f.src).getD s.cur.tile, dstTile := (copyTile s f.dst).getD s.cur.tile })) on))) ∧
    (∀ ctx, ctx = s.me.reg a → ctx.toNat < 16 →
      let c := x.stream ctx.toNat
      (c.st = 1 → room → e.cnum ≠ BitVec.allOnes 32 → Completes (.strmStart a p) s
        (Becomes ((s.setHere ({ x with eng := { e with cnum := n, pending := e.pending ++ [n] } }.setStream ctx.toNat
            { c with st := 2, cnum := n, can := false, done := 0, next := 0, out := 0 })).after 1
            (.streamElement s.cur.tile ctx.toNat))
          { s.me with lastCnum := n, pc := s.cur.npc })) ∧
      (c.st = 1 → ¬ room →
        Completes (.strmStart a p) s (Becomes s { s.me with st := .waiting .retry })) ∧
      (c.st = 2 → Completes (.strmCancel a p) s (Becomes
        ((s.setHere (x.setStream ctx.toNat { c with can := true })).event (.streamComplete s.cur.tile ctx.toNat)) on)) ∧
      Completes (.strmStat d a p) s (WritesReg s d (BitVec.ofNat 64
        (c.st.toNat + 4 * (if c.can then 1 else 0) + 16 * c.done.toNat + 2 ^ 32 * c.cnum.toNat))) ∧
      (s.me.inh = false →
        (c.st ≠ 1 → Completes (.strmStart a p) s (TakesTrap s 0x06 0 ctx s.cur.ipc)) ∧
        (c.st ≠ 2 → Completes (.strmCancel a p) s (TakesTrap s 0x06 0 ctx s.cur.ipc)))) ∧
    (∀ k, k < 4 → off.toNat = 0x10 + k →
      Completes (.strmStat d a p) s (WritesReg s d ((e.vcnt[k]?.getD 0).zeroExtend 64))) ∧
    (off = 0x20 → Completes (.strmStat d a p) s (WritesReg s d (s.me.lastCnum.zeroExtend 64))) ∧
    (off = 0x21 → Completes (.strmStat d a p) s (WritesReg s d (BitVec.ofNat 64 e.csdiv))) ∧
    (s.me.inh = false →
      (16 ≤ off.toNat →
        Completes (.strmStart a p) s (TakesTrap s 0x06 0 off s.cur.ipc) ∧
        Completes (.strmCancel a p) s (TakesTrap s 0x06 0 off s.cur.ipc)) ∧
      (0x14 ≤ off.toNat → off ≠ 0x20 → off ≠ 0x21 →
        Completes (.strmStat d a p) s (TakesTrap s 0x06 0 off s.cur.ipc)) ∧
      (16 ≤ (s.me.reg b).toNat → Completes (.strmBind a b p) s (TakesTrap s 0x06 0 (s.me.reg b) s.cur.ipc)) ∧
      ((s.me.reg b).toNat < 16 → off.toNat % 64 ≠ 0 ∨ 0x1800000 < off.toNat + 64 →
        Completes (.strmBind a b p) s (TakesTrap s 0x06 0 off s.cur.ipc)))

/-- R226 to R228, Tables 09-5 and 09-6. -/
def Obligations.CopiesAndTransfers : Prop :=
  ∀ (d a b : GReg) (p : PReg) (s : State), s.me.pred p = true → NoRelaxed s →
    let x := s.here
    let e := x.eng
    let n := s.me.reg d
    let src := s.me.reg a
    let dst := s.me.reg b
    let off := fun (w : Word) => w.toNat % 2 ^ 25
    let kind := fun (w : Word) => w.toNat / 2 ^ 60
    let k := e.cnum + 1
    let size := n.toNat % 8 = 0 ∧ n ≠ 0 ∧ n.toNat ≤ 2 ^ 24
    let idle := (∀ k ∈ e.pending, e.cnum.toNat + 1 < k.toNat + 256) ∧ e.cnum ≠ BitVec.allOnes 32
    let now := (s.ccnt s.cur.tile).toNat
    let start := match e.copies.getLast? with | some c => max now c.promise.toNat | none => now
    let copies := fun (st dt time : Nat) =>
      let v := BitVec.ofNat 64 (start + time)
      let u := s.setHere { x with eng := { e with
        cnum := k, pending := e.pending ++ [k], promises := e.promises ++ [(k, s.cur.thread, v)]
        copies := e.copies ++ [⟨k, s.cur.thread, src, dst, n.toNat, v, false, 0, st, dt, 0, 0⟩] } }
      Completes (.scopy d a b p) s (Becomes (if e.copies.isEmpty then beginCopy u s.cur.tile else u)
        { s.me.setReg d v with lastCnum := k, pc := s.cur.npc })
    let ceil := fun (m q : Nat) => (m + q - 1) / q
    (size → idle → off src % 8 = 0 → off src + n.toNat ≤ 0x1800000 →
      (off dst % 8 = 0 → off dst + n.toNat ≤ 0x1800000 →
        (endOk [0] src = true → endOk [0] dst = true → off src + n.toNat ≤ off dst ∨ off dst + n.toNat ≤ off src →
          copies s.cur.tile s.cur.tile (24 + ceil n.toNat 64)) ∧
        (∀ dt, endOk [0] src = true → endOk [1] dst = true → NamesTile s (dst.toNat / 2 ^ 25 % 2 ^ 12) dt → dt ≠ s.cur.tile →
          copies s.cur.tile dt (24 + 2 * hops s.cur.tile dt + ceil (n.toNat * e.csdiv) 32)) ∧
        (∀ st, endOk [1] src = true → endOk [0] dst = true → NamesTile s (src.toNat / 2 ^ 25 % 2 ^ 12) st → st ≠ s.cur.tile →
          copies st s.cur.tile (24 + 2 * hops st s.cur.tile + ceil (n.toNat * e.csdiv) 32))) ∧
      (endOk [0] src = true → endOk [8] dst = true →
        (tabGet 0 (s.part (pidOf s s.cur.tile)).edges (dst.toNat / 2 ^ 37 % 32)).getLsbD 9 = true →
        copies s.cur.tile 0 (2048 + ceil (n.toNat * e.csdiv) 20))) ∧
    (s.me.inh = false →
      (¬ size → Completes (.scopy d a b p) s (TakesTrap s 0x06 0 n s.cur.ipc)) ∧
      (size → 2 ≤ kind src → Completes (.scopy d a b p) s (TakesTrap s 0x06 0 src s.cur.ipc)) ∧
      (size → endOk [0] src = true → endOk [0] dst = true → off src % 8 = 0 → off dst % 8 = 0 →
        off src + n.toNat ≤ 0x1800000 → off dst + n.toNat ≤ 0x1800000 →
        off src < off dst + n.toNat → off dst < off src + n.toNat →
        Completes (.scopy d a b p) s (TakesTrap s 0x06 0 dst s.cur.ipc))) ∧
    (∀ soff acc unit uoff toStore len ctr eng setf, soff % 64 = 0 → soff < 2 ^ 25 → unit < 16 → uoff % 64 = 0 →
      uoff < 2 ^ 15 → 1 ≤ len → len ≤ 512 → (setf = true → acc = false ∧ toStore = false) →
      soff + 64 * len ≤ 0x1800000 → uoff + 64 * len ≤ (if acc then 32768 else 18432) →
      src.toNat = soff + 2 ^ 25 * (if acc then 1 else 0) + 2 ^ 27 * unit + 2 ^ 31 * uoff + 2 ^ 46 * (if toStore then 1 else 0) →
      dst.toNat = len + 2 ^ 16 * (ctr : BitVec 2).toNat + 2 ^ 18 * (eng : BitVec 1).toNat + 2 ^ 19 * (if setf then 1 else 0) →
      let idx := match e.vxfers.getLast? with | some (j, _) => j + 1 | none => 0
      Completes (.vxfer a b p) s (Becomes ((s.setHere { x with eng := { e with
          vxfers := tabPut e.vxfers idx ⟨soff, acc, unit, uoff, toStore, 64 * len, ctr, eng, setf, 0⟩ } }).after 1
          (.vxferComplete s.cur.tile idx))
        { s.me with pc := s.cur.npc })) ∧
    (s.me.inh = false →
      (2 ^ 47 ≤ src.toNat ∨ off src % 64 ≠ 0 ∨ src.toNat / 2 ^ 31 % 64 ≠ 0 ∨ 2 ≤ src.toNat / 2 ^ 25 % 4 →
        Completes (.vxfer a b p) s (TakesTrap s 0x06 0 src s.cur.ipc)))

/-- R229 to R237, R88. `lineAddresses` are the addresses of the line's pieces. -/
def Obligations.TensorOperations : Prop :=
  (∀ (d a b : GReg) (p : PReg) (s : State), s.me.pred p = true → NoRelaxed s → s.flaws = [] → s.me.walkFault = [] →
    threadWaits s = false →
    let w := s.me.reg a
    let v := s.me.reg b
    let tag : BitVec 60 := w.truncate 60
    let part := s.part (pidOf s s.cur.tile)
    let ten := tabGet Tensor.reset part.tensors (w.toNat / 2 ^ 48)
    let send := fun (u : State) (act : GlobalAct) => u.event (.homeSliceAccess
      ⟨pidOf u s.cur.tile, tag, s.cur.tile, s.cur.thread, act⟩)
    let e := s.here.eng
    let numbered := fun (store : Bool) => s.setHere { s.here with eng := { e with
      cnum := e.cnum + 1, pending := e.pending ++ [e.cnum + 1]
      lines := e.lines ++ [⟨e.cnum + 1, s.cur.thread, store, tag, v.toNat, []⟩] } }
    let after := { s.me.setReg d ((e.cnum + 1).zeroExtend 64) with
      lastCnum := e.cnum + 1, globalOut := s.me.globalOut + 1, pc := s.cur.npc }
    let free := (∀ k ∈ e.pending, e.cnum.toNat + 1 < k.toNat + 256) ∧ e.cnum ≠ BitVec.allOnes 32
    let ready := fun (write : Bool) => ∀ va ∈ lineAddresses part tag, PageReady s va write
    let issues := { s.me with globalOut := s.me.globalOut + 1, pc := s.cur.npc }
    let area := v.toNat % 64 = 0 ∧ v.toNat + 1040 ≤ 0x1800000
    (tagValid part w = true →
      (area → ready false → free → Completes (.ltld d a b p) s
        (Becomes (send (numbered false) (.lineLoad v.toNat (e.cnum + 1).toNat)) after)) ∧
      (area → heldIn s.here v.toNat 1040 = none → ready true → free → Completes (.ltst d a b p) s
        (Becomes (send (numbered true) (.lineStore (storeBytes s.here v.toNat 1040) (e.cnum + 1).toNat)) after)) ∧
      (v = 0x100 →
        (lineHit part tag = none → ready false → Completes (.ltpf a b p) s (Becomes (send s .fill) issues)) ∧
        ((lineHit part tag).isSome = true → Completes (.ltpf a b p) s (OnlyAdvances s))) ∧
      (∀ k dst, k < ten.rank.toNat → k < 4 → w.toNat / 2 ^ 48 ≠ 0 → ten.halo ≠ 0 → (k = 0 → ten.g64 = false) →
        v.toNat < 2 ^ 46 → v.toNat / 2 ^ 42 % 4 = k → NamesTile s (v.toNat / 2 ^ 25 % 2 ^ 12) dst →
        v.toNat % 2 ^ 25 % 8 = 0 → v.toNat % 2 ^ 25 + stripSize ten k ≤ 0x1800000 →
        ready false →
        Completes (.lthalo a b p) s (Becomes
          (send s (.halo k (v.getLsbD 44) (v.getLsbD 45) dst (v.toNat % 2 ^ 25) (v.toNat / 2 ^ 37 % 32))) issues)) ∧
      (ownWaiting s (w.toNat / 2 ^ 48) = [] →
        (v = 0 → Completes (.ltq d a b p) s (WritesReg s d
          (match lineHit part tag with | some l => (if l.dirty then 3 else 1) | none => 0))) ∧
        (v = 1 → Completes (.ltq d a b p) s (WritesReg s d (ten.gen.zeroExtend 64))) ∧
        (v = 2 → s.me.pl ≠ 0 → Completes (.ltq d a b p) s (WritesReg s d (BitVec.ofNat 64 (homeSlice part tag)))))) ∧
    (s.me.inh = false →
      (tagValid part w = false →
        Completes (.ltld d a b p) s (TakesTrap s 0x06 0 w s.cur.ipc) ∧
        Completes (.ltst d a b p) s (TakesTrap s 0x06 0 w s.cur.ipc) ∧
        Completes (.ltpf a b p) s (TakesTrap s 0x06 0 w s.cur.ipc) ∧
        Completes (.lthalo a b p) s (TakesTrap s 0x06 0 w s.cur.ipc) ∧
        (v.toNat < 3 → Completes (.ltq d a b p) s (TakesTrap s 0x06 0 w s.cur.ipc))) ∧
      (tagValid part w = true → ¬ area →
        Completes (.ltld d a b p) s (TakesTrap s 0x06 0 v s.cur.ipc) ∧
        Completes (.ltst d a b p) s (TakesTrap s 0x06 0 v s.cur.ipc)) ∧
      (3 ≤ v.toNat → Completes (.ltq d a b p) s (TakesTrap s 0x06 0 v s.cur.ipc)))) ∧
  ∀ (a b : GReg) (p : PReg) (s : State), s.me.pred p = true → NoRelaxed s → s.flaws = [] →
    let t := s.me.reg a
    let v := s.me.reg b
    let tid := t.toNat
    let pid := pidOf s s.cur.tile
    let part := s.part pid
    let old := tabGet Tensor.reset part.tensors tid
    let on := { s.me with pc := s.cur.npc }
    let defines := fun (d : Tensor) => PartBecomes (s.setMe on) pid
      { part with tensors := tabPut (tabPut part.tensors tid d) tid { d with gen := old.gen + 1 } }
    let word := s.cur.word.zeroExtend 64
    (ownWaiting s tid = [] → 0 < tid → tid < 4096 → (old.gen.toNat + 1) % 2 ^ 16 ≠ 0 →
      (∀ bs d, bs = storeBytes s.here v.toNat 64 → d = readTensor bs old.gen → v.toNat % 64 = 0 →
        v.toNat + 64 ≤ 0x1800000 → heldIn s.here v.toNat 64 = none →
        (tensorOk bs d = true → Completes (.ltdef a b p) s (defines d)) ∧
        (tensorOk bs d = false → s.me.inh = false → Completes (.ltdef a b p) s (TakesTrap s 0x06 0 v s.cur.ipc))) ∧
      Completes (.ltinv a p) s (PartBecomes (s.setMe on) pid
        { part with tensors := tabPut part.tensors tid { old with gen := old.gen + 1 } })) ∧
    (tid < 4096 → ownWaiting s tid = [] → (∀ k l, (k, l) ∈ part.lines → k / 2 ^ 48 = tid → l.dirty = false) →
      Completes (.ltwb a p) s (OnlyAdvances s)) ∧
    (s.me.inh = false →
      (4096 ≤ tid →
        Completes (.ltdef a b p) s (TakesTrap s 0x06 0 t s.cur.ipc) ∧
        Completes (.ltinv a p) s (TakesTrap s 0x06 0 t s.cur.ipc) ∧
        Completes (.ltwb a p) s (TakesTrap s 0x06 0 t s.cur.ipc)) ∧
      (tid < 4096 → v.toNat % 64 ≠ 0 ∨ 0x1800000 < v.toNat + 64 →
        Completes (.ltdef a b p) s (TakesTrap s 0x06 0 v s.cur.ipc)) ∧
      (tid = 0 → v.toNat % 64 = 0 → v.toNat + 64 ≤ 0x1800000 → s.me.pl = 0 →
        Completes (.ltdef a b p) s (TakesTrap s 0x02 0 word s.cur.ipc)) ∧
      (tid = 0 → Completes (.ltinv a p) s (TakesTrap s 0x02 0 word s.cur.ipc)))

/-- R251, R252, R254, R377; FENCE.P and FENCE.S orderings of R103. -/
def Obligations.BarriersAndEvents : Prop :=
  ∀ (a : GReg) (p : PReg) (pl : Place) (s : State), s.me.pred p = true → NoRelaxed s → s.here.place = some pl →
    let v := s.me.reg a
    let h := s.me
    let on := { h with pc := s.cur.npc }
    let waits := Becomes s { h with st := .waiting .retry }
    let part := s.part pl.pid
    let reached := fun (e x : BitVec 32) => (e.toNat + 2 ^ 32 - x.toNat) % 2 ^ 32 < 2 ^ 31
    let count := tabGet 0 part.counters
    let named := v.toNat % 2 ^ 16 < 16 ∧ 1 ≤ v.toNat / 2 ^ 16 ∧ v.toNat / 2 ^ 16 ≤ 32768
    let bar := v.toNat % 16
    let sent := tabPut h.arrivals bar (.sent s.cur.ipc)
    let arrival := s.event (.barrierArrival pl.pid pl.lnum bar (v.toNat / 2 ^ 16) s.cur.tile s.cur.thread)
    (named →
      (tabFind h.arrivals bar = none → h.remoteOut = 0 → h.globalOut = 0 → h.faults = 0 →
        Completes (.bara a p) s (Becomes arrival { on with arrivals := sent }) ∧
        Completes (.bar a p) s (Becomes arrival { h with arrivals := sent, st := .parked (.barrier bar) })) ∧
      (tabFind h.arrivals bar = none → h.remoteOut ≠ 0 ∨ h.globalOut ≠ 0 →
        Completes (.bara a p) s waits ∧ Completes (.bar a p) s waits) ∧
      (tabFind h.arrivals bar = some .complete →
        Completes (.barw a p) s (Becomes s { on with arrivals := tabDel h.arrivals bar })) ∧
      (∀ x, tabFind h.arrivals bar = some x → x ≠ .complete →
        Completes (.barw a p) s (Becomes s { h with st := .parked (.barrier bar) }))) ∧
    (h.inh = false →
      (¬ named ∨ (tabFind h.arrivals bar).isSome = true →
        Completes (.bara a p) s (TakesTrap s 0x06 0 v s.cur.ipc) ∧
        Completes (.bar a p) s (TakesTrap s 0x06 0 v s.cur.ipc)) ∧
      (¬ named ∨ tabFind h.arrivals bar = none → Completes (.barw a p) s (TakesTrap s 0x06 0 v s.cur.ipc)) ∧
      (4096 ≤ v.toNat → Completes (.evsig a p) s (TakesTrap s 0x06 0 v s.cur.ipc)) ∧
      (v.toNat / 4096 % 2 ^ 20 ≠ 0 → Completes (.evwait a p) s (TakesTrap s 0x06 0 v s.cur.ipc))) ∧
    (s.cur.thread = 7 →
      (4096 ≤ v.toNat ∨ boundColl s s.cur.tile v.toNat = none → h.inh = false →
        Completes (.cstep a p) s (TakesTrap s 0x06 0 v s.cur.ipc)) ∧
      (∀ c made done, v.toNat < 4096 → boundColl s s.cur.tile v.toNat = some c →
        tabGet (0, 0) s.here.core.calls v.toNat = (made, done) →
        (done + 2 ≤ made → Completes (.cstep a p) s waits) ∧
        let l := s.launch pl.pid pl.lnum
        let key := 4096 * (made + 1) + v.toNat
        let split := ((tabFind l.calls key).map (·.1)).or (splitBlocks s s.here pl.pid v.toNat c)
        let latched := fun (ns : List Nat) => s.setLaunch pl.pid pl.lnum { l with
          calls := tabPut l.calls key (ns, (tabGet ([], 0) l.calls key).2) }
        (made < done + 2 → split = none → Completes (.cstep a p) s waits) ∧
        (∀ ns, made < done + 2 → split = some ns → Completes (.cstep a p) s
          (Becomes ((latched ns).setHere { s.here with core := { s.here.core with
            calls := tabPut s.here.core.calls v.toNat (made + 1, done)
            runs := s.here.core.runs ++ [⟨v.toNat, made + 1, none, pathRuns ns 0, []⟩] } }) on)))) ∧
    (v.toNat < 4096 → h.faults = 0 →
      (h.remoteOut ≠ 0 ∨ h.globalOut ≠ 0 ∨ h.writebackOut ≠ 0 → Completes (.evsig a p) s waits) ∧
      (h.remoteOut = 0 → h.globalOut = 0 → h.writebackOut = 0 →
        (part.snapi = 0 → Completes (.evsig a p) s (fun t =>
          tabGet 0 (t.part pl.pid).counters v.toNat = count v.toNat + 1 ∧
          (∀ k, k ≠ v.toNat → tabGet 0 (t.part pl.pid).counters k = count k) ∧
          Becomes { s with parts := t.parts, agenda := t.agenda } on t ∧
          (∀ k, { t.part k with counters := (s.part k).counters } = s.part k) ∧
          (∃ l, t.agenda = s.agenda ++ l ++ [.event (.dispatch pl.pid)] ∧
            ∀ w, w ∈ l ↔ ∃ tile n x e, w = .event (.threadWake tile n) ∧ n < 8 ∧ (tile, x) ∈ s.tiles ∧
              pidOf s tile = pl.pid ∧ (x.thread n).st = .parked (.event v.toNat e)))) ∧
        (part.snapi ≠ 0 → Completes (.evsig a p) s (LaunchBecomes (s.setMe on) pl.pid pl.lnum
          { s.launch pl.pid pl.lnum with heldEvents := (s.launch pl.pid pl.lnum).heldEvents ++ [v.toNat] })))) ∧
    (v.toNat / 4096 % 2 ^ 20 = 0 →
      let e := count (v.toNat % 4096)
      let x : BitVec 32 := v.extractLsb' 32 32
      (reached e x → Completes (.evwait a p) s (OnlyAdvances s)) ∧
      (¬ reached e x → Completes (.evwait a p) s
        (Becomes s { h with st := .parked (.event (v.toNat % 4096) x) })))

/-- R139, Tables 05-9, 06-5 and 14-2; R130, R314 to R318, R325, R327, R328, R351, R363. CSRW of EVLOG is stated here for EN = 0. -/
def Obligations.CsrAccess : Prop :=
  (∀ (d : GReg) (p : PReg) (s : State), s.me.pred p = true →
    let h := s.me
    let k := s.here.core
    let pid := pidOf s s.cur.tile
    let part := s.part pid
    let b := fun (c : Bool) => if c then 1 else 0
    let reads := fun (n : Nat) (v : Word) => Completes (.csrr d (BitVec.ofNat 10 n) p) s (WritesReg s d v)
    reads 0x001 (h.fflags.zeroExtend 64) ∧ reads 0x002 h.paramv ∧ reads 0x003 (h.next.zeroExtend 64) ∧
    (∀ n, n < 16 → reads (0x010 + n) (k.shared[n]?.getD 0)) ∧
    (s.cur.thread = 7 →
      reads 0x020 (k.csel.zeroExtend 64) ∧ reads 0x021 (k.gsel.zeroExtend 64) ∧ reads 0x024 (k.esel.zeroExtend 64) ∧
      reads 0x022 (BitVec.ofNat 64 (selectedGroup s s.cur.tile)) ∧
      reads 0x023 (BitVec.ofNat 64 (selectedGroup s s.cur.tile / 2 ^ 64)) ∧
      reads 0x025 (tabGet 0 part.edges k.esel.toNat) ∧
      (∀ j, j < 8 → reads (0x028 + j) (match boundColl s s.cur.tile k.csel.toNat with
        | none => 0
        | some c =>
          if j < c.paths.length then BitVec.ofNat 64 ((tabGet 0 k.rates (8 * k.csel.toNat + j)).toNat +
            2 ^ 32 * (tabGet 0 k.weights (8 * k.csel.toNat + j)).toNat +
            2 ^ 40 * b (pathDown s (placeOf s s.cur.tile).pid c j))
          else 0))) ∧
    (1 ≤ h.pl.toNat →
      reads 0x100 (BitVec.ofNat 64 (h.pl.toNat + 4 * h.ppl.toNat + 16 * b h.inh)) ∧ reads 0x101 k.tvec ∧
      reads 0x102 (BitVec.ofNat 64 (h.cause.toNat + 256 * h.sub.toNat)) ∧ reads 0x103 h.tepc ∧ reads 0x104 h.tval ∧
      reads 0x105 h.tscr ∧
      reads 0x110 (BitVec.ofNat 64 (pid % 64 + 2 ^ 6 * (part.x0 % 64) + 2 ^ 12 * (part.y0 % 64) +
        2 ^ 18 * ((part.w - 1) % 64) + 2 ^ 24 * ((part.h - 1) % 64))) ∧
      reads 0x111 (BitVec.ofNat 64 (b part.elastic)) ∧
      reads 0x112 (BitVec.ofNat 64 (part.alloc % 2 ^ 16 + 2 ^ 16 * (part.lastPower % 2 ^ 16))) ∧
      reads 0x113 part.ptroot ∧ reads 0x114 part.evlog) ∧
    (h.pl = 3 → reads 0x300 k.mtvec) ∧
    (∀ n : BitVec 10, csrOf n = none → h.inh = false →
      Completes (.csrr d n p) s (TakesTrap s 0x01 0 (s.cur.word.zeroExtend 64) s.cur.ipc) ∧
      Completes (.csrw d n p) s (TakesTrap s 0x01 0 (s.cur.word.zeroExtend 64) s.cur.ipc))) ∧
  ∀ (d : GReg) (p : PReg) (s : State), s.me.pred p = true →
    let h := s.me
    let v := h.reg d
    let on := { h with pc := s.cur.npc }
    let k := s.here.core
    let pid := pidOf s s.cur.tile
    let part := s.part pid
    let write := fun (n : Nat) (P : State → Prop) => Completes (.csrw d (BitVec.ofNat 10 n) p) s P
    let refuses := fun (n : Nat) => h.inh = false → write n (TakesTrap s 0x06 0 v s.cur.ipc)
    let core := fun (c : Core) => Becomes (s.setHere { s.here with core := { c with threads := k.threads } }) on
    let handler := 0xE000 ≤ v.toNat ∧ v.toNat < 0x10000 ∧ v.toNat % 4 = 0
    let lsz := v.toNat / 4 % 32
    write 0x001 (Becomes s { on with fflags := v.truncate 5 }) ∧
    write 0x002 (OnlyAdvances s) ∧ write 0x003 (OnlyAdvances s) ∧
    (∀ n, n < 16 →
      (h.globalOut = 0 → write (0x010 + n) (fun t =>
        Becomes (s.setHere { s.here with core := { k with shared := t.here.core.shared } }) on t ∧
        t.here.core.shared[n]? = some v ∧ ∀ m, m ≠ n → t.here.core.shared[m]? = k.shared[m]?)) ∧
      (h.globalOut ≠ 0 → write (0x010 + n) (Becomes s { h with st := .waiting .retry }))) ∧
    (s.cur.thread = 7 →
      write 0x022 (OnlyAdvances s) ∧ write 0x023 (OnlyAdvances s) ∧ write 0x025 (OnlyAdvances s) ∧
      (v.toNat < 4096 → write 0x021 (core { k with gsel := v.truncate 12 })) ∧
      (4096 ≤ v.toNat → refuses 0x021 ∧ refuses 0x020) ∧
      (v.toNat < 32 → write 0x024 (core { k with esel := v.truncate 5 })) ∧ (32 ≤ v.toNat → refuses 0x024) ∧
      (v.toNat < 4096 →
        (boundColl s s.cur.tile v.toNat = none → refuses 0x020) ∧
        ((boundColl s s.cur.tile v.toNat).isSome = true → write 0x020 (core { k with csel := v.truncate 12 }))) ∧
      (∀ j c, j < 8 → boundColl s s.cur.tile k.csel.toNat = some c →
        (j < c.paths.length → write (0x028 + j) (core { k with
          weights := tabPut k.weights (8 * k.csel.toNat + j) (v.extractLsb' 32 8) })) ∧
        (c.paths.length ≤ j → write (0x028 + j) (OnlyAdvances s)))) ∧
    (1 ≤ h.pl.toNat →
      (let q : BitVec 2 := v.extractLsb' 2 2
       write 0x100 (Becomes s { on with
         ppl := if q = 2 ∨ h.pl.toNat < q.toNat then h.ppl else q, inh := v.getLsbD 4 })) ∧
      (handler → write 0x101 (core { k with tvec := v })) ∧ (¬ handler → refuses 0x101) ∧
      write 0x102 (Becomes s { on with cause := v.truncate 8, sub := v.extractLsb' 8 8 }) ∧
      write 0x103 (Becomes s { on with tepc := v }) ∧ write 0x104 (Becomes s { on with tval := v }) ∧
      write 0x105 (Becomes s { on with tscr := v }) ∧ write 0x110 (OnlyAdvances s) ∧ write 0x112 (OnlyAdvances s) ∧
      write 0x111 (PartBecomes (s.setMe on) pid { part with elastic := v.getLsbD 0 }) ∧
      (let root := v.toNat / 2 ^ 14 % 2 ^ 38 * 2 ^ 14
       let ok := v.toNat / 2 % 2 ^ 13 = 0 ∧ v.toNat < 2 ^ 52 ∧ owned part root = true
       (ok → write 0x113 (PartBecomes (s.setMe on) pid { part with ptroot := v })) ∧ (¬ ok → refuses 0x113)) ∧
      (v.getLsbD 0 = false →
        write 0x114 (PartBecomes (s.setMe on) pid { part with evlog := v &&& 0x000FFFFFFFFFF07F })) ∧
      (v.getLsbD 0 = true → lsz < 6 ∨ 20 < lsz ∨ v.toNat / 2 ^ 51 % 2 = 0 ∨
        v.toNat / 2 ^ 12 * 2 ^ 12 % 2 ^ (lsz + 6) ≠ 0 → refuses 0x114)) ∧
    (h.pl = 3 → (handler → write 0x300 (core { k with mtvec := v })) ∧ (¬ handler → refuses 0x300))

/-- R320 to R323. -/
def Obligations.SystemOperations : Prop :=
  ∀ (a b : GReg) (p : PReg) (s : State), s.me.pred p = true → 1 ≤ s.me.pl.toNat →
    let x := s.me.reg a
    let v := s.me.reg b
    let pid := pidOf s s.cur.tile
    let on := { s.me with pc := s.cur.npc }
    (v.toNat < 2 → Completes (.tlbinv a b p) s (fun t =>
      t.me = on ∧ SameBytes s t ∧
      (∀ k g, g ∈ fieldTlb (t.part pid) k ↔ g ∈ fieldTlb (s.part pid) k ∧ (v ≠ 1 ∧ coversVa g x.toNat = false)) ∧
      (∀ tile, holdsTile (s.part pid) tile = true →
        ∀ g, g ∈ (t.tile tile).tlb ↔ g ∈ (s.tile tile).tlb ∧ (v ≠ 1 ∧ coversVa g x.toNat = false)) ∧
      (∀ tile, holdsTile (s.part pid) tile = false → (t.tile tile).tlb = (s.tile tile).tlb) ∧
      (∀ q, q ≠ pid → t.part q = s.part q) ∧
      (∀ u, { t.tile u with
        tlb := (s.tile u).tlb, core := { (t.tile u).core with threads := (s.tile u).core.threads } } = s.tile u) ∧
      { t.part pid with tlb := (s.part pid).tlb, walks := (s.part pid).walks } = s.part pid ∧
      { t with tiles := s.tiles, parts := s.parts } = s)) ∧
    (x.toNat ∈ liveLaunches (s.part pid) → Completes (.cutm a p) s
      (Becomes (startCut s pid x.toNat .preemption) { (startCut s pid x.toNat .preemption).me with pc := s.cur.npc })) ∧
    (s.me.inh = false →
      (2 ≤ v.toNat → Completes (.tlbinv a b p) s (TakesTrap s 0x06 0 v s.cur.ipc)) ∧
      (x.toNat ∉ liveLaunches (s.part pid) → Completes (.cutm a p) s (TakesTrap s 0x06 0 x s.cur.ipc)) ∧
      (x.toNat % 64 ≠ 0 → Completes (.cfgld a b p) s (TakesTrap s 0x06 0 x s.cur.ipc))) ∧
    (∀ len doff, x.toNat % 64 = 0 → v.toNat = len + 2 ^ 16 * doff → len % 4 = 0 → 4 ≤ len → len ≤ 8192 → doff % 4 = 0 →
      doff + len ≤ 8192 → x.toNat + len ≤ 0x1800000 → otherPrivileged s = false → NoRelaxed s → heldIn s.here x.toNat len = none →
      Completes (.cfgld a b p) s (fun t =>
        t.me = on ∧
        (∀ i, i < len → imemByte t s.cur.tile (0xE000 + doff + i) = storeByte s s.cur.tile (x.toNat + i)) ∧
        (∀ u c, u ≠ s.cur.tile ∨ c < 0xE000 + doff ∨ 0xE000 + doff + len ≤ c → imemByte t u c = imemByte s u c) ∧
        Becomes (s.setHere { s.here with core := { s.here.core with imem := t.here.core.imem } }) on t)) ∧
    Completes (.haltc p) s (fun t =>
      t.here.core.haltc = true ∧ t.me.pc = s.cur.npc ∧ SameBytesButStores s t ∧
      ((∀ n, (s.thread s.cur.tile n).relaxed = []) → SameBytes s t) ∧ (∀ u, u ≠ s.cur.tile → t.tile u = s.tile u) ∧
      (∀ n, (t.thread s.cur.tile n).g = (s.thread s.cur.tile n).g ∧ (t.thread s.cur.tile n).p = (s.thread s.cur.tile n).p))

/-- R253. What acceptance does to the queue and the launch is another statement; `spanBytes` are the bytes of one span of the packet. -/
def Obligations.LaunchInstruction : Prop :=
  ∀ (d a b : GReg) (p : PReg) (s : State), s.me.pred p = true → NoRelaxed s →
    let h := s.me
    let q := (h.reg b).toNat
    let pid := pidOf s s.cur.tile
    let lies := lineSpans (h.reg a).toNat 64
    (64 ≤ q → h.inh = false → Completes (.lnch d a b p) s (TakesTrap s 0x06 0 (h.reg b) s.cur.ipc)) ∧
    (q < 64 → h.remoteOut ≠ 0 ∨ h.globalOut ≠ 0 ∨ h.writebackOut ≠ 0 →
      Completes (.lnch d a b p) s (Becomes s { h with st := .waiting .retry })) ∧
    (q < 64 → h.remoteOut = 0 → h.globalOut = 0 → h.writebackOut = 0 → h.faults = 0 → h.walkFault = [] →
      threadWaits s = false → (∀ k n va, (k, n, va) ∈ lies → PageReady s va false) →
      (arrivalWaits s pid = true → Completes (.lnch d a b p) s (Becomes s { h with st := .waiting .retry })) ∧
      (arrivalWaits s pid = false →
      let part := s.part pid
      let u := s.setPart pid { part with nextArrival := s.cycle + 1 }
      let bs := lies.flatMap (fun (_, n, va) =>
        match tlbFind s.here.tlb va with | some g => spanBytes s pid g n va | none => [])
      let ok := packetOk part (.thread s.cur.tile s.cur.thread h.pl) bs
      let n := launchNumber part
      let room := (part.queue q).en = true ∧ queueCount part q < 64
      let after := fun (t : State) (v : Word) => Becomes t { t.me.setReg d v with pc := s.cur.npc }
      let typ := field bs 0 1
      (¬ room → h.inh = false → Completes (.lnch d a b p) s (TakesTrap s 0x14 1 (BitVec.ofNat 64 q) s.cur.ipc)) ∧
      (room → h.inh = false → ok = false → typ ≠ 3 → typ ≠ 4 →
        Completes (.lnch d a b p) s (TakesTrap s 0x06 0 (h.reg a) s.cur.ipc)) ∧
      (room → h.inh = false → h.pl = 0 → typ = 3 ∨ typ = 4 →
        Completes (.lnch d a b p) s (TakesTrap s 0x02 0 (s.cur.word.zeroExtend 64) s.cur.ipc)) ∧
      (room → ok = true → part.snapi = 0 →
        (typ = 1 → Completes (.lnch d a b p) s (after (acceptLaunch (takeNumberOf u pid).1 pid q n bs) (BitVec.ofNat 64 n))) ∧
        (typ = 2 → Completes (.lnch d a b p) s (after (applyPatch u pid q bs) 0)) ∧
        (typ = 3 → h.pl ≠ 0 →
          Completes (.lnch d a b p) s (after (acceptBind u.nextFree pid bs) (Config.lnchResult u.free))) ∧
        (typ = 4 → h.pl ≠ 0 →
          Completes (.lnch d a b p) s (after (freeBinding u.nextFree pid (field bs 2 2)) (Config.lnchResult u.free)))) ∧
      (∀ pl, room → ok = true → part.snapi ≠ 0 → typ = 1 → u.here.place = some pl → pl.pid = pid → Completes (.lnch d a b p) s (fun t =>
        t.me = { u.me.setReg d (BitVec.ofNat 64 n) with pc := s.cur.npc } ∧
        (t.launch pid pl.lnum).heldPackets = (u.launch pid pl.lnum).heldPackets ++ [(q, n, bs)] ∧
        (t.part pid).nextLaunch = numberAfter n ∧ SameBytes u t))))

/-- R144 to R147. `repetition` gives the guard and the body of repetition k of the word behind an RPT. -/
def Obligations.Prefixes : Prop :=
  (∀ (w : Word32) (d a : GReg) (p : PReg) (sz : BitVec 2) (i : BitVec 11) (s : State),
    (∀ o ∈ [Instr.ld d a p sz i, .lds d a p sz i, .peekf d a p i], decodeSeqWord w.toNat = some o →
      (∃ t, exec o s = .next t ∧ exec (.rlx w) s = .next t)) ∧
    (∀ o ∈ [Instr.ldf d a p i, .ldfe d a p i, .stef d a p i, .stf d a p i, .sete a p i, .setf a p i],
      decodeSeqWord w.toNat = some o →
      (s.me.pred p = true → s.me.inh = false → Completes (.rlx w) s (TakesTrap s 0x0A 0 s.cur.ipc s.cur.ipc)) ∧
      (s.me.pred p = false → Completes (.rlx w) s (OnlyAdvances s))) ∧
    (decodeSeqWord w.toNat = none → s.me.inh = false →
      Completes (.rlx w) s (TakesTrap s 0x01 0 (s.cur.word.zeroExtend 64) s.cur.ipc)) ∧
    (let n := 2 ^ sz.toNat
     let va := BitVec.ofInt 64 ((s.me.reg a).toInt + i.toInt * 2 ^ sz.toNat)
     decodeSeqWord w.toNat = some (.st d a p sz i) → s.me.pred p = true → StoreReady s va n → NoRelaxed s →
      (Config.relaxDeferred s.free = true → Completes (.rlx w) s (Becomes s.nextFree
        { s.me with relaxed := [(va.toNat, natBytes n (s.me.reg d).toNat)], pc := s.cur.npc })) ∧
      (Config.relaxDeferred s.free = false → Completes (.rlx w) s (fun t =>
        t.me = { s.me with pc := s.cur.npc } ∧ StoresBytes s s.cur.tile va.toNat n (s.me.reg d).toNat t)))) ∧
  (∀ (count : BitVec 10) (srd sra srb : BitVec 3) (relaxed : Bool) (w : Word32) (s : State),
    let i := Instr.rpt count srd sra srb relaxed w
    let stay := fun (k : Nat) (t : State) => Becomes t
      (if k + 1 < count.toNat then { t.me with next := BitVec.ofNat 10 (k + 1), rptAt := some t.cur.ipc }
       else { t.me with next := 0, rptAt := none, pc := t.cur.npc })
    let at_ := fun k => s.setMe { s.me with next := BitVec.ofNat 10 k, rptAt := some s.cur.ipc }
    (rptAllowed count.toNat srd sra srb relaxed w.toNat = false → s.me.inh = false →
      Completes i s (TakesTrap s 0x01 0 (s.cur.word.zeroExtend 64) s.cur.ipc)) ∧
    (∀ p body, rptAllowed count.toNat srd sra srb relaxed w.toNat = true →
      repetition srd sra srb relaxed w 0 = some (p, body) →
      (s.me.pred p = false ∨ count = 0 →
        Completes i s (Becomes s { s.me with next := 0, rptAt := none, pc := s.cur.npc })) ∧
      (∀ t, s.me.pred p = true → count ≠ 0 → body (at_ 0) = .done t → Completes i s (stay 0 t)) ∧
      (∀ c sub v e, s.me.pred p = true → count ≠ 0 → body (at_ 0) = .trap c sub v e → s.me.inh = false →
        Completes i s (fun t => t.me.next = 0 ∧ TakesTrap (at_ 0) c sub v e t))) ∧
    (∀ n k p body, decodeSeq (fetchWords s.here s.me s.cur.ipc) = .instr i n → s.me.next.toNat = k → k < count.toNat →
      repetition srd sra srb relaxed w k = some (p, body) →
      (∀ t, body (at_ k) = .done t → Completes .rptRepetition s (stay k t)) ∧
      (∀ c sub v e, body (at_ k) = .trap c sub v e → s.me.inh = false →
        Completes .rptRepetition s (fun t => t.me.next = s.me.next ∧ TakesTrap (at_ k) c sub v e t))) ∧
    (∀ (d a b : GReg) (p : PReg) (k n : Nat), decodeSeqWord w.toNat = some (.add d a b p) → k < count.toNat →
      relaxed = false → d.toNat + k * srd.toNat < 32 → a.toNat + k * sra.toNat < 32 → b.toNat + k * srb.toNat < 32 →
      let reg := fun (r : GReg) (st : BitVec 3) => BitVec.ofNat 5 (r.toNat + k * st.toNat)
      let sum := s.me.reg (reg a sra) + s.me.reg (reg b srb)
      let after := { s.me.setReg (reg d srd) sum with
        next := if k + 1 < count.toNat then BitVec.ofNat 10 (k + 1) else 0
        rptAt := if k + 1 < count.toNat then some s.cur.ipc else none
        pc := if k + 1 < count.toNat then s.me.pc else s.cur.npc }
      (k = 0 → s.me.pred p = true → rptAllowed count.toNat srd sra srb false w.toNat = true →
        Completes i s (Becomes s after)) ∧
      (decodeSeq (fetchWords s.here s.me s.cur.ipc) = .instr i n → s.me.next.toNat = k →
        Completes .rptRepetition s (Becomes s after))))

/-- R150, R151, R154 (sources), R257 to R259, R264 to R271. -/
def Obligations.FabricOps : Prop :=
  (∀ (st : BitVec 3) (a b : BitVec 5) (d : BitVec 4) (w : BitVec 1) (s : State),
    let imm : Word32 := (s.cur.ra.truncate 12 : BitVec 12).zeroExtend 32
    let fp := fun c => (sourceValue s (imm <<< 20) c).toNat
    let pair := fun c => (sourceValue s (imm <<< 20 ||| imm <<< 4) c).toNat
    let int := fun c => sourceValue s ((s.cur.ra.truncate 12 : BitVec 12).signExtend 32) c
    let low := fun c => (sourceValue s (imm <<< 4) c).toNat
    let z := (sourceC s).toNat
    let lanes := fun (f : Nat → Nat → Nat × BitVec 5) (x y : Nat) =>
      let l := f (x % 2 ^ 16) (y % 2 ^ 16)
      let h := f (x / 2 ^ 16) (y / 2 ^ 16)
      (l.1 + 2 ^ 16 * h.1, l.2 ||| h.2)
    let two : List (Instr × Nat × (Nat × BitVec 5)) :=
      [(.fadd st a b d w, 4, fpAdd fp32 (fp a) (fp b)), (.fsub st a b d w, 4, fpSub fp32 (fp a) (fp b)),
       (.fmul st a b d w, 4, fpMul fp32 (fp a) (fp b)), (.ffma st a b d w, 4, fpFma fp32 (fp a) (fp b) z),
       (.fmin st a b d w, 1, fpMinMax fp32 false (fp a) (fp b)), (.fmax st a b d w, 1, fpMinMax fp32 true (fp a) (fp b)),
       (.fcmplt st a b d w, 1, fpLt fp32 (fp a) (fp b)), (.fcmpeq st a b d w, 1, fpEq fp32 (fp a) (fp b)),
       (.hadd2 st a b d w, 4, lanes (fpAdd bf16) (pair a) (pair b)),
       (.hmul2 st a b d w, 4, lanes (fpMul bf16) (pair a) (pair b)),
       (.hfma2 st a b d w, 4,
         let l := fpFma bf16 (pair a % 2 ^ 16) (pair b % 2 ^ 16) (z % 2 ^ 16)
         let h := fpFma bf16 (pair a / 2 ^ 16) (pair b / 2 ^ 16) (z / 2 ^ 16)
         (l.1 + 2 ^ 16 * h.1, l.2 ||| h.2)),
       (.hmax2 st a b d w, 1, lanes (fpMinMax bf16 true) (pair a) (pair b)),
       (.cvtbfs st a b d w, 2, fp32ToBf16Stochastic (fp a) (int b).toNat),
       (.cvte4s st a b d w, 2, fp32ToE4m3Stochastic (fp a) (int b).toNat)]
    let one : List (Instr × Nat × (Nat × BitVec 5)) :=
      [(.fabs st a d w, 1, (fp a % 2 ^ 31, 0)), (.fneg st a d w, 1, ((fp a + 2 ^ 31) % 2 ^ 32, 0)),
       (.cvtif st a d w, 2, intToFp32 (int a).toInt), (.cvtfi st a d w, 2, fp32ToInt (fp a)),
       (.cvtbf st a d w, 2, fp32Narrow bf16 (fp a)), (.cvte4 st a d w, 2, fp32ToE4m3 (fp a)),
       (.cvte5 st a d w, 2, fp32Narrow e5m2 (fp a)), (.unpk st a d w, 1, bf16ToFp32 (low a % 2 ^ 16)),
       (.frcp st a d w, 5, fpRcp (fp a)), (.frsq st a d w, 5, fpRsq (fp a)), (.fexp2 st a d w, 5, fpExp2 (fp a)),
       (.flog2 st a d w, 5, fpLog2 (fp a))]
    ((s.region s.cur.region).sv.getLsbD st.toNat = true →
      (∀ o ∈ two, Completes o.1 s (Lands s [a, b] d w o.2.1 o.2.2)) ∧
      (∀ o ∈ one, Completes o.1 s (Lands s [a] d w o.2.1 o.2.2))) ∧
    ((s.region s.cur.region).sv.getLsbD st.toNat = false → ∀ o ∈ two ++ one, Completes o.1 s (Same s))) ∧
  ∀ (st : BitVec 3) (a b : BitVec 5) (d : BitVec 4) (w : BitVec 1) (s : State),
    let int := fun c => sourceValue s ((s.cur.ra.truncate 12 : BitVec 12).signExtend 32) c
    let x := int a
    let y := int b
    let z := sourceC s
    let n := y.toNat % 32
    let wrap := fun (i : Int) => ((BitVec.ofInt 32 i).toNat, (0 : BitVec 5))
    let word := fun (v : Word32) => (v.toNat, (0 : BitVec 5))
    let two : List (Instr × Nat × (Nat × BitVec 5)) :=
      [(.selp st a b d w, 1, word (if z ≠ 0 then x else y)),
       (.iadd st a b d w, 1, wrap (x.toInt + y.toInt)), (.isub st a b d w, 1, wrap (x.toInt - y.toInt)),
       (.imul st a b d w, 2, wrap (x.toInt * y.toInt)), (.imad st a b d w, 2, wrap (x.toInt * y.toInt + z.toInt)),
       (.iand st a b d w, 1, word (x &&& y)), (.ior st a b d w, 1, word (x ||| y)), (.ixor st a b d w, 1, word (x ^^^ y)),
       (.ishl st a b d w, 1, word (BitVec.ofNat 32 (x.toNat * 2 ^ n))), (.ishr st a b d w, 1, (x.toNat / 2 ^ n, 0)),
       (.isar st a b d w, 1, wrap (x.toInt / 2 ^ n)),
       (.imin st a b d w, 1, word (if x.toInt < y.toInt then x else y)),
       (.imax st a b d w, 1, word (if x.toInt < y.toInt then y else x)),
       (.icmplt st a b d w, 1, word (if x.toInt < y.toInt then 1 else 0)),
       (.icmpeq st a b d w, 1, word (if x = y then 1 else 0)),
       (.pack2 st a b d w, 1, (y.toNat % 2 ^ 16 * 2 ^ 16 + x.toNat % 2 ^ 16, 0)),
       (.prnd st a b d w, 3, word (kcg x y))]
    ((s.region s.cur.region).sv.getLsbD st.toNat = true →
      (∀ o ∈ two, Completes o.1 s (Lands s [a, b] d w o.2.1 o.2.2)) ∧
      Completes (.mov st a d w) s (Lands s [a] d w 1 (word x))) ∧
    ((s.region s.cur.region).sv.getLsbD st.toNat = false →
      (∀ o ∈ two, Completes o.1 s (Same s)) ∧ Completes (.mov st a d w) s (Same s)) ∧
    Completes (.nop st d) s (Same s)

/-- R272 to R274, R278 to R281, R153, R261. `chainLen` counts LEN over the ring words; `contribute` adds a lane (R279). -/
def Obligations.FabricMemoryAndJoins : Prop :=
  ∀ (st : BitVec 3) (a b : BitVec 5) (d : BitVec 4) (w : BitVec 1) (n e so we : BitVec 4) (s : State),
    let imm := s.cur.ra.toNat % 2 ^ 12
    let int := fun c => sourceValue s ((s.cur.ra.truncate 12 : BitVec 12).signExtend 32) c
    let pe := s.cur.pe
    let x := s.pe pe
    let r := s.region s.cur.region
    let tile := 64 * (pe / 512 / 8) + pe % 512 / 8
    let k := s.tile tile
    let entry := tabGet 0 k.mem.chainTable imm
    let chn := entry.toNat % 64
    let own := entry.toNat / 2 ^ 6 % 256
    let c := tabGet Chain.reset k.mem.chains chn
    let j := r.period - st.toNat
    let submits := fun (load : Bool) (data : Word32) (y : PE) =>
      let u := s.setTile tile { k with mem := { k.mem with chains := tabPut k.mem.chains chn { c with
        queue := c.queue ++ [⟨r.runs, j * chainLen s r tile chn + own, pe, load, int a, data, entry.extractLsb' 30 2, own, j,
          s.cur.region⟩] } } }
      PeBecomes (if c.queue = [] then u.after 1 (.storeOpPerform tile chn) else u) pe y
    let bind := tabGet 0 k.mem.preds imm
    let reads := fun cs => { x with reads := x.reads ++ latchesOf cs }
    let ca := (int a).toNat / 2 ^ 16
    let cb := (int b).toNat / 2 ^ 16
    let va := (int a).toNat % 2 ^ 16
    let vb := (int b).toNat % 2 ^ 16
    let joins := fun (both left right : Nat) =>
      let v := if ca = cb then both else if ca < cb then left else right
      let keeps := if ca = cb then [] else if ca < cb then latchesOf [b] else latchesOf [a]
      PeBecomes s pe { x with
        reads := x.reads ++ latchesOf [a, b], keeps := x.keeps ++ keeps
        inflight := x.inflight ++ [⟨0, d + r.rbase, w == 1, BitVec.ofNat 32 v, 0⟩] }
    let both := if ca = 0xFFFF then 0x80008000 else vb * 2 ^ 16 + va
    (r.sv.getLsbD st.toNat = true →
      (a = 31 →
        Completes (.pld st a d w) s (Lands s [a] d w 2 (memLoad x.scratch imm 4, 0)) ∧
        Completes (.pst st a b d) s (PeBecomes s pe { reads [b] with scratchWrite := some (imm, int b) })) ∧
      (a ≠ 31 →
        Completes (.pld st a d w) s (submits true 0 { reads [a] with awaited := x.awaited + 1 }) ∧
        Completes (.pst st a b d) s (submits false (int b) (reads [a, b]))) ∧
      (bind.toNat % 4 = 1 → Completes (.pred st a d) s (PeBecomes (sendFlit s tile tile (bind.toNat / 2 ^ 6 % 32) r.number
        (.reduction (bind.toNat / 2 ^ 32 % 2 ^ 25 + 4 * j) (bind.extractLsb' 2 4) (int a))) pe (reads [a]))) ∧
      (bind.toNat % 4 = 2 → Completes (.pred st a d) s (fun t => t.pe pe = reads [a] ∧ (∀ u, u ≠ pe → t.pe u = s.pe u) ∧
        let el := bind.toNat / 2 ^ 32 % 2 ^ 25 + j
        let op : BitVec 4 := bind.extractLsb' 2 4
        let f := (k.mem.predFlits.find? (fun f => f.rid == imm && f.q == el / 32)).getD
          ⟨imm, el / 32, op, bind.toNat / 2 ^ 6 % 32, List.replicate 32 (predIdentity op), 0, s.cur.region⟩
        let lane := predLane f.op (nth f.lanes (el % 32) 0) (int a)
        t.region s.cur.region = { r with flags := r.flags ||| lane.2 } ∧
        (∀ u, u ≠ s.cur.region → t.region u = s.region u) ∧
        TileBecomes { s with pes := t.pes, regions := t.regions, agenda := t.agenda } tile
          { k with mem := { k.mem with
            predFlits := k.mem.predFlits.filter (fun g => !(g.rid == imm && g.q == el / 32)) ++
              [{ f with lanes := setNth f.lanes (el % 32) lane.1, made := f.made + 1 }] } } t)) ∧
      Completes (.jnx st a b d w) s (joins both 0 0) ∧
      Completes (.jnu st a b d w) s (joins both va (vb * 2 ^ 16))) ∧
    (r.sv.getLsbD st.toNat = false →
      ∀ o ∈ [Instr.pld st a d w, .pst st a b d, .pred st a d, .jnx st a b d w, .jnu st a b d w], Completes o s (Same s)) ∧
    Completes (.route n e so we) s (PeBecomes s pe { x with
      drives := x.drives ++ (routed s n).1.map (Port.n, ·) ++ (routed s e).1.map (Port.e, ·) ++
        (routed s so).1.map (Port.s, ·) ++ (routed s we).1.map (Port.w, ·)
      reads := x.reads ++ (routed s n).2 ++ (routed s e).2 ++ (routed s so).2 ++ (routed s we).2 })

/-- R255, R262, Table 02-2. `loadPhase` writes the configuration of R262; `checkPhase` makes the checks of R421. -/
def Obligations.FabricInstructions : Prop :=
  ∀ (d a b : GReg) (p : PReg) (s : State), s.me.pred p = true → NoRelaxed s →
    let v := s.me.reg a
    let w := s.me.reg b
    let on := { s.me with pc := s.cur.npc }
    let traps := fun (i : Instr) (x : Word) => s.me.inh = false → Completes i s (TakesTrap s 0x06 0 x s.cur.ipc)
    (∀ k, namedRegion s (v.toNat % 4096) = some k →
      let r := s.region k
      (v.toNat < 4096 →
        (w.toNat < 8 → r.st = 0 ∨ r.st = 3 → ∀ ph, r.phases[w.toNat]? = some ph →
          (checkPhase s k ph = none → Completes (.fload a b p) s (Becomes (loadPhase s k ph false) on)) ∧
          (∀ t, checkPhase s k ph = some t → s.me.inh = false →
            Completes (.fload a b p) s (TakesTrap s 0x01 0 t s.cur.ipc))) ∧
        (w.toNat < 2 ^ 32 → r.loaded = true → r.st = 0 ∨ r.st = 3 →
          ∃ n, 16 ≤ n ∧ n < 24 ∧ (s.cycle + n) % 8 = 0 ∧ Completes (.fgo a b p) s
            (Becomes ((s.setRegion k { r with go := some (w.truncate 32) }).after n (.regionStart k)) on)) ∧
        (w.toNat % 2 ^ 32 < 2 ^ 9 → w.toNat / 8 % 32 = 0 → r.loaded = true → (r.phases[w.toNat % 8]?).isSome = true →
          (r.rewrite = none → Completes (.fphase a b p) s (Becomes
            ((s.setRegion k { r with rewrite := some (w.truncate 3, w.getLsbD 8, w.extractLsb' 32 32, s.cur.tile, s.cur.thread) }).event
              (.phaseRewrite k)) { s.me with st := .waiting .unit })) ∧
          (r.rewrite.isSome = true → Completes (.fphase a b p) s (Becomes s { s.me with st := .waiting .retry }))) ∧
        (r.st ≠ 0 → r.st ≠ 3 → Completes (.fstop a p) s (Becomes (s.setRegion k { r with stop := true }) on)) ∧
        (r.st ≠ 0 → r.st ≠ 3 →
          (w.toNat < 8 → traps (.fload a b p) v) ∧ (w.toNat < 2 ^ 32 → traps (.fgo a b p) v)) ∧
        (r.st = 0 ∨ r.st = 3 → traps (.fstop a p) v)) ∧
      (v.toNat / 4096 = 0 → Completes (.fstat d a p) s (WritesReg s d (BitVec.ofNat 64 (r.slot.toNat + 2 ^ 8 * r.pm1.toNat +
        2 ^ 16 * r.sv.toNat + 2 ^ 24 * r.rbase.toNat + 2 ^ 28 * r.st.toNat + 2 ^ 32 * r.iter.toNat)))) ∧
      (v.toNat / 4096 = 1 → Completes (.fstat d a p) s
        (WritesReg s d (BitVec.ofNat 64 (r.trip.toNat + 2 ^ 32 * r.smax.toNat)))) ∧
      (v.toNat / 4096 = 2 → Completes (.fstat d a p) s (WritesReg s d (r.flags.zeroExtend 64)))) ∧
    (namedRegion s (v.toNat % 4096) = none ∨ 4096 ≤ v.toNat →
      (w.toNat < 8 → traps (.fload a b p) v) ∧ (w.toNat < 2 ^ 32 → traps (.fgo a b p) v) ∧ traps (.fstop a p) v) ∧
    (namedRegion s (v.toNat % 4096) = none ∨ 3 * 4096 ≤ v.toNat → traps (.fstat d a p) v) ∧
    (8 ≤ w.toNat → traps (.fload a b p) w) ∧ (2 ^ 32 ≤ w.toNat → traps (.fgo a b p) w) ∧
    (2 ^ 9 ≤ w.toNat % 2 ^ 32 ∨ w.toNat / 8 % 32 ≠ 0 → traps (.fphase a b p) w)

/-- R256, R67, R284, Table 09-13. `checkTable` makes the checks of R157, R285, R286 and R293. -/
def Obligations.MatrixInstructions : Prop :=
  ∀ (d a b : GReg) (p : PReg) (s : State), s.me.pred p = true → NoRelaxed s → s.flaws = [] → s.here.matrix.reload = [] →
    let v := s.me.reg a
    let w := s.me.reg b
    let x := s.here
    let m := x.matrix
    let on := { s.me with pc := s.cur.npc }
    let idle := m.st ≠ 2 ∧ m.st ≠ 3
    let engine := fun n => Becomes (s.setHere { x with matrix := n }) on
    let traps := fun (i : Instr) (y : Word) => s.me.inh = false → Completes i s (TakesTrap s 0x06 0 y s.cur.ipc)
    (let e := w.toNat % 64 + 1
     let q := w.toNat / 256 % 256 + 1
     let bs := storeBytes x v.toNat (8 * e + 256)
     let ps := bs.drop (8 * e)
     let table := tableWords bs e
     let placed := v.toNat % 8 = 0 ∧ v.toNat + 8 * e + 256 ≤ 0x1800000
     (placed → w.toNat < 2 ^ 16 → w.toNat / 64 % 4 = 0 → idle → heldIn x v.toNat (8 * e + 256) = none →
       (checkTable ps table q = none → x.bobbin.expanding = [] → Completes (.mxload a b p) s (engine (loadTable m ps table q))) ∧
       (∀ t, checkTable ps table q = some t → s.me.inh = false →
         Completes (.mxload a b p) s (TakesTrap s 0x01 0 (BitVec.ofNat 64 t) s.cur.ipc))) ∧
     (¬ placed → traps (.mxload a b p) v) ∧
     (placed → 2 ^ 16 ≤ w.toNat ∨ w.toNat / 64 % 4 ≠ 0 → traps (.mxload a b p) w)) ∧
    (v.toNat < 2 ^ 32 → m.st ≠ 0 → idle → v ≠ 0 ∨ (∃ i, i ≤ m.em1.toNat ∧ (m.table[i]?.getD 0).toNat / 2 ^ 58 = 7) →
      ∃ n, 16 ≤ n ∧ n < 24 ∧ (s.cycle + n) % 8 = 0 ∧ Completes (.mxgo a p) s
        (Becomes ((s.setHere { x with matrix := { m with go := some (v.truncate 32) } }).after n (.matrixStart s.cur.tile)) on)) ∧
    (2 ^ 32 ≤ v.toNat ∨ m.st = 0 ∨ ¬ idle → traps (.mxgo a p) v) ∧
    (let ofmt : BitVec 2 := v.extractLsb' 8 2
     let size := if ofmt = 0 then 4 else if ofmt = 1 then 2 else 1
     let el := fun (i j : Nat) => drained m (v.toNat % 16) (v.toNat / 16 % 16) ofmt (v.getLsbD 10) m.rounds i j
     let placed := w.toNat % 64 = 0 ∧ w.toNat + 8192 * size ≤ 0x1800000
     (v.toNat < 2 ^ 11 → ofmt ≠ 3 → (v.getLsbD 10 = true → ofmt ≠ 0) →
       (placed → idle → heldIn x w.toNat (8192 * size) = none → Completes (.mxdrain a b p) s (fun t =>
         (∀ i j k, i < 64 → j < 128 → k < size →
           storeByte t s.cur.tile (w.toNat + size * (128 * i + j) + k) = BitVec.ofNat 8 ((el i j).1 / 256 ^ k)) ∧
         (∀ u c, u ≠ s.cur.tile ∨ c < w.toNat ∨ w.toNat + 8192 * size ≤ c → storeByte t u c = storeByte s u c) ∧
         (∀ k, k < 5 → (t.here.matrix.flags.getLsbD k = true ↔
           m.flags.getLsbD k = true ∨ ∃ i j, i < 64 ∧ j < 128 ∧ (el i j).2.getLsbD k = true)) ∧
         Becomes (s.setHere { x with
           matrix := { m with flags := t.here.matrix.flags }, store := { x.store with mem := t.here.store.mem } }) on t)) ∧
       (¬ placed → traps (.mxdrain a b p) w) ∧ (placed → ¬ idle → traps (.mxdrain a b p) v)) ∧
     (2 ^ 11 ≤ v.toNat ∨ ofmt = 3 ∨ (v.getLsbD 10 = true ∧ ofmt = 0) → traps (.mxdrain a b p) v)) ∧
    (v.toNat < 2 ^ 16 → idle → Completes (.mxclr a p) s (fun t =>
      (∀ i, i < 16 → t.here.matrix.acc[i]? = if v.getLsbD i then some [] else m.acc[i]?) ∧
      engine { m with acc := t.here.matrix.acc } t)) ∧
    (2 ^ 16 ≤ v.toNat ∨ ¬ idle → traps (.mxclr a p) v) ∧
    (v = 0 → Completes (.mxstat d a p) s (WritesReg s d (BitVec.ofNat 64 (m.mslot.toNat + 2 ^ 8 * m.qm1.toNat +
      2 ^ 16 * m.em1.toNat + 2 ^ 22 * m.st.toNat + 2 ^ 32 * m.rounds.toNat)))) ∧
    (v = 1 → Completes (.mxstat d a p) s (WritesReg s d (m.flags.zeroExtend 64))) ∧
    (v = 2 → heldIn x m.sigbase.toNat 128 = none → Completes (.mxstat d a p) s (WritesReg s d (BitVec.ofNat 64
      (((List.range 16).map (fun i => if isFull x (m.sigbase.toNat / 8 + i) then 2 ^ i else 0)).sum)))) ∧
    (3 ≤ v.toNat → traps (.mxstat d a p) v)

/-- R242 to R249, Tables 06-15 and 06-16. `commandFailure` is the checker of R239 to R241. -/
def Obligations.MemoryCommands : Prop :=
  ∀ (delta : BitVec 12) (ch : BitVec 5) (pc close : BitVec 1) (bg ba kind : BitVec 2) (row : BitVec 15)
    (col idx : BitVec 6) (reg : BitVec 7) (val : BitVec 8) (s : State), s.flaws = [] → s.reloading = [] →
    let n := s.cur.chan
    let c := s.chan n
    let t := if c.noDelta then c.last else c.last + delta.toNat
    let b := 16 * pc.toNat + 4 * bg.toNat + ba.toNat
    let all := (List.range 16).map (16 * pc.toNat + ·)
    let passes := fun (op p bank row : Nat) => commandFailure c t ⟨op, p, bank, row⟩ c.idlePos.isSome = none
    let next := fun (x : Chan) => { x with
      last := t, noDelta := false, idlePos := c.idlePos.map (· + 1)
      index := if c.idlePos.isSome then c.index else c.index + 1 }
    let issued := fun (base : State) (op p bank : Nat) (on : List Nat) (f : Bank → Bank) (x : Chan) (u : State) =>
      ChanBecomes base n { next x with
        banks := (u.chan n).banks, history := ⟨op, p, bank, t⟩ :: c.history.filter (fun h => decide (t < h.at_ + 512)) } u ∧
      ∀ k, k < 32 → (u.chan n).bank k = if k ∈ on then f (c.bank k) else c.bank k
    let shut := fun (x : Bank) => if bankOpen x t then { x with row := none, precharged := some t } else x
    let auto := fun (d : Nat) (x : Bank) => { x with precharged := some (max (t + d) (x.act.getD 0 + 40)) }
    let less := fun (x : Bank) => { x with debt := x.debt - 1 }
    let deep := fun (l : List Nat) => ∃ k ∈ l, (c.bank k).debt ≤ -8
    let off := 2 ^ 16 * row.toNat + 2 ^ 15 * pc.toNat + 2 ^ 13 * bg.toNat + 2 ^ 11 * ba.toNat + 32 * col.toNat
    let lane := tabGet Lane.reset c.lanes (64 * kind.toNat + idx.toNat)
    (ch.toNat = n % 32 →
      (passes 1 pc.toNat b row.toNat → Completes (.dact delta ch pc bg ba row) s
        (issued s 1 pc.toNat b [b] (fun x => { x with row := some row, act := some t, precharged := none }) c)) ∧
      (passes 2 pc.toNat b 0 → Completes (.dpre delta ch pc bg ba) s (issued s 2 pc.toNat b [b] shut c)) ∧
      (passes 3 pc.toNat 32 0 → Completes (.dprea delta ch pc) s (issued s 3 pc.toNat 32 all shut c)) ∧
      (passes 8 pc.toNat 32 0 →
        (¬ deep all → Completes (.drefab delta ch pc) s (issued s 8 pc.toNat 32 all less c)) ∧
        (deep all → Completes (.drefab delta ch pc) s (ChanBecomes s n (next c)))) ∧
      (passes 9 pc.toNat b 0 →
        (¬ deep [b] → Completes (.drefpb delta ch pc bg ba) s (issued s 9 pc.toNat b [b] less c)) ∧
        (deep [b] → Completes (.drefpb delta ch pc bg ba) s (ChanBecomes s n (next c)))) ∧
      (passes 0x0A pc.toNat b 0 → Completes (.drfm delta ch pc bg ba) s (issued s 0x0A pc.toNat b [] id c)) ∧
      (passes 0x0B 0 32 0 → Completes (.dsre delta ch) s (issued s 0x0B 0 32 [] id { c with selfRefresh := true })) ∧
      (passes 0x0C 0 32 0 → Completes (.dsrx delta ch) s (issued s 0x0C 0 32 [] id { c with selfRefresh := false })) ∧
      (passes 0x11 pc.toNat 32 0 → c.loadedAtM = true → Completes (.dmrs delta ch pc reg val) s
        (issued s 0x11 pc.toNat 32 [] id { c with modes := tabPut c.modes (128 * pc.toNat + reg.toNat) val })) ∧
      (kind ≠ 0 → laneFull s kind.toNat idx.toNat = false →
        let arrives := s.after 27 (.laneDataEntry n kind.toNat idx.toNat (memBytes c.mem off 32) (close == 1))
        (passes 4 pc.toNat b row.toNat → Completes (.drd delta ch pc bg ba row col kind idx close) s
          (issued arrives 4 pc.toNat b [] id c)) ∧
        (passes 5 pc.toNat b row.toNat → Completes (.drda delta ch pc bg ba row col kind idx close) s
          (issued arrives 5 pc.toNat b [b] (auto 6) c))) ∧
      (∀ (bs : List Byte) (base : State), bs.length = 32 →
          (kind = 2 ∧ heldIn (s.tile lane.target) lane.off 32 = none ∧ bs = storeBytes (s.tile lane.target) lane.off 32 ∧
            base = arcReceives (reachBanks s lane.target lane.off 32) lane.target lane.vc (tokensIn lane.off 32)) ∨
          (kind = 3 ∧ ∃ m, lineHit (s.part c.pid) lane.line = some m ∧ bs = (m.data.drop lane.off).take 32 ∧
            base = if lane.off + 32 < 1024 then s else setLine s c.pid lane.line { m with dirty := false }) →
        let taken := if kind = 3 ∧ 1024 ≤ lane.off + 32 then { lane with off := 0, target := lane.target + 1 }
          else { lane with off := lane.off + 32 }
        let writes := fun (op : Nat) (on : List Nat) (f : Bank → Bank) (u : State) =>
          issued base op pc.toNat b on f
            { c with lanes := tabPut c.lanes (64 * kind.toNat + idx.toNat) taken, mem := (u.chan n).mem } u ∧
          (∀ k, k < 32 → hbmByte u n (off + k) = bs[k]?.getD 0) ∧
          (∀ a, a < off ∨ off + 32 ≤ a → hbmByte u n a = hbmByte s n a)
        (passes 6 pc.toNat b row.toNat → Completes (.dwr delta ch pc bg ba row col kind idx) s (writes 6 [] id)) ∧
        (passes 7 pc.toNat b row.toNat → Completes (.dwra delta ch pc bg ba row col kind idx) s (writes 7 [b] (auto 26))))) ∧
    (∀ (m k : Nat) (data : List Byte) (shutting : Bool), let x := s.chan m
      (x.launch = none → Completes (.laneDataEntry m k idx.toNat data shutting) s (Same s)) ∧
      (x.launch.isSome = true →
        let l := tabGet Lane.reset x.lanes (64 * k + idx.toNat)
        let full := l.bytes ++ data
        let part := s.part x.pid
        (k = 2 → Completes (.laneDataEntry m k idx.toNat data shutting) s (Same (sendFlit
          (s.setChan m { x with lanes := tabPut x.lanes (64 * k + idx.toNat) { l with off := l.off + data.length } })
          l.target l.target l.vc 255 (.bytes l.off data false)))) ∧
        (k = 3 → full.length < 1024 → Completes (.laneDataEntry m k idx.toNat data shutting) s (ChanBecomes s m
          { x with lanes := tabPut x.lanes (192 + idx.toNat) { l with bytes := full } })) ∧
        (k = 3 → 1024 ≤ full.length → Completes (.laneDataEntry m k idx.toNat data shutting) s (Same (placeLine
          (s.setChan m { x with
            lanes := tabPut x.lanes (192 + idx.toNat) { l with bytes := full.drop 1024, target := l.target + 1 } })
          x.pid l.line ⟨full.take 1024, (blankLine part l.line).drop 1024, genOf part (tagTid l.line),
            false, homeSlice part l.line⟩)))) ∧
      (x.launch.isSome = true →
        let l := tabGet Lane.reset x.lanes (64 + idx.toNat)
        let block := l.block ++ data
        let g := laneGroup s x l
        let q := (s.tx g.1).send l.target
        let flit := fun (last : Bool) (bs : List Byte) =>
          (⟨l.target, (s.group g.2 l.target).vc, q.seq, last, false, l.blk, l.packed, bs⟩ : ZwiluFlit)
        let lane := fun (l : Lane) => { x with lanes := tabPut x.lanes (64 + idx.toNat) l }
        let queued := fun (f : ZwiluFlit) =>
          s.setTx g.1 ((s.tx g.1).setSend l.target { q with queue := q.queue ++ [f], seq := q.seq + 1 })
        (block.length < 576 → Completes (.laneDataEntry m 1 idx.toNat data false) s
          (ChanBecomes s m (lane { l with block := block }))) ∧
        (576 ≤ block.length → block.length < 1152 → Completes (.laneDataEntry m 1 idx.toNat data false) s
          (ChanBecomes (queued (flit false (block.take 576))) m
            (lane { l with block := block.drop 576, packed := l.packed + 576 }))) ∧
        (block.length ≤ 576 → Completes (.laneDataEntry m 1 idx.toNat data true) s
          (ChanBecomes (queued (flit true block)) m (lane { l with block := [], packed := 0, blk := l.blk + 1 }))))) ∧
    (∀ (slots : BitVec 6) (w : BitVec 64), ch.toNat = n % 32 → c.idlePos = none → c.frameStart = none →
      programStalled s n c = false → c.windowAt + 124 * c.window ≤ t →
      let idles := s.event (.idleFrameRun n)
      let shut := { c with last := t, noDelta := false }
      Completes (.dnop delta ch) s (ChanBecomes s n (next c)) ∧
      (slots ≠ 0 → (∀ k, k < 32 → bankOpen (c.bank k) t = false) →
        Completes (.ddem delta ch slots) s (ChanBecomes s n { next c with window := slots.toNat, windowAt := t })) ∧
      Completes (.dframe delta ch 0) s
        (ChanBecomes s n { shut with frameStart := some (c.index, t), index := c.index + 1 }) ∧
      Completes (.dframe delta ch 1) s (ChanBecomes idles n { shut with ended := true }) ∧
      (row ≠ 0 → c.loop = some 1 → Completes (.dloop delta ch row) s
        (ChanBecomes s n { shut with loop := none, index := c.index + 1 })) ∧
      Completes (.dend delta ch) s (ChanBecomes idles n { shut with ended := true }) ∧
      (w.toNat / 2 ^ 46 % 2 ^ 12 = delta.toNat →
        (c.halted = true → Completes (.undefinedDWord w) s (ChanBecomes s n (next c))) ∧
        (c.halted = false → Completes (.undefinedDWord w) s
          (Same (haltSequencer s n ⟨if 0x12 ≤ w.toNat / 2 ^ 58 then 2 else 3, 0, none⟩ t s.cur.dword))))) ∧
    (∀ m, let x := s.chan m
      (x.launch = none → Completes (.idleFrameRun m) s (ChanBecomes s m (takeChannel x))) ∧
      (x.launch.isSome = true → x.waiting = none → idleOk x = true → Completes (.idleFrameRun m) s (ChanBecomes s m
        { x with idlePos := x.idle.map (· + 1), frameStart := x.idle.map (fun k => (k, x.last)) })))

/-- R239 checks 4 to 6, Table 09-7, R241. The history is newest first. -/
def Obligations.CommandChecks : Prop :=
  ∀ (c : Chan) (t op pc bank row : Nat) (idle : Bool),
    let cmd : Cmd := ⟨op, pc, bank, row⟩
    let scope := cmdBanks cmd
    let names := fun (h : Command) (b : Nat) => h.bank = b ∨ (h.bank = 32 ∧ h.pc = b / 16)
    let same := fun (h : Command) => ∃ b ∈ scope, names h b
    let isOpen := fun (b : Nat) => bankOpen (c.bank b) t = true
    let openSame := fun (h : Command) => ∃ b ∈ scope, names h b ∧ isOpen b
    let group := fun (h : Command) => h.bank / 4 = bank / 4
    let inPc := fun (h : Command) => h.op = 0x0B ∨ h.op = 0x0C ∨ op = 0x0B ∨ op = 0x0C ∨ h.pc = pc
    let rd := fun (o : Nat) => o = 4 ∨ o = 5
    let wr := fun (o : Nat) => o = 6 ∨ o = 7
    let pre := op = 2 ∨ op = 3
    let wants := op = 1 ∨ op = 8 ∨ op = 9 ∨ op = 0x0A ∨ op = 0x0B ∨ op = 0x11
    let acts := c.history.filter (fun h => h.op == 1 && h.pc == pc)
    commandFailure c t cmd idle = none ↔
      (c.selfRefresh = true → op = 0x0C) ∧
      (rd op ∨ wr op → isOpen bank ∧ (c.bank bank).row.map (·.toNat) = some row) ∧
      (wants → ∀ b ∈ scope, ¬ isOpen b ∧ ∀ p, (c.bank b).precharged = some p → p + 17 ≤ t) ∧
      (op = 8 ∨ op = 9 → idle = false → ∀ b ∈ scope, -8 < (c.bank b).debt) ∧
      c.windowAt + 124 * c.window ≤ t ∧
      (op = 1 → ∀ h, acts[3]? = some h → h.at_ + 20 ≤ t) ∧
      ∀ h ∈ c.history,
        (inPc h → h.at_ + 1 ≤ t) ∧
        (h.op = 1 → rd op ∨ wr op → same h → h.at_ + 17 ≤ t) ∧
        (h.op = 1 → pre → openSame h → h.at_ + 40 ≤ t) ∧
        (h.op = 1 → op = 1 → same h → h.at_ + 57 ≤ t) ∧
        (h.op = 1 → op = 1 → h.pc = pc → h.at_ + (if group h then 5 else 3) ≤ t) ∧
        ((rd h.op ∧ rd op) ∨ (wr h.op ∧ wr op) → h.pc = pc → h.at_ + (if group h then 2 else 1) ≤ t) ∧
        (rd h.op → wr op → h.pc = pc → h.at_ + 8 ≤ t) ∧
        (wr h.op → rd op → h.pc = pc → h.at_ + (if group h then 16 else 10) ≤ t) ∧
        (rd h.op → pre → openSame h → h.at_ + 6 ≤ t) ∧
        (wr h.op → pre → openSame h → h.at_ + 26 ≤ t) ∧
        (h.op = 8 → inPc h → h.at_ + 420 ≤ t) ∧
        (h.op = 9 → same h → h.at_ + 240 ≤ t) ∧
        (h.op = 9 → op = 9 → h.pc = pc → ¬ same h → h.at_ + 10 ≤ t) ∧
        (h.op = 0x0A → same h → h.at_ + 240 ≤ t) ∧
        (h.op = 0x0B → op = 0x0C → h.at_ + 12 ≤ t) ∧
        (h.op = 0x0C → h.at_ + 432 ≤ t) ∧
        (h.op = 0x11 → h.at_ + 24 ≤ t)

/-- R159, R239, R242, R245 to R250. -/
def Obligations.SequencerWords : Prop :=
  (∀ (delta : BitVec 12) (ch : BitVec 5) (slots : BitVec 6) (pc : BitVec 1) (bg ba kind : BitVec 2) (row : BitVec 15)
    (col idx : BitVec 6) (close : BitVec 1) (reg : BitVec 7) (val : BitVec 8) (w : BitVec 64) (s : State),
    let n := s.cur.chan
    let c := s.chan n
    let t := if c.noDelta then c.last else c.last + delta.toNat
    let next := { c with
      last := t, noDelta := false, idlePos := c.idlePos.map (· + 1)
      index := if c.idlePos.isSome then c.index else c.index + 1 }
    let b := 16 * pc.toNat + 4 * bg.toNat + ba.toNat
    let fails := fun (i : Instr) (f : Failed) =>
      (c.halted = true → c.idlePos = none ∨ isBoundary s.cur.dword = false → Completes i s (ChanBecomes s n next)) ∧
      (c.halted = true → c.idlePos.isSome = true → isBoundary s.cur.dword = true → Completes i s
        (ChanBecomes (s.event (.idleFrameRun n)) n { c with frameStart := none, last := t, noDelta := false })) ∧
      (c.halted = false → Completes i s (Same (haltSequencer s n f t s.cur.dword)))
    let late := c.windowAt + 124 * c.window ≤ t
    let passes := fun (op p bank r : Nat) (i : Instr) => ∀ f, commandFailure c t ⟨op, p, bank, r⟩ c.idlePos.isSome = some f → fails i f
    (ch.toNat = n % 32 →
      (late → Completes (.dnop delta ch) s (ChanBecomes s n next)) ∧
      (¬ late → fails (.dnop delta ch) ⟨1, 0x18, some (c.windowAt + 124 * c.window)⟩) ∧
      (late → slots ≠ 0 → (∀ k, k < 32 → bankOpen (c.bank k) t = false) →
        Completes (.ddem delta ch slots) s (ChanBecomes s n { next with window := slots.toNat, windowAt := t })) ∧
      (slots = 0 → fails (.ddem delta ch slots) ⟨3, 0, none⟩) ∧
      (slots ≠ 0 → (∃ k, k < 32 ∧ bankOpen (c.bank k) t = true) → fails (.ddem delta ch slots) ⟨7, 0, none⟩) ∧
      (c.loadedAtM = false → fails (.dmrs delta ch pc reg val) ⟨9, 0, none⟩) ∧
      (kind = 0 → fails (.drd delta ch pc bg ba row col kind idx close) ⟨3, 0, none⟩ ∧
        fails (.drda delta ch pc bg ba row col kind idx close) ⟨3, 0, none⟩) ∧
      (kind ≠ 0 → laneFull s kind.toNat idx.toNat = true →
        fails (.drd delta ch pc bg ba row col kind idx close) ⟨5, 0, none⟩ ∧
        fails (.drda delta ch pc bg ba row col kind idx close) ⟨5, 0, none⟩) ∧
      (kind = 0 ∨ kind = 1 → fails (.dwr delta ch pc bg ba row col kind idx) ⟨3, 0, none⟩ ∧
        fails (.dwra delta ch pc bg ba row col kind idx) ⟨3, 0, none⟩) ∧
      (let lane := tabGet Lane.reset c.lanes (64 * kind.toNat + idx.toNat)
       (kind = 2 ∧ (heldIn (s.tile lane.target) lane.off 32).isSome = true) ∨ (kind = 3 ∧ lineHit (s.part c.pid) lane.line = none) →
        fails (.dwr delta ch pc bg ba row col kind idx) ⟨5, 0, none⟩ ∧
        fails (.dwra delta ch pc bg ba row col kind idx) ⟨5, 0, none⟩) ∧
      passes 1 pc.toNat b row.toNat (.dact delta ch pc bg ba row) ∧ passes 2 pc.toNat b 0 (.dpre delta ch pc bg ba) ∧
      passes 3 pc.toNat 32 0 (.dprea delta ch pc) ∧ passes 8 pc.toNat 32 0 (.drefab delta ch pc) ∧
      passes 9 pc.toNat b 0 (.drefpb delta ch pc bg ba) ∧ passes 0x0A pc.toNat b 0 (.drfm delta ch pc bg ba) ∧
      passes 0x0B 0 32 0 (.dsre delta ch) ∧ passes 0x0C 0 32 0 (.dsrx delta ch)) ∧
    (ch.toNat ≠ n % 32 → ∀ i ∈ [Instr.dnop delta ch, .dact delta ch pc bg ba row, .dpre delta ch pc bg ba, .dprea delta ch pc,
      .drd delta ch pc bg ba row col kind idx close, .drda delta ch pc bg ba row col kind idx close,
      .dwr delta ch pc bg ba row col kind idx, .dwra delta ch pc bg ba row col kind idx, .drefab delta ch pc,
      .drefpb delta ch pc bg ba, .drfm delta ch pc bg ba, .dsre delta ch, .dsrx delta ch, .dframe delta ch close,
      .ddem delta ch slots, .dloop delta ch row, .dend delta ch, .dmrs delta ch pc reg val], fails i ⟨3, 0, none⟩) ∧
    (w.toNat / 2 ^ 46 % 2 ^ 12 = delta.toNat → fails (.undefinedDWord w) ⟨if 0x12 ≤ w.toNat / 2 ^ 58 then 2 else 3, 0, none⟩) ∧
    (∀ f pid l, c.launch = some (pid, l) → (haltSequencer s n f t s.cur.dword).launch pid l = { s.launch pid l with
      phase := .held, cause := 8 })) ∧
  ∀ (delta : BitVec 12) (ch : BitVec 5) (idle : BitVec 1) (runs : BitVec 15) (s : State),
    let n := s.cur.chan
    let c := s.chan n
    let t := if c.noDelta then c.last else c.last + delta.toNat
    let okay := (∀ i f, c.frameStart = some (i, f) → t ≤ f + 4096 ∧
      ∀ k, k < 32 → bankOpen (c.bank k) t = true → (c.bank k).precharged.isSome = true)
    let stalled := s.halt.active = true ∨ c.held = true ∨ c.launch = none ∨ programWaits s n = true
    let shut := { c with frameStart := none, last := t, noDelta := false }
    let runsIdle := s.event (.idleFrameRun n)
    let fails := fun (i : Instr) (f : Failed) => c.halted = false → Completes i s (Same (haltSequencer s n f t s.cur.dword))
    (ch.toNat = n % 32 →
      (okay → c.windowAt + 124 * c.window ≤ t →
        (c.idlePos = none →
          (idle = 1 → Completes (.dframe delta ch idle) s (ChanBecomes runsIdle n { shut with ended := true })) ∧
          Completes (.dend delta ch) s (ChanBecomes runsIdle n { shut with ended := true }) ∧
          (stalled → (idle = 0 → Completes (.dframe delta ch idle) s
              (ChanBecomes runsIdle n { shut with waiting := some c.index }))) ∧
          (¬ stalled → (idle = 0 → Completes (.dframe delta ch idle) s
              (ChanBecomes s n { shut with frameStart := some (c.index, t), index := c.index + 1 })) ∧
            (runs ≠ 0 → c.frameStart.isSome = true ∨ c.loop.isSome = true ∨ c.noDelta = true →
              let left := (match c.loop with | none => runs.toNat | some k => k) - 1
              (left = 0 → Completes (.dloop delta ch runs) s (ChanBecomes s n { shut with loop := none, index := c.index + 1 })) ∧
              (left ≠ 0 → Completes (.dloop delta ch runs) s (fun u =>
                ChanBecomes s n { shut with loop := some left, index := (u.chan n).index, noDelta := true } u ∧
                (∀ k w, k < c.index → c.words[k]? = some w → w.toNat / 2 ^ 58 = 0x0D →
                  k ≤ (u.chan n).index ∧ (u.chan n).index < c.index ∧
                  (c.words[(u.chan n).index]?.map (fun v => v.toNat / 2 ^ 58)) = some 0x0D)))))) ∧
        (c.idlePos.isSome = true →
          Completes (.dframe delta ch idle) s (ChanBecomes runsIdle n shut) ∧
          Completes (.dend delta ch) s (ChanBecomes runsIdle n shut))) ∧
      (¬ okay → fails (.dframe delta ch idle) ⟨4, 0, none⟩ ∧ fails (.dend delta ch) ⟨4, 0, none⟩) ∧
      (runs = 0 → fails (.dloop delta ch runs) ⟨3, 0, none⟩) ∧
      (runs ≠ 0 → c.frameStart = none → c.loop = none → c.noDelta = false → fails (.dloop delta ch runs) ⟨4, 0, none⟩)) ∧
    (∀ m, let x := s.chan m
      let ran := { x with idlePos := x.idle.map (· + 1), frameStart := x.idle.map (fun k => (k, x.last)) }
      let stalled := s.halt.active = true ∨ x.held = true ∨ programWaits s m = true
      (x.launch = none → Completes (.idleFrameRun m) s (ChanBecomes s m (takeChannel x))) ∧
      (x.launch.isSome = true →
        (idleOk x = true → x.waiting = none ∨ stalled → Completes (.idleFrameRun m) s (ChanBecomes s m ran)) ∧
        (∀ i, x.waiting = some i → ¬ stalled → Completes (.idleFrameRun m) s (ChanBecomes s m
          { x with idlePos := none, index := i, waiting := none, noDelta := true })) ∧
        (idleOk x = false → x.waiting = none ∨ stalled →
          (x.waiting = none → x.halted = true → Completes (.idleFrameRun m) s (ChanBecomes s m { x with idlePos := none, index := x.words.length })) ∧
          (x.waiting.isSome = true ∨ x.halted = false → Completes (.idleFrameRun m) s
            (Same (haltSequencer s m ⟨4, 0, none⟩ x.last (nth x.words x.pos 0)))))))

/-- R244, R248, R249, R374. `slotCommands` issues ACT and 32 column commands at the earliest legal MCK. -/
def Obligations.RefreshAndDemandSlots : Prop :=
  ∀ (n pc : Nat) (s : State),
    let c := s.chan n
    let later := { c with interval := c.interval + 4680 }
    let raised := c.banks.map (fun b => { b with debt := b.debt + 1 })
    (c.selfRefresh = true → Completes (.refreshDebtRise n) s (ChanBecomes s n later)) ∧
    (c.selfRefresh = false →
      ((∀ k, k < 32 → (c.bank k).debt < 8) ∨ c.keeper = true ∨ c.halted = true →
        Completes (.refreshDebtRise n) s (ChanBecomes s n { later with banks := raised })) ∧
      ((∃ k, k < 32 ∧ 8 ≤ (c.bank k).debt) → c.keeper = false → c.halted = false →
        Completes (.refreshDebtRise n) s (Same (haltSequencer (s.setChan n { later with banks := raised }) n ⟨6, 0, none⟩
          (c.interval + 4680) (nth c.words c.pos 0))))) ∧
    (pc < 2 → c.keeper = true → (∃ k, k < 16 ∧ 1 ≤ (c.bank (16 * pc + k)).debt) →
      commandFailure c s.mck ⟨8, pc, 32, 0⟩ false = none →
      Completes (.refreshKeeperRefresh n pc) s (fun u =>
        ChanBecomes s n { c with
          banks := (u.chan n).banks, history := ⟨8, pc, 32, s.mck⟩ :: c.history.filter (fun h => decide (s.mck < h.at_ + 512))
          last := s.mck, kept := s.mck } u ∧
        ∀ k, k < 32 → (u.chan n).bank k =
          if k / 16 = pc then { c.bank k with debt := (c.bank k).debt - 1 } else c.bank k)) ∧
    (let t := if c.window = 0 then s.mck else c.windowAt
     let moved := { c with window := c.window - 1, windowAt := t + 124, kept := if c.keeper then t + 124 else c.kept, serving := [] }
     let request := if c.window = 0 then c.demands.find? isSave else c.demands.head?
     (s.flaws = [] → c.window ≠ 0 ∨ servesSlots c s.mck = true →
       (request = none → Completes (.demandSlot n) s (ChanBecomes s n moved)) ∧
       (∀ d, request = some d →
         let fit := slotCommands { moved with window := 0 } (1024 * d.line) (isDemandWrite d.kind) t
         (fit = none → Completes (.demandSlot n) s (ChanBecomes s n moved)) ∧
         (∀ e, fit = some e →
           let x := { e with window := moved.window, windowAt := moved.windowAt, demands := c.demands.erase d, serving := demandLaunches s d }
           (∀ pieces, d.kind = .read pieces → Completes (.demandSlot n) s (Same (demandRead (s.setChan n x) n d pieces))) ∧
           (∀ bytes, d.kind = .write bytes → d.thread = none → Completes (.demandSlot n) s (ChanBecomes s n
             { x with mem := bytes.foldl (fun m p => memPut m p.1 p.2) e.mem })) ∧
           (∀ bytes tile k, d.kind = .write bytes → d.thread = some (tile, k) →
             let h := s.thread tile k
             Completes (.demandSlot n) s (Same ((s.setChan n
               { x with mem := bytes.foldl (fun m p => memPut m p.1 p.2) e.mem }).setThread tile k
                 { h with writebackOut := h.writebackOut - 1 }))) ∧
           (∀ tile ctx off len, d.kind = .stream tile ctx off len →
             Completes (.demandSlot n) s (Same (streamFetched (s.setChan n x) n tile ctx off len))) ∧
           (∀ key off, d.kind = .walk key off →
             Completes (.demandSlot n) s (Same (walkRead (s.setChan n x) n d.pid key off))) ∧
           (∀ pid l bytes, d.kind = .save pid l bytes → Completes (.demandSlot n) s (LaunchBecomes (s.setChan n
             { x with mem := bytes.foldl (fun m p => memPut m p.1 p.2) e.mem }) pid l
               { s.launch pid l with saveOut := (s.launch pid l).saveOut - 1 }))))))

/-- R291, R292, R294 to R298, Table 11-5. -/
def Obligations.MatrixWords : Prop :=
  ∀ (slot : BitVec 8) (a b acc sig ts : BitVec 4) (vc fmt : BitVec 5) (fr srnd : BitVec 1) (ofmt : BitVec 2) (s : State),
    let k := s.cur.tile
    let x := s.tile k
    let m := x.matrix
    let fired := { m with due := m.due.erase s.cur.entry, firings := m.firings + 1 }
    let begun := { fired with progress := m.progress ++ [⟨s.cur.entry, m.firings + 1, 0, m.rounds⟩] }
    let engine := fun n => TileBecomes s k { x with matrix := n }
    let frozen := engine { m with st := 3 }
    let busy := ∃ e ∈ x.eng.vxfers, e.2.acc = true ∧ e.2.unit = acc.toNat
    let full := fun (c : BitVec 4) => (m.ob[c.toNat]?.map (·.full)) = some true
    let word := m.sigbase.toNat / 8 + sig.toNat
    let clear := ∀ i, i < 64 → (s.pe (tilePe k i)).m.full = false
    (m.st = 2 → m.ending = false →
      Completes (.mnop slot) s (engine fired) ∧
      (full a → full b → ¬ busy →
        Completes (.mma slot a b acc vc fmt fr) s (engine begun) ∧ Completes (.mmas slot a b acc vc fmt fr) s (engine begun)) ∧
      (¬ full a ∨ ¬ full b ∨ busy →
        Completes (.mma slot a b acc vc fmt fr) s frozen ∧ Completes (.mmas slot a b acc vc fmt fr) s frozen) ∧
      (¬ busy → Completes (.mzero slot acc) s (fun t =>
        (∀ i, i < 16 → (t.tile k).matrix.acc[i]? = if i = acc.toNat then some [] else m.acc[i]?) ∧
        engine { begun with acc := (t.tile k).matrix.acc } t)) ∧
      (busy → Completes (.mzero slot acc) s frozen) ∧
      (m.signals.length < 4 → Completes (.msig slot sig) s (engine { fired with signals := m.signals ++
        [⟨sig, BitVec.ofNat 64 (slot.toNat + 2 ^ 32 * m.rounds.toNat), m.progress.map (·.fired)⟩] })) ∧
      (4 ≤ m.signals.length → Completes (.msig slot sig) s frozen) ∧
      (m.taken = true → Completes (.mwait slot sig) s (engine { fired with taken := false })) ∧
      (m.taken = false → bankHeld x (word % 32) = true → Completes (.mwait slot sig) s (fun t =>
        let u := wakeBank s k (word % 32)
        TileBecomes u k { u.tile k with matrix := { m with st := 3 } } t)) ∧
      (m.taken = false → bankHeld x (word % 32) = false → isFull x word = false →
        Completes (.mwait slot sig) s (engine { m with st := 3, waits := some word })) ∧
      (m.taken = false → bankHeld x (word % 32) = false → isFull x word = true → (∀ e ∈ x.store.waiters, e.word ≠ word) → Completes (.mwait slot sig) s (fun t =>
        isFull (t.tile k) word = false ∧ (∀ w, w ≠ word → isFull (t.tile k) w = isFull x w) ∧
        TileBecomes s k { x with matrix := fired, store := { x.store with full := (t.tile k).store.full } } t)) ∧
      (clear → ¬ busy → Completes (.mdrain slot acc ts ofmt srnd) s (engine begun)) ∧
      (¬ clear ∨ busy → Completes (.mdrain slot acc ts ofmt srnd) s frozen) ∧
      Completes (.mend slot) s (engine { fired with ending := true, due := [] })) ∧
    (m.st ≠ 2 ∨ m.ending = true → ∀ i ∈ [Instr.mnop slot, .mma slot a b acc vc fmt fr, .mmas slot a b acc vc fmt fr,
      .mzero slot acc, .msig slot sig, .mwait slot sig, .mdrain slot acc ts ofmt srnd, .mend slot], Completes i s (Same s))

/-- R256, R291, R292, R294, R297, R298. `blockTerm` is the sum of R66 over one 64-element row and column. -/
def Obligations.MatrixRun : Prop :=
  ∀ (k e : Nat) (s : State), s.flaws = [] → s.reloading = [] →
    let x := s.tile k
    let m := x.matrix
    let engine := fun n => TileBecomes s k { x with matrix := n }
    let blocked := ((∃ p ∈ m.progress, (m.entry p.entry).toNat / 2 ^ 58 = 6) ∧ ∃ i, i < 64 ∧ (s.pe (tilePe k i)).m.full = true) ∨
      tileWaits s k (fun _ n => n == .matrix) m.mslot.toNat = true
    let turn := fun (i : Instr) =>
      (m.held = true → Completes i s (Same s)) ∧
      (m.held = false → blocked → Completes i s (engine { m with st := 3 })) ∧
      (m.held = false → ¬ blocked → Completes i s
        (TileBecomes { s with agenda := s.agenda ++ m.due.map (Work.matrix k) ++ [Work.matrixWork k] } k
          { x with matrix := { m with st := 2 } }))
    let dues := (List.range (m.em1.toNat + 1)).filter (fun i => (m.entry i).toNat / 2 ^ 50 % 256 == 0)
    (∀ n, m.go = some n →
      (m.held = true → Completes (.matrixStart k) s (Same (s.after 1 (.matrixStart k)))) ∧
      (m.held = false → Completes (.matrixStart k) s (engine { m with
        go := none, limit := n, mslot := 0, cyc := 0, rounds := 0, st := 2, ending := false, due := dues }))) ∧
    (m.st = 2 → turn (.mslotAdvance k)) ∧ (m.st = 3 → turn (.matrixResume k)) ∧
    (m.st ≠ 2 → Completes (.mslotAdvance k) s (Same s)) ∧ (m.st ≠ 3 → Completes (.matrixResume k) s (Same s)) ∧
    (∀ p, m.progress.find? (fun p => p.entry == e && decide (8 * mxSlots (m.entry e) ≤ p.done)) = some p →
      let w := m.entry e
      let a := w.toNat / 2 ^ 46 % 16
      let b := w.toNat / 2 ^ 42 % 16
      let c := w.toNat / 2 ^ 38 % 16
      let n := { m with progress := m.progress.erase p }
      let set := w.toNat / 2 ^ 58 = 2
      let afmt := w.toNat / 2 ^ 28 % 32
      let bn := memLoad (m.buffer b).mem 0 18432
      let el := fun (i j : Nat) =>
        let row := rowOf afmt (m.buffer a).mem i
        let col := columnOf bn j
        let d := blockTerm (decide (afmt ≠ 2)) row.1 col.1 row.2 col.2
        let r := fpAdd fp32 (if set then 0 else accElement (m.accTile c) i j) d.1
        ((r.1, d.2 ||| r.2) : Rounded)
      (m.ending = false →
        (w.toNat / 2 ^ 58 = 1 ∨ set → Completes (.matrixEntryComplete k e) s (fun t =>
          let y := (t.tile k).matrix
          (∀ i j, i < 64 → j < 128 → accElement (y.accTile c) i j = (el i j).1 % 2 ^ 32) ∧
          (∀ i, i < 16 → i ≠ c → y.acc[i]? = m.acc[i]?) ∧
          (∀ q, q < 5 → (y.flags.getLsbD q = true ↔
            m.flags.getLsbD q = true ∨ ∃ i j, i < 64 ∧ j < 128 ∧ (el i j).2.getLsbD q = true)) ∧
          (∀ i, i < 16 → y.ob[i]?.map (·.mem) = m.ob[i]?.map (·.mem) ∧
            y.ob[i]?.map (·.full) = if w.getLsbD 20 = true ∧ (i = a ∨ i = b) then some false else m.ob[i]?.map (·.full)) ∧
          engine { n with acc := y.acc, flags := y.flags, ob := y.ob } t)) ∧
        (w.toNat / 2 ^ 58 ≠ 1 → ¬ set → Completes (.matrixEntryComplete k e) s (engine n)))) ∧
    (∀ g r, m.signals = g :: r → (∀ p ∈ m.progress, p.fired ∉ g.after) → m.ending = false →
      let w := m.sigbase.toNat / 8 + g.sig.toNat
      (bankHeld x (w % 32) = true → Completes (.signalWrite k) s (Same (wakeBank s k (w % 32)))) ∧
      (bankHeld x (w % 32) = false → (∀ v ∈ x.store.waiters, v.word ≠ w) → m.waits ≠ some w →
        Completes (.signalWrite k) s (fun t =>
        StoresBytes s k (8 * w) 8 g.value.toNat t ∧ isFull (t.tile k) w = true ∧
        (∀ v, v ≠ w → isFull (t.tile k) v = isFull x v) ∧
        TileBecomes s k { x with
          matrix := { m with signals := r }
          store := { x.store with mem := (t.tile k).store.mem, full := (t.tile k).store.full } } t))) ∧
    (m.st = 2 ∨ m.st = 3 → m.ending = true → m.progress = [] → m.signals = [] →
      Completes (.matrixRunEnd k) s (TileBecomes
        { s with agenda := s.agenda ++ (matrixArcs s k).map (fun a => .event (.drainToken k a.1)) } k
        { x with matrix := { m with st := 4 } }))

/-- R33, R77, R142, R192 to R194, R251, R254, R361. -/
def Obligations.ThreadEvents : Prop :=
  ∀ (tile n : Nat) (w : Word32) (s : State), n < 8 →
    let x := s.tile tile
    let h := s.thread tile n
    let becomes := ThreadBecomes s tile n
    let runs := becomes { h with st := .running }
    let behind := fun (g : Thread) => { advance x g with st := .running }
    let wake := fun P => Completes (.threadWake tile n) s P
    (∀ g : Thread, g.rptAt ≠ some g.pc → advance x g = { g with pc := g.pc + 4 }) ∧
    (h.st ∈ [ThreadState.waiting .retry, .waiting .yield, .waiting .reply, .waiting .unit] → wake runs) ∧
    (h.st = .parked .park → wake (becomes (behind h))) ∧
    (∀ k, h.st = .parked (.word k) →
      let mine := ∃ e ∈ x.store.waiters, (∃ rd, e.kind = .ldf n rd ∨ e.kind = .ldfe n rd) ∨ ∃ d, e.kind = .stef n d
      (mine → wake (Same s)) ∧ (¬ mine → wake runs)) ∧
    (∀ q rd, h.st = .parked (.queue q rd) →
      (recvQueue x (q == 1) = [] → wake (Same s)) ∧
      (∀ v r, recvQueue x (q == 1) = v :: r → (∀ f ∈ x.core.heldMsgs, messageFor (q == 1) f = false) →
        wake (TileBecomes s tile ((setRecv x (q == 1) r).setThread n (behind (h.setReg rd v)))))) ∧
    (∀ k, h.st = .parked (.waite k) →
      (k ∈ x.eng.pending → wake (Same s)) ∧ (k ∉ x.eng.pending → wake (becomes (behind h)))) ∧
    (∀ c v pl, h.st = .parked (.event c v) → x.place = some pl →
      let past := ((tabGet 0 (s.part pl.pid).counters c).toNat + 2 ^ 32 - v.toNat) % 2 ^ 32 < 2 ^ 31
      (past → wake (becomes (behind h))) ∧ (¬ past → wake (Same s))) ∧
    (∀ b, h.st = .parked (.barrier b) →
      (tabFind h.arrivals b = some .complete → wake (becomes (behind { h with arrivals := tabDel h.arrivals b }))) ∧
      (tabFind h.arrivals b ≠ some .complete → wake (Same s))) ∧
    (h.st = .running ∨ h.st = .halted → wake (Same s)) ∧
    (∀ limit, h.st = .parked (.waitt limit) →
      let late := fun m : BitVec 32 => m ∈ x.eng.pending ∧ ∃ q, (m, n, q) ∈ x.eng.promises ∧ q.toNat ≤ limit.toNat
      let expires := fun P => Completes (.waittExpiry tile n) s P
      ((s.ccnt tile).toNat < limit.toNat → expires (Same s)) ∧
      (limit.toNat ≤ (s.ccnt tile).toNat →
        ((∀ m, ¬ late m) → expires (becomes (behind h))) ∧
        (∀ m, late m → (∀ j, late j → m.toNat ≤ j.toNat) → h.inh = false → expires (becomes { h with
          cause := 0x07, sub := 0, tval := m.zeroExtend 64, tepc := h.pc, ppl := h.pl, inh := true, st := .running
          rptAt := none, walkFault := [], pl := if h.pl = 3 then 3 else 1
          pc := if h.pl = 3 then x.core.mtvec else x.core.tvec })))) ∧
    Completes (.debugStop tile n) s (becomes { h with debug := true }) ∧
    (s.me.inh = false → Completes (.illegalInstruction w) s (TakesTrap s 0x01 0 (w.zeroExtend 64) s.cur.ipc))

/-- R37, R38, R41, R255, R262, R366. `regionBlocked` is the freeze condition of R41. -/
def Obligations.RegionEvents : Prop :=
  ∀ (k : Nat) (s : State), s.flaws = [] → s.reloading = [] →
    let r := s.region k
    let ks := regionPes r
    let becomes := RegionBecomes s k
    (r.go = none → Completes (.regionStart k) s (Same s)) ∧
    (∀ trip, r.go = some trip →
      (r.held = true → Completes (.regionStart k) s (Same (s.after 1 (.regionStart k)))) ∧
      (r.held = false →
        let started := fun (y : Region) => { y with
          slot := 0, rbase := 0, sv := 1, iter := 1, st := 1, trip := trip, period := 0, runs := r.runs + 1, go := none
          stop := false, drained := false }
        (r.runs = 0 ∨ r.drained = true → Completes (.regionStart k) s (becomes (started r))) ∧
        (r.runs ≠ 0 → r.drained = false → Completes (.regionStart k) s (fun t =>
          let u := sendRegionDrains s k
          RegionBecomes u k (started (u.region k)) t)))) ∧
    (let turn := fun (i : Instr) =>
       (r.held = true → Completes i s (Same s)) ∧
       (r.held = false → regionBlocked s r = true → Completes i s (becomes { r with st := 2 })) ∧
       (r.held = false → regionBlocked s r = false → Completes i s (RegionBecomes
         { s with agenda := s.agenda ++ ks.map (Work.peOp k) ++ ks.map (Work.peRoute k) ++ [Work.commit k] } k { r with st := 1 }))
     (r.st = 1 → turn (.regionCycle k)) ∧ (r.st = 2 → turn (.regionResume k)) ∧
     (r.st ≠ 1 → Completes (.regionCycle k) s (Same s)) ∧ (r.st ≠ 2 → Completes (.regionResume k) s (Same s))) ∧
    (let more := r.trip = 0 ∨ r.iter.toNat < r.trip.toNat
     let sv := BitVec.ofNat 8 (2 * r.sv.toNat + if more then 1 else 0)
     let ends := r.stop = true ∨ sv.toNat % 2 ^ (r.smax.toNat + 1) = 0
     let y := { r with
       slot := 0, sv := sv, iter := if more then r.iter + 1 else r.iter, rbase := r.rbase - 1, period := r.period + 1
       st := if ends then 3 else r.st, stop := false }
     (r.faults = 0 → ¬ ends → Completes (.regionBoundary k) s (becomes y)) ∧
     (r.faults = 0 → ends → Completes (.regionBoundary k) s (RegionBecomes { s with
       agenda := s.agenda ++ (endedFlits (s.setRegion k y) y).map (fun f => .event (.predFlitSend f.1 f.2.1 f.2.2)) } k y)) ∧
     (r.faults ≠ 0 → Completes (.regionBoundary k) s (fun t => t.region k = { y with held := true } ∧
       (t.launch r.pid r.lnum).phase = .held ∧ (t.launch r.pid r.lnum).cause = 0x0D))) ∧
    (owesDrains r = true → regionSettled s k = true →
      (∀ a ∈ regionOutputs s r, ∃ f p t q, a.2.fromPort = some (f, p) ∧ a.2.toPort = some (t, q) ∧
        peTile (fabricAt r f) = peTile (fabricAt r t)) →
      Completes (.regionDrainTokens k) s (fun u => RegionBecomes { s with agenda := u.agenda } k { r with drained := true } u ∧
        ∃ l, u.agenda = s.agenda ++ l ∧ l.length = (regionOutputs s r).length ∧
          ∀ w ∈ l, ∃ a ∈ regionOutputs s r, ∃ t q, a.2.toPort = some (t, q) ∧
            w = .event (.drainToken (peTile (fabricAt r t)) a.1))) ∧
    (owesDrains r = true → regionSettled s k = true → ∀ n a f p t q,
      regionOutputs s r = [(n, a)] → a.fromPort = some (f, p) → a.toPort = some (t, q) →
      peTile (fabricAt r f) ≠ peTile (fabricAt r t) → Completes (.regionDrainTokens k) s
        (Same (sendFlit (s.setRegion k { r with drained := true }) (peTile (fabricAt r f)) (peTile (fabricAt r t)) a.vc 255
          (.drain n)))) ∧
    (owesDrains r = false ∨ regionSettled s k = false → Completes (.regionDrainTokens k) s (Same s)) ∧
    (∀ phase go trip tile n ph, r.rewrite = some (phase, go, trip, tile, n) → r.phases[phase.toNat]? = some ph →
      let ready := (r.st = 0 ∧ r.go = none) ∨
        (r.st = 3 ∧ ∀ i ∈ regionInputs s r, inputDrained s r i.1 i.2 = true)
      let u := s.setRegion k { r with rewrite := none }
      let l := u.launch r.pid r.lnum
      let v := u.setLaunch r.pid r.lnum { l with arcs := l.arcs.map (fun e =>
        (e.1, if ∃ i ∈ regionInputs s r, i.1 = e.1 then { e.2 with drained := false } else e.2)) }
      let loaded := loadPhase v k ph true
      let y := loaded.region k
      let n16 := (s.cycle + 23) / 8 * 8 - s.cycle
      let started := if go then (loaded.setRegion k { y with go := some trip }).after n16 (.regionStart k) else loaded
      let waits := (s.thread tile n).st = .waiting .unit
      (¬ ready ∨ r.held = true → Completes (.phaseRewrite k) s (Same (s.after 1 (.phaseRewrite k)))) ∧
      (ready → r.held = false →
        (∀ e, checkPhase u k ph = some e →
          (waits → Completes (.phaseRewrite k) s (Same (takeTrap u tile n 0x01 0 e (s.thread tile n).pc))) ∧
          (¬ waits → Completes (.phaseRewrite k) s (Same u))) ∧
        (checkPhase u k ph = none →
          (waits → Completes (.phaseRewrite k) s (Same (passThread started tile n))) ∧
          (¬ waits → Completes (.phaseRewrite k) s (Same started)))))

/-- R40, R273, R274, R276, R277, R279. -/
def Obligations.StoreOpsAndLatches : Prop :=
  ∀ (tile chn pe : Nat) (v : Word32) (s : State), s.flaws = [] → s.reloading = [] →
    (let x := s.pe pe
     let fills := fun (p : Port) (y : PE) => Completes (.latchArrival pe p v) s (PeBecomes s pe y)
     let waits := fun (p : Port) => Completes (.latchArrival pe p v) s (Same (s.after 1 (.latchArrival pe p v)))
     (x.n.full = false → fills .n { x with n := ⟨v, true⟩ }) ∧ (x.n.full = true → waits .n) ∧
     (x.e.full = false → fills .e { x with e := ⟨v, true⟩ }) ∧ (x.e.full = true → waits .e) ∧
     (x.s.full = false → fills .s { x with s := ⟨v, true⟩ }) ∧ (x.s.full = true → waits .s) ∧
     (x.w.full = false → fills .w { x with w := ⟨v, true⟩ }) ∧ (x.w.full = true → waits .w) ∧
     (x.m.full = false → fills .m { x with m := ⟨v, true⟩ }) ∧ (x.m.full = true → waits .m) ∧
     (x.replies = [] → fills .v { x with replies := [v] }) ∧ (x.replies ≠ [] → waits .v)) ∧
    (let x := s.tile tile
     let c := tabGet Chain.reset x.mem.chains chn
     let again := fun (u : State) => u.after 1 (.storeOpPerform tile chn)
     let chained := fun (y : Chain) => { x with mem := { x.mem with chains := tabPut x.mem.chains chn y } }
     let runs := fun P => Completes (.storeOpPerform tile chn) s P
     (c.queue = [] ∨ c.faulted = true → runs (Same s)) ∧
     (∀ o ∈ c.queue, c.faulted = false → (∀ p ∈ c.queue, p = o ∨ o.run < p.run ∨ (o.run = p.run ∧ o.seq < p.seq)) →
       let a := o.off.toNat
       let w := a / 8
       let order := (o.run = c.run ∧ o.seq ≤ c.next) ∨ (o.run ≠ c.run ∧ o.seq = 0)
       let placed := a % 4 = 0 ∧ a + 4 ≤ 0x1800000
       let bit := if o.load then o.fem = 0 ∨ isFull x w = true else o.fem ≠ 2 ∨ isFull x w = false
       let y := { c with
         queue := c.queue.erase o, run := o.run, next := if o.run = c.run then max c.next (o.seq + 1) else o.seq + 1 }
       let base := if y.queue = [] then s else again s
       let ordered := tileWaits s tile (fun _ n => n == .fabric (s.region o.region).number) chn = false
       (¬ order → runs (Same (again s))) ∧
       (order →
         (a % 4 ≠ 0 → runs (Same (postAt (s.setTile tile (chained { c with faulted := true })) tile 0x07 0x03 0
           (storeFaultData (s.region o.region) o chn)))) ∧
         (a % 4 = 0 → 0x1800000 < a + 4 → runs (Same (postAt (s.setTile tile (chained { c with faulted := true })) tile 0x07 0x06 0
           (storeFaultData (s.region o.region) o chn)))) ∧
         (placed → bankHeld x (a / 8 % 32) = true → runs (Same (again (wakeBank s tile (a / 8 % 32))))) ∧
         (placed → bankHeld x (a / 8 % 32) = false → ¬ bit ∨ ¬ ordered → runs (Same (again s))) ∧
         (placed → bankHeld x (a / 8 % 32) = false → bit → ordered → (∀ e ∈ x.store.waiters, e.word ≠ w) → x.matrix.waits ≠ some w →
           (o.load = true → runs (fun t =>
             t.pe o.pe = { s.pe o.pe with
               replies := (s.pe o.pe).replies ++ [BitVec.ofNat 32 (storeValue s tile a 4)], awaited := (s.pe o.pe).awaited - 1 } ∧
             (∀ u, u ≠ o.pe → t.pe u = s.pe u) ∧
             isFull (t.tile tile) w = (if o.fem = 2 then false else isFull x w) ∧
             (∀ u, u ≠ w → isFull (t.tile tile) u = isFull x u) ∧
             TileBecomes { base with pes := t.pes } tile
               { chained y with store := { x.store with full := (t.tile tile).store.full } } t)) ∧
           (o.load = false → runs (fun t =>
             (∀ b, storeByte t tile b = if a ≤ b ∧ b < a + 4 then BitVec.ofNat 8 (o.data.toNat / 256 ^ (b - a)) else storeByte s tile b) ∧
             isFull (t.tile tile) w = (if o.fem = 0 then isFull x w else true) ∧
             (∀ u, u ≠ w → isFull (t.tile tile) u = isFull x u) ∧
             TileBecomes base tile { chained y with
               store := { x.store with mem := (t.tile tile).store.mem, full := (t.tile tile).store.full } } t)))))) ∧
    (∀ rid q f, let x := s.tile tile
      x.mem.predFlits.find? (fun f => f.rid == rid && f.q == q) = some f →
      let n := s.node (4096 * tile + rid)
      let dst := if n.children.contains tile then tile else n.parent.getD tile
      let y := { x with
        sent := x.sent + 1, mem := { x.mem with predFlits := x.mem.predFlits.filter (fun g => !(g.rid == rid && g.q == q)) } }
      Completes (.predFlitSend tile rid q) s (fun t => ∃ payload : BitVec 1024,
        t = sendFlit (s.setTile tile y) tile dst f.vc (256 + (s.region f.region).number) (.tree f.op rid payload) ∧
        (f.lanes.length = 32 → ∀ i, i < 32 → payload.extractLsb' (32 * i) 32 = f.lanes[i]?.getD 0)))

/-- R124 to R127, Table 05-6, R201. -/
def Obligations.Reductions : Prop :=
  ∀ (tile : Nat) (s : State), s.flaws = [] →
    (∀ (unit : Nat) (_ : unit < 8), let x := s.tile tile
      let u := x.mem.units[unit]
      let runs := fun P => Completes (.scatterReduceApply tile unit) s P
      (u.window = [] → runs (Same s)) ∧
      (∀ k r, u.window = k :: r →
        let n := if k.w = 1 ∨ 9 ≤ k.op.toNat then 4 else 8
        let bank := k.off / 8 % 32
        let inside := k.off + n ≤ 0x1800000
        let unit' : ScatterUnit :=
          ⟨r, u.filter.filter (fun e => !(e.1 == k.src && e.2.1 == k.vc)) ++ [(k.src, k.vc, k.seq)]⟩
        let y := { x with mem := { x.mem with units := x.mem.units.set unit unit' } }
        let old := u.filter.find? (fun e => e.1 == k.src && e.2.1 == k.vc)
        let fresh := ∀ e, old = some e → e.2.2 < k.seq
        let fn := if k.ctxKind = 1 then 0x80 + k.op.toNat else 16 * k.w.toNat + k.op.toNat
        let fault := fun (cause : Nat) => Same (tokenDone (reductionFault (s.setTile tile y) k.src 1 k.ctxKind k.ctx k.off
          k.operand.toNat fn cause k.seq) k 0)
        let res := atomicResult k.op.toNat n (storeValue s tile k.off n) (k.operand.toNat % 2 ^ (8 * n))
        (inside → bankHeld x bank = true →
          runs (Same ((wakeBank s tile bank).after (wakeCycles tile + 1) (.scatterReduceApply tile unit)))) ∧
        (¬ inside ∨ bankHeld x bank = false →
          (¬ fresh → runs (TileBecomes s tile
            { x with mem := { x.mem with units := x.mem.units.set unit ⟨r, u.filter⟩ } })) ∧
          (fresh → k.off % n ≠ 0 → runs (fault 0x03)) ∧
          (fresh → k.off % n = 0 → ¬ inside → runs (fault 0x06)) ∧
          (fresh → k.off % n = 0 → inside → k.op.toNat ≤ 12 →
            runs (fun t => StoresBytes s tile k.off n res.1 t ∧ (t.tile tile).mem.units[unit] = unit' ∧
              (∀ j, j ≠ unit → (t.tile tile).mem.units[j]? = x.mem.units[j]?) ∧
              (k.ctxKind = 0 →
                let h := s.thread k.src k.ctx
                t.thread k.src k.ctx = { h with redOut := h.redOut - 1, redFlags := h.redFlags ||| res.2 } ∧
                (∀ v m, v ≠ k.src ∨ m % 8 ≠ k.ctx % 8 → t.thread v m = s.thread v m) ∧
                { t with tiles := s.tiles } = s) ∧
              (k.ctxKind ≠ 0 → (∀ v m, t.thread v m = s.thread v m) ∧ { t with tiles := s.tiles, regions := s.regions } = s ∧
                ∀ pl, (s.tile k.src).place = some pl → ∀ j g, tabFind s.regions j = some g → t.region j =
                  if g.number = k.ctx ∧ g.pid = pl.pid ∧ g.lnum = pl.lnum then { g with flags := g.flags ||| res.2 } else g) ∧
              ∀ v, { t.tile v with
                core := { (t.tile v).core with threads := (s.tile v).core.threads }
                mem := { (t.tile v).mem with units := (s.tile v).mem.units }
                store := { (t.tile v).store with mem := (s.tile v).store.mem, busy := (s.tile v).store.busy } } = s.tile v))))) ∧
    (∀ (f : MeshFlit) (op : BitVec 4) (rid : Nat) (v : BitVec 1024) (e : Bool),
      f.body = (if e then .exponent rid v else .tree op rid v) →
      let k := 4096 * tile + rid
      let n := s.node k
      let key := 32 * (4096 * f.src + tile) + f.vc
      let runs := fun P => Completes (.treeNodeCombine tile f) s P
      let noted := { n with last := tabPut n.last key f.seq }
      let base := let u := s.setNode k noted
        if 256 ≤ f.owner then u.modTile tile (fun x => { x with received := x.received + 1 }) else u
      let taken := { noted with
        op := if e then n.op else op, waiting := tabPut n.waiting f.src (tabGet [] n.waiting f.src ++ [(e, v)]) }
      (f.seq ≤ tabGet 0 n.last key → runs (Same s)) ∧
      (tabGet 0 n.last key < f.seq → f.owner = 254 →
        (f.src = tile ∨ n.children = [] → runs (Same (deliverDown base tile rid e v))) ∧
        (f.src ≠ tile → n.children ≠ [] → runs (Same (sendDown
          (base.setNode k { noted with results := if e then n.results ++ [v] else n.results }) tile rid e v)))) ∧
      (tabGet 0 n.last key < f.seq → f.owner ≠ 254 →
        (f.src ∉ n.children → runs (Same (flitFault base tile 3 f))) ∧
        (f.src ∈ n.children →
          ((∃ c ∈ n.children, tabGet [] taken.waiting c = []) → runs (NodeBecomes base k taken)) ∧
          (∀ b m r, n.children.map (fun c => (tabGet [] taken.waiting c).head?) = (((b, m) :: r).map some) →
            let x := b || r.any (·.1)
            let o : BitVec 4 := if x then 2 else taken.op
            let out := r.foldl (fun acc y => (combine o acc.1 y.2, acc.2 ||| combineFlags o acc.1 y.2)) (m, 0)
            let left := { taken with
              flags := n.flags ||| out.2
              waiting := taken.waiting.map (fun w => (w.1, if n.children.contains w.1 then w.2.tail else w.2)) }
            (∀ p, n.parent = some p → p < 4096 → runs (Same (sendFlit (base.setNode k left) tile p n.vc 255
              (if x then .exponent rid out.1 else .tree left.op rid out.1)))) ∧
            (∀ p, n.parent = some p → 4096 ≤ p → runs (Same (sendUnderTag
              (base.setNode k { left with asked := n.asked ++ [x] }) tile (p - 4096) out.1))) ∧
            (n.parent = none → x = true → runs (Same (sendDown (base.setNode k { left with
              results := if n.down then n.results else n.results ++ [out.1], maxima := some out.1, passed := 0 })
                tile rid true out.1))) ∧
            (n.parent = none → x = false → n.maxima = none →
              let kept := { left with results := if n.down then n.results else n.results ++ [out.1], passed := n.passed + 1 }
              (n.down = false → runs (NodeBecomes base k kept)) ∧
              (n.down = true → runs (Same (sendDown (base.setNode k kept) tile rid false out.1)))))))) ∧
    (∀ (a b : BitVec 1024) (i : Nat),
      (i < 16 → (combine 0 a b).extractLsb' (64 * i) 64 = a.extractLsb' (64 * i) 64 + b.extractLsb' (64 * i) 64) ∧
      (i < 32 → (combine 1 a b).extractLsb' (32 * i) 32 = a.extractLsb' (32 * i) 32 + b.extractLsb' (32 * i) 32) ∧
      (i < 128 → ((combine 2 a b).extractLsb' (8 * i) 8).toNat = max (a.extractLsb' (8 * i) 8).toNat (b.extractLsb' (8 * i) 8).toNat) ∧
      (i < 32 → ((combine 3 a b).extractLsb' (32 * i) 32).toNat =
        (fpMinMax fp32 false (a.extractLsb' (32 * i) 32).toNat (b.extractLsb' (32 * i) 32).toNat).1 % 2 ^ 32) ∧
      (i < 32 → ((combine 4 a b).extractLsb' (32 * i) 32).toNat =
        (fpMinMax fp32 true (a.extractLsb' (32 * i) 32).toNat (b.extractLsb' (32 * i) 32).toNat).1 % 2 ^ 32) ∧
      combine 5 a b = a ||| b)

/-- R221, R222, R224, R46, R54. No word has lost bits. -/
def Obligations.StreamElements : Prop :=
  ∀ (tile ctx : Nat) (d : Descriptor) (bs : List Byte) (s : State),
    let x := s.tile tile
    let c := x.stream ctx
    let n := 2 ^ d.esz
    let sa := srcAddr d c.next
    let a := dstAddr d c.next
    let pid := pidOf s tile
    let last := c.next + 1 = d.total
    let full : Bool := d.lastf && decide last && !c.can
    let runs := fun P => Completes (.streamElement tile ctx) s P
    let again := s.after 1 (.streamElement tile ctx)
    let powered := fun (tag : BitVec 60) => (s.tile (homeSlice (s.part pid) tag)).ctl.wayOff ≠ 0xFFFF
    let reads := (endKind d.src < 2 ∧ heldIn (s.tile c.srcTile) sa n = none ∧ bs = storeBytes (s.tile c.srcTile) sa n) ∨
      (endKind d.src = 3 ∧ powered (flatTag sa) ∧
        ∃ l, lineHit (s.part pid) (flatTag sa) = some l ∧ bs = (l.data.drop (sa % 1024)).take n) ∨
      (endKind d.src = 5 ∧ c.fetched = some bs)
    -- after the read, whose banks are taken
    let v := if endKind d.src < 2 then reachBanks s c.srcTile sa n else s
    let y := v.tile tile
    let base := v.after 1 (.streamElement tile ctx)
    let onward := { c with next := c.next + 1, asked := false, fetched := none }
    let done := { onward with done := c.done + 1 }
    let moves := fun (k : Stream) => { y.setStream ctx k with
      eng := { (y.setStream ctx k).eng with moved := ((moveBytes s tile (ctx / 8) bs.length).tile tile).eng.moved } }
    let waitsTurn := c.short = false ∧ othersWait s tile ctx = true
    c.desc = some d →
    (c.st = 2 →
      (x.stopped = true → runs (Same again)) ∧
      (x.stopped = false → elementIsCut s tile (.stream tile ctx) = false →
        tileWaits s tile (fun k _ => c.node == some k) ctx = false →
        ((c.can = true ∧ c.asked = false) ∨ d.total ≤ c.next → runs (Same (s.event (.streamComplete tile ctx)))) ∧
        (c.can = false → c.next < d.total →
          (waitsTurn → runs (TileBecomes (s.event (.streamElement tile ctx)) tile (x.setStream ctx { c with short := false }))) ∧
          (¬ waitsTurn → 128 < movedNow s tile (ctx / 8) + n →
            runs (TileBecomes again tile (x.setStream ctx { c with short := true })))) ∧
        (c.can = false → c.next < d.total → c.short = false → ¬ waitsTurn → movedNow s tile (ctx / 8) + n ≤ 128 →
          s.flaws = [] → reads →
          (endKind d.dst = 0 →
            (heldIn x a bs.length = none → (∀ w ∈ x.store.waiters, w.word ≠ a / 8) → x.matrix.waits ≠ some (a / 8) →
              runs (fun t =>
                (∀ b, storeByte t tile b = if a ≤ b ∧ b < a + bs.length then bs[b - a]?.getD 0 else storeByte s tile b) ∧
                (∀ w, isFull (t.tile tile) w = if full = true ∧ w = a / 8 then true else isFull x w) ∧
                TileBecomes base tile { moves done with store := { x.store with
                  mem := (t.tile tile).store.mem, full := (t.tile tile).store.full
                  busy := ((reachBanks v tile a bs.length).tile tile).store.busy } } t)) ∧
            (∀ k, heldIn x a bs.length = some k → runs (TileBecomes ((wakeBank v tile k).after 1 (.streamElement tile ctx))
              tile ((wakeBank v tile k).tile tile)))) ∧
          (endKind d.dst = 1 → runs (TileBecomes
            ((sendFlit v tile c.dstTile (d.dst.toNat / 2 ^ 37 % 32) (8 + ctx) (.bytes a bs full)).after 1 (.streamElement tile ctx))
            tile (moves { onward with out := c.out + 1 }))) ∧
          (endKind d.dst = 2 → ∀ o, x.matrix.ob[endBuf d.dst]? = some o →
            (c.next = 0 → o.full = true → runs (TileBecomes base tile y)) ∧
            (c.next ≠ 0 ∨ o.full = false → runs (fun t =>
              TileBecomes base tile { moves done with matrix := { x.matrix with ob := (t.tile tile).matrix.ob } } t ∧
              (∀ b, b ≠ endBuf d.dst → (t.tile tile).matrix.ob[b]? = x.matrix.ob[b]?) ∧
              ∃ p, (t.tile tile).matrix.ob[endBuf d.dst]? = some p ∧ (p.full = true ↔ o.full = true ∨ last) ∧
                ∀ b, memGet p.mem b = if a ≤ b ∧ b < a + bs.length then bs[b - a]?.getD 0 else memGet o.mem b))) ∧
          (endKind d.dst = 3 → powered (flatTag a) → ∀ l, lineHit (s.part pid) (flatTag a) = some l → runs (TileBecomes
            ((writeLine v pid tile (flatTag a) l (a % 1024) bs.length (bytesNat bs)).after 1 (.streamElement tile ctx))
            tile (moves done))) ∧
          (endKind d.dst = 6 →
            let k := tilePe tile (d.dst.toNat % 64)
            let p := s.pe k
            (p.m.full = true → runs (TileBecomes base tile y)) ∧
            (p.m.full = false → c.node = none → runs (TileBecomes
              (base.setPe k { p with m := ⟨BitVec.ofNat 32 (bytesNat bs), true⟩ }) tile (moves done))))))) ∧
    (c.st = 2 → c.out = 0 → c.asked = false → c.can = true ∨ d.total ≤ c.next →
      let y := x.setStream ctx { c with st := 3, pages := [] }
      let posted := { y with eng := { y.eng with
        pending := x.eng.pending.filter (· != c.cnum), promises := x.eng.promises.filter (fun e => e.1 != c.cnum) } }
      let woken := ((List.range 8).filter (fun m => (s.thread tile m).st == .parked (.waite c.cnum))).map
        (fun m => Work.event (.threadWake tile m))
      let u := { s with agenda := s.agenda ++ woken }
      (c.node = none → Completes (.streamComplete tile ctx) s (TileBecomes u tile posted)) ∧
      (∀ m pl, c.node = some m → x.place = some pl → Completes (.streamComplete tile ctx) s (TileBecomes
        { u with agenda := u.agenda ++ (arcsFrom s pl.pid pl.lnum m).map (fun e => .event (.drainToken tile e.1)) } tile posted)))

/-- R226 to R228, R231, R232, R235, R217, R79. No word has lost bits. `beginCopy` starts the copy at the head of the channel;
`copyHeld` finds a bank without power at either end; `chunkCycles` is the cost of a chunk by Table 09-5. -/
def Obligations.EngineCompletions : Prop :=
  ∀ (tile idx : Nat) (s : State),
    let x := s.tile tile
    let posts := fun (n : BitVec 32) (e : Engines) => { e with
      pending := e.pending.filter (· != n), promises := e.promises.filter (fun p => p.1 != n) }
    let woken := fun (n : BitVec 32) => { s with agenda := s.agenda ++
      ((List.range 8).filter (fun m => (s.thread tile m).st == .parked (.waite n))).map (fun m => Work.event (.threadWake tile m)) }
    (x.eng.copies = [] → Completes (.copyComplete tile) s (Same s)) ∧
    (∀ c r, x.eng.copies = c :: r →
      let copies := fun P => Completes (.copyComplete tile) s P
      let peer := endKind c.dst = 8
      let n := if peer then c.len else min 128 (c.len - c.moved)
      let so := endOff c.src + c.moved
      let off := endOff c.dst + c.moved
      let v := reachBanks s c.srcTile so n
      let y := v.tile tile
      let step := chunkCycles c x.eng.csdiv
      (x.stopped = true → copies (Same (s.after 1 (.copyComplete tile)))) ∧
      (x.stopped = false → c.moved = c.len → peer ∨ c.out ≠ 0 → copies (Same s)) ∧
      (x.stopped = false → c.moved = c.len → ¬ peer → c.out = 0 → copies (fun t => ∃ u, t = beginCopy u tile ∧
        TileBecomes (woken c.cnum) tile { x with eng := posts c.cnum { x.eng with copies := r } } u)) ∧
      (x.stopped = false → c.moved ≠ c.len → ∀ k b, copyHeld s c n = some (k, b) →
        copies (Same ((wakeBank s k b).after 1 (.copyComplete tile)))) ∧
      (x.stopped = false → c.moved ≠ c.len → copyHeld s c n = none → s.flaws = [] →
        (peer → copies (Same (sendPeer s tile c))) ∧
        (endKind c.dst = 1 →
          let sent := sendFlit v tile c.dstTile (endVc c.dst) 24 (.bytes off (storeBytes (s.tile c.srcTile) so n) false)
          copies (TileBecomes (if c.moved + n = c.len then sent else sent.after step (.copyComplete tile)) tile
            { y with eng := { y.eng with copies := { c with moved := c.moved + n, out := c.out + 1 } :: r } })) ∧
        (endKind c.dst = 0 → c.dstTile = tile → copies (fun t =>
          (∀ b, storeByte t tile b = if off ≤ b ∧ b < off + n then storeByte s c.srcTile (so + (b - off))
            else storeByte s tile b) ∧
          TileBecomes (v.after step (.copyComplete tile)) tile { y with
            eng := { y.eng with copies := { c with moved := c.moved + n } :: r }
            store := { y.store with mem := (t.tile tile).store.mem, busy := ((reachBanks v tile off n).tile tile).store.busy } } t)))) ∧
    (∀ u : State, ((u.tile tile).eng.copies = [] → beginCopy u tile = u) ∧
      (∀ c r, (u.tile tile).eng.copies = c :: r →
        beginCopy u tile = u.after (if c.srcTile = tile then 1 else 5 + 2 * hops c.srcTile tile) (.copyComplete tile))) ∧
    (∀ v, tabFind x.eng.vxfers idx = some v → v.unit < 16 →
      let m := x.matrix
      let blocked := x.stopped = true ∨
        (v.acc = false ∧ v.toStore = false ∧ v.done = 0 ∧ (m.ob[v.unit]?.map (·.full)) = some true) ∨
        (v.acc = true ∧ ∃ p ∈ m.progress, (nth m.table.toList p.entry 0).toNat / 2 ^ 38 % 16 = v.unit)
      let n := min (128 - movedNow s tile v.eng.toNat) (v.len - v.done) / 64 * 64
      let more := v.done + n < v.len
      let off := v.off + v.done
      let uoff := v.uoff + v.done
      let base := if more then s.after 1 (.vxferComplete tile idx) else s
      let unitMem := if v.acc then m.acc[v.unit]?.getD [] else (m.ob[v.unit]?.map (·.mem)).getD []
      let counted := fun (t : State) => { x.eng with
        moved := ((moveBytes s tile v.eng.toNat n).tile tile).eng.moved
        vxfers := if more then tabPut x.eng.vxfers idx { v with done := v.done + n } else tabDel x.eng.vxfers idx
        vcnt := (t.tile tile).eng.vcnt }
      let counts := fun (t : State) => ∀ j, j < 4 → (t.tile tile).eng.vcnt[j]? =
        if ¬ more ∧ j = v.ctr.toNat then x.eng.vcnt[j]?.map (· + 1) else x.eng.vcnt[j]?
      let taken := ((reachBanks s tile off n).tile tile).store.busy
      let runs := fun P => Completes (.vxferComplete tile idx) s P
      (blocked ∨ n = 0 → runs (Same (s.after 1 (.vxferComplete tile idx)))) ∧
      (¬ blocked → n ≠ 0 →
        (∀ b, heldIn x off n = some b → runs (Same ((wakeBank s tile b).after 1 (.vxferComplete tile idx)))) ∧
        (heldIn x off n = none → s.flaws = [] →
          (v.toStore = true → runs (fun t => counts t ∧
            (∀ b, storeByte t tile b = if off ≤ b ∧ b < off + n then memGet unitMem (uoff + (b - off))
              else storeByte s tile b) ∧
            TileBecomes base tile { x with
              eng := counted t, store := { x.store with mem := (t.tile tile).store.mem, busy := taken } } t)) ∧
          (v.toStore = false → runs (fun t => counts t ∧
            let y := (t.tile tile).matrix
            let mem := if v.acc then y.acc[v.unit]?.getD [] else (y.ob[v.unit]?.map (·.mem)).getD []
            (∀ b, memGet mem b = if uoff ≤ b ∧ b < uoff + n then storeByte s tile (off + (b - uoff))
              else memGet (unitMem) b) ∧
            (∀ j, j ≠ v.unit → y.acc[j]? = m.acc[j]? ∧ y.ob[j]? = m.ob[j]?) ∧
            (v.acc = true → y.ob = m.ob) ∧
            (v.acc = false → y.acc = m.acc ∧
              (y.ob[v.unit]?.map (·.full)) = m.ob[v.unit]?.map (fun o => o.full || (v.setf && decide (¬ more)))) ∧
            TileBecomes base tile { x with
              eng := counted t, store := { x.store with busy := taken }
              matrix := { m with acc := y.acc, ob := y.ob } } t))))) ∧
    (∀ o, x.eng.lines.find? (fun o => o.cnum.toNat == idx) = some o →
      let h := s.thread tile o.thread
      let y := (x.setThread o.thread { h with globalOut := h.globalOut - 1 })
      let e := posts o.cnum { x.eng with lines := x.eng.lines.filter (fun p => p.cnum != o.cnum) }
      (o.store = true → Completes (.tensorLineComplete tile idx) s (TileBecomes (woken o.cnum) tile { y with eng := e })) ∧
      (o.store = false →
        (∀ b, heldIn x o.off 1040 = some b → Completes (.tensorLineComplete tile idx) s
          (Same ((wakeBank s tile b).after (wakeCycles tile + 1) (.tensorLineComplete tile idx)))) ∧
        (heldIn x o.off 1040 = none → Completes (.tensorLineComplete tile idx) s (fun t =>
          (∀ b, storeByte t tile b = if o.off ≤ b ∧ b < o.off + o.bytes.length then o.bytes[b - o.off]?.getD 0
            else storeByte s tile b) ∧
          TileBecomes (woken o.cnum) tile
            { y with eng := e, store := { x.store with mem := (t.tile tile).store.mem } } t)))) ∧
    (∀ pid tid, let p := s.part pid
      Completes (.generationWalkEnd pid tid) s (PartBecomes
        { s with agenda := s.agenda ++ ((p.genWalks.filter (fun e => e.1 == tid)).filter
          (fun e => (s.thread e.2.1 e.2.2).st == .waiting .unit)).map (fun e => Work.event (.threadWake e.2.1 e.2.2)) }
        pid { p with genWalks := p.genWalks.filter (fun e => e.1 != tid) }))

/-- R87, R88, R90, R201, R205, R309, R354, R356. No word has lost bits. -/
def Obligations.HomeSlices : Prop :=
  ∀ (pid : Nat) (tag : BitVec 60) (tile n : Nat) (l : Line) (s : State),
    let p := s.part pid
    let home := homeSlice p tag
    let access := fun (a : GlobalAct) P => Completes (.homeSliceAccess ⟨pid, tag, tile, n, a⟩) s P
    let waits := fun (a : GlobalAct) => { p with waitingFills := p.waitingFills ++ [⟨pid, tag, tile, n, a⟩] }
    let queued := ∃ r ∈ p.waitingFills, r.tag = tag
    let h := s.thread tile n
    let word := fun (off k : Nat) => bytesNat l.data / 2 ^ (8 * off) % 2 ^ (8 * k)
    let written := fun (u : State) (off k v : Nat) => u.setPart pid { u.part pid with
      lines := tabPut p.lines tag.toNat { l with data := overlay l.data off (natBytes k v), dirty := true } }
    let granted := fun (u : State) (g : Thread) (rd : GReg) (v : Word) =>
      (u.setThread tile n (advance (s.tile tile) (g.setReg rd v))).event (.threadWake tile n)
    let width := fun (w : BitVec 1) => if w = 1 then 4 else 8
    let noUndo := ∀ pl, (s.tile tile).place = some pl → (s.launch pl.pid pl.lnum).cuts = []
    ((s.tile home).ctl.wayOff = 0xFFFF → ∀ a, access a
      (Same ((wakeWay s home).after 1 (.homeSliceAccess ⟨pid, tag, tile, n, a⟩)))) ∧
    ((s.tile home).ctl.wayOff ≠ 0xFFFF → s.flaws = [] →
      (lineHit p tag = none → ∀ off k rd v, access (.load off k rd) (Same (startFill (s.setPart pid (waits (.load off k rd))) pid tag)) ∧
        access (.store off k v) (Same (startFill (s.setPart pid (waits (.store off k v))) pid tag)) ∧
        access .fill (Same (startFill (s.setPart pid (waits .fill)) pid tag))) ∧
      (lineHit p tag = some l → queued → ∀ off k rd, access (.load off k rd) (PartBecomes s pid (waits (.load off k rd)))) ∧
      (lineHit p tag = some l → ¬ queued →
        (∀ off k rd, access (.load off k rd) (Same (granted s h rd (BitVec.ofNat 64 (word off k))))) ∧
        (noUndo →
          (∀ off k v, access (.store off k v) (Same ((written s off k v.toNat).setThread tile n { h with globalOut := h.globalOut - 1 }))) ∧
          (∀ off w b rd (o : BitVec 4), o.toNat ≤ 12 →
            let k := if 9 ≤ o.toNat then 4 else width w
            let v := atomicResult o.toNat k (word off k) (b.toNat % 2 ^ (8 * k))
            access (.atom off o w b rd) (Same (granted (written s off k v.1) { h with fflags := h.fflags ||| v.2 } rd
              (returned w (word off k))))) ∧
          (∀ off w e v rd,
            let k := width w
            (word off k = e.toNat % 2 ^ (8 * k) → access (.cas off w e v rd)
              (Same (granted (written s off k v.toNat) h rd (returned w (word off k))))) ∧
            (word off k ≠ e.toNat % 2 ^ (8 * k) → access (.cas off w e v rd)
              (Same (granted s h rd (returned w (word off k)))))) ∧
          (∀ off w b vc q (o : BitVec 4), o.toNat ≤ 12 →
            let k := if 9 ≤ o.toNat then 4 else width w
            let key := 32 * (4096 * tag.toNat + tile) + vc
            let v := atomicResult o.toNat k (word off k) (b.toNat % 2 ^ (8 * k))
            (q ≤ tabGet 0 p.redFilter key → access (.red off o w b vc q)
              (Same (s.setThread tile n { h with globalOut := h.globalOut - 1 }))) ∧
            (tabGet 0 p.redFilter key < q → access (.red off o w b vc q) (Same
              ((written (s.setPart pid { p with redFilter := tabPut p.redFilter key q }) off k v.1).setThread tile n { h with
                globalOut := h.globalOut - 1, redOut := h.redOut - 1, redFlags := h.redFlags ||| v.2 })))) ) ∧
        (∀ d c,
          let e := (s.tile tile).eng
          let takes := fun (o : LineOp) => if o.cnum.toNat = c then { o with bytes := l.data ++ l.sidecar } else o
          access (.lineLoad d c) (TileBecomes (s.event (.tensorLineComplete tile c)) tile
            { s.tile tile with eng := { e with lines := e.lines.map takes } })) ∧
        (∀ k high full dst off vc,
          let m := stripSize (tensorOf p (tagTid tag)) k / 8
          access (.halo k high full dst off vc) (Same (sendWords (s.setThread tile n { h with
            globalOut := h.globalOut - 1, remoteOut := h.remoteOut + m, writesOut := h.writesOut + m }) tile dst vc (32 + n) off
            (stripBytes (tensorOf p (tagTid tag)) l k high) m full))) ∧
        access .fill (Same (s.setThread tile n { h with globalOut := h.globalOut - 1 })) ∧
        (l.dirty = false → access .clean (Same (s.setThread tile n { h with globalOut := h.globalOut - 1 })))) ∧
      (∀ bs c, ¬ queued → noUndo →
        (p.lines.filter (fun e => e.2.home == home && e.1 != tag.toNat)).length < sliceRoom (s.tile home) →
        let m := maskLine p tag bs
        access (.lineStore bs c) (PartBecomes (s.event (.tensorLineComplete tile c)) pid { p with
          lines := tabPut p.lines tag.toNat ⟨m.take 1024, m.drop 1024, genOf p (tagTid tag), true, home⟩ }))) ∧
    (tabFind p.fills tag.toNat = none → Completes (.llcFillComplete pid tag) s (Same s)) ∧
    (∀ f, tabFind p.fills tag.toNat = some f →
      let fills := fun u => Completes (.llcFillComplete pid tag) s (Same u)
      let mine := p.waitingFills.filter (fun r => r.tag == tag)
      let gone := { p with fills := tabDel p.fills tag.toNat }
      let served := { gone with waitingFills := p.waitingFills.filter (fun r => r.tag != tag) }
      (f.asked = false → fills (goFill s pid tag f)) ∧
      (f.asked = true → f.left ≠ 0 → fills s) ∧
      (f.asked = true → f.left = 0 → f.gen ≠ genOf p (tagTid tag) → fills (startFill (s.setPart pid gone) pid tag)) ∧
      (f.asked = true → f.left = 0 → f.gen = genOf p (tagTid tag) →
        (lineHit p tag ≠ none → fills (performAll (s.setPart pid served) mine)) ∧
        (lineHit p tag = none →
          (p.lines.filter (fun e => e.2.home == home && e.1 != tag.toNat)).length < sliceRoom (s.tile home) →
          fills (performAll (s.setPart pid { served with
            lines := tabPut p.lines tag.toNat ⟨f.bytes.take 1024, f.bytes.drop 1024, f.gen, false, home⟩ }) mine)))) ∧
    (let backs := fun u => Completes (.llcWriteback pid tag) s (Same u)
     (tabFind p.backs tag.toNat = none →
        (lineHit p tag = none → backs s) ∧
        (lineHit p tag = some l →
          (l.dirty = false → backs s) ∧
          (l.dirty = true → walkServes p (.back tag) = false → missingPages p (lineField p tag) [] (linePieces p tag) = [] →
            backs (writeBackLine (s.setPart pid { p with lines := tabPut p.lines tag.toNat { l with dirty := false } })
              pid tag l [] none)))) ∧
     (∀ b, tabFind p.backs tag.toNat = some b →
        (walkServes p (.back tag) = true → backs s) ∧
        (walkServes p (.back tag) = false → backs (cleanLine
          (b.threads.foldl paidBack (s.setPart pid { p with backs := tabDel p.backs tag.toNat })) pid tag b.failed b.threads.head?)))) ∧
    (∀ k w, let q := k / 2 ^ 47
      let g := s.part q
      let pa := entryAt w.va w.level w.table
      tabFind g.walks k = some w →
      (w.started = false → Completes (.pageWalkComplete k) s (Same s)) ∧
      (w.started = true → w.result = none → owned g w.table = true → inHost pa = false →
        Completes (.pageWalkComplete k) s (Same (sendDemand (s.setPart q { g with walks := tabPut g.walks k w }) (chanOf pa)
          ⟨q, 0, pa % 2 ^ 31 / 1024, .walk k (pa % 2 ^ 31), none⟩))) ∧
      (w.started = true → ∀ r, (w.result = some r ∨
          (w.result = none ∧ owned g w.table = false ∧ r = .access) ∨
          (w.result = none ∧ owned g w.table = true ∧ inHost pa = true ∧ readEntry w.va w.level (physLoad s pa 8) = .stop r)) →
        ∀ z m va write user, w.waiting = [.thread z m va write user] →
          let h := s.thread z m
          let freed := { g with walks := tabDel g.walks k }
          let wakes := fun (v : Partition) => (s.setPart q v).event (.threadWake z m)
          let ends := fun u => Completes (.pageWalkComplete k) s (Same (nextWalk u w.field))
          let fails := fun (c sub : BitVec 8) => ends ((wakes freed).setThread z m { h with
            walkFault := h.walkFault ++ [(c, sub, BitVec.ofNat 64 va)] })
          (w.discard = true → ends (wakes freed)) ∧
          (w.discard = false →
            (∀ e, judgePage freed write user r = .page e → ends ((wakes { freed with
              tlb := tabPut freed.tlb w.field ((e :: (tabGet [] freed.tlb w.field).filter (· != e)).take 8192) }).setTile z
                { s.tile z with tlb := (e :: (s.tile z).tlb.filter (· != e)).take 384 })) ∧
            (∀ e, judgePage freed write user r = .fail e → fails (if write then 0x05 else 0x04) (BitVec.ofNat 8 e)) ∧
            (judgePage freed write user r = .access → fails 0x06 0))))

/-- R111 to R116, R287, R290, R379. -/
def Obligations.ZwiluFlits : Prop :=
  ∀ (n tile vc seq g : Nat) (f : ZwiluFlit) (s : State),
    (let t := s.tx n
     let entry := ((quarters (timetableEntry t s.gslot)).filter (fun q => q.1 == 1 || q.1 == 2)).eraseDups
     let x := t.send g
     let sent := fun (f : ZwiluFlit) => { s with
       timers := s.timers ++ (s.group t.origin f.group).drops.map (fun d => (s.cycle + 16, Work.event (.zwiluFlitReceive d f []))) }
     let newest := fun (f : ZwiluFlit) =>
       (f :: t.retained.filter (fun h => !(h.group == f.group && h.seq == f.seq))).take 64
     let evicts := ∃ h, t.retained[63]? = some h ∧ ∃ r ∈ (t.send h.group).refused, r.1 = h.seq
     let runs := fun P => Completes (.transmitterSlot n) s P
     (t.blocked = true ∨ t.held = true ∨ s.halt.active = true → runs (Same s)) ∧
     (t.blocked = false → t.held = false → s.halt.active = false →
       (entry = [] → runs (Same s)) ∧
       ((∀ r ∈ t.runs, r.1 ≠ g) → wavelengths (s.group t.origin g) = 16 →
         (entry = [(1, g)] →
           (x.queue = [] → runs (TxBecomes s n t)) ∧
           (∀ h r, x.queue = h :: r →
             (¬ evicts → runs (TxBecomes (sent h) n { t.setSend g { x with queue := r } with retained := newest h })) ∧
             (evicts → runs (Same (overrun (s.setTx n { t with blocked := true }) 2 n g (s.group t.origin g).vc))))) ∧
         (entry = [(2, g)] →
           ((∀ r ∈ x.refused, s.gslot < r.2) → runs (TxBecomes s n t)) ∧
           (∀ q, (x.refused.find? (fun r => decide (r.2 ≤ s.gslot))).map (·.1) = some q →
             let asked := t.setSend g { x with refused := x.refused.filter (fun r => r.1 != q) }
             (∀ h, t.retained.find? (fun f => f.group == g && f.seq == q) = some h →
               runs (TxBecomes (sent { h with resend := true }) n { asked with retained := newest h })) ∧
             (t.retained.find? (fun f => f.group == g && f.seq == q) = none → runs (TxBecomes s n asked))))))) ∧
    (let x := s.tile tile
     let b := x.bobbin
     let l := tabGet [] b.staging f.vc
     let e := tabGet 0 b.expected f.vc
     let m := insertFlit l f
     let staged := { x with bobbin := { b with
       staging := tabPut b.staging f.vc m, expected := tabPut b.expected f.vc (nextExpected m e) } }
     let counted := arcReceives (s.setTile tile staged) tile f.vc (tokensIn f.off f.payload.length)
     let fresh := e ≤ f.seq ∧ ∀ h ∈ l, h.seq ≠ f.seq
     let arrives := fun P => Completes (.zwiluFlitReceive tile f []) s P
     (¬ fresh → arrives (Same s)) ∧
     (fresh →
       (m.length ≤ 128 → arrives (Same counted)) ∧
       (128 < m.length → arrives (Same (overrun counted 0 tile f.group f.vc)))) ∧
     (x.place = none → ∀ count, arcReceives (s.setTile tile staged) tile f.vc count = s.setTile tile staged) ∧
     (fresh → (∀ h ∈ l, h.seq < f.seq) → m = l ++ [f]) ∧
     (fresh → m.length = l.length + 1) ∧
     (∀ damage, damage ≠ [] →
       let clean := Work.event (.zwiluFlitReceive tile f [])
       let hit := fun w => if w = clean then Work.event (.zwiluFlitReceive tile f damage) else w
       let runs := fun P => Completes (.zwiluFlitReceive tile f damage) s P
       (clean ∈ s.agenda ∨ (∃ e ∈ s.timers, e.2 = clean) → runs (Same { s with
         agenda := s.agenda.map hit, timers := s.timers.map (fun e => (e.1, hit e.2)) })) ∧
       (clean ∉ s.agenda → (∀ e ∈ s.timers, e.2 ≠ clean) →
         (x.place = none → checkedFlit f 16 damage = none → runs (Same s)) ∧
         (∀ pl, x.place = some pl →
           let grp := s.group (64 * pl.y0 + pl.x0) f.group
           (checkedFlit f (wavelengths grp) damage = none → runs (Same (s.event (.refusalReceive grp.wg f.group f.seq)))) ∧
           (∀ h, checkedFlit f (wavelengths grp) damage = some h → runs (Same (stageFlit s tile h))))))) ∧
    (let t := s.tx n
     let x := t.send g
     ((∃ r ∈ x.refused, r.1 = seq) → Completes (.refusalReceive n g seq) s (Same s)) ∧
     ((∀ r ∈ x.refused, r.1 ≠ seq) → Completes (.refusalReceive n g seq) s (TxBecomes s n
       (t.setSend g { x with refused := insertRefused x.refused (seq, s.gslot) }))) ∧
     ((∀ r ∈ x.refused, r.1 < seq) → insertRefused x.refused (seq, s.gslot) = x.refused ++ [(seq, s.gslot)])) ∧
    (let x := s.tile tile
     let b := x.bobbin
     let m := x.matrix
     let c := (m.channels[vc]?).getD ⟨false, 0, 0, 0⟩
     let blk := tabGet 0 b.nextBlk vc
     let l := (tabGet [] b.staging vc).filter (fun f => f.blk == blk)
     let buf := (c.obf.toNat + blk % (c.nobm1.toNat + 1)) % 16
     let whole := ∃ f ∈ l, f.last = true ∧ f.seq < tabGet 0 b.expected vc
     let waits := vc ∈ m.reload ∧ ∃ k, k < 8 ∧ (x.thread k).st = .waiting .retry
     let free := (m.ob[buf]?.map (·.full)) = some false ∧ ∀ e ∈ b.expanding, e.vc ≠ vc ∧ e.buffer.toNat ≠ buf
     let bytes := l.flatMap (·.payload)
     let size := if c.wfmt = 0x12 then 33 else if c.wfmt = 0x13 then 25 else 65
     let begun := fun t => TileBecomes (s.after 64 (.expansionComplete tile vc)) tile
       { x with bobbin := { b with expanding := b.expanding ++ [⟨vc, blk, BitVec.ofNat 4 buf⟩] } } t
     let frozen := x.stopped = true ∨ ConfigStore.channels tile ∈ s.reloading
     (frozen ∨ ¬ whole ∨ c.v = false ∨ waits ∨ ¬ free → Completes (.blockExpansion tile vc) s (Same s)) ∧
     (¬ frozen → whole → c.v = true → ¬ waits → free →
       (bytes.length = 128 * size → Completes (.blockExpansion tile vc) s begun) ∧
       (bytes.length ≠ 128 * size → Completes (.blockExpansion tile vc) s
         (fun t => ∃ u, begun u ∧ t = postAt u tile 0x08 0 0 (natBytes 1 vc ++ [0, 0, 0] ++ natBytes 4 blk)))) ∧
     (∀ e, b.expanding.find? (fun e => e.vc == vc) = some e →
       (x.stopped = true → Completes (.expansionComplete tile vc) s (Same (s.after 1 (.expansionComplete tile vc)))) ∧
       (x.stopped = false → Completes (.expansionComplete tile vc) s (fun t =>
         let y := (t.tile tile).matrix
         (∀ k, k ≠ e.buffer.toNat → y.ob[k]? = m.ob[k]?) ∧
         (y.ob[e.buffer.toNat]?.map (·.full)) = some true ∧
         (∀ a, memGet ((y.ob[e.buffer.toNat]?.map (·.mem)).getD []) a =
           (expandTile c.wfmt (((tabGet [] b.staging vc).filter (fun f => f.blk == e.blk)).flatMap (·.payload)))[a]?.getD 0) ∧
         TileBecomes s tile { x with
           matrix := { m with ob := y.ob }
           bobbin := { b with
             expanding := b.expanding.erase e
             staging := tabPut b.staging vc ((tabGet [] b.staging vc).filter (fun f => f.blk != e.blk))
             nextBlk := tabPut b.nextBlk vc (e.blk + 1) } } t)))) ∧
    (∀ (wfmt : BitVec 5) (bs : List Byte) (i k : Nat), i < 128 → k < 64 →
      let size := blockSize wfmt
      bs.length = 128 * size →
      let blk := (bs.drop (size * i)).take size
      bytesNat (expandTile wfmt bs) / 2 ^ (18 * (64 * i + k)) % 2 ^ 18 =
        encodeElem ((nth blk (1 + k) 0).getLsbD 7) (blockElem wfmt blk k) +
          (if k < 8 then 2 ^ 12 * ((nth blk 0 0).toNat / 2 ^ k % 2) else 0))

/-- R116, R117, R382. -/
def Obligations.DomainHalt : Prop :=
  ∀ (n h : Nat) (s : State),
    let a := s.halt
    (a.active = true → Completes (.haltNotice h) s (Same s)) ∧
    (a.active = false →
      (a.declared = none → Completes (.haltNotice h) s
        (Same { s with halt := { a with declared := some h, who := (6, 0, 0xFFFF, 0xFF) } })) ∧
      (∀ k, a.declared = some k →
        (h < k → Completes (.haltNotice h) s (Same { s with halt := { a with declared := some h, who := (6, 0, 0xFFFF, 0xFF) } })) ∧
        (k ≤ h → Completes (.haltNotice h) s (Same s)))) ∧
    (a.declared = none ∨ a.active = true ∨ (∃ k, a.declared = some k ∧ s.gslot < k) →
      Completes .domainHaltStart s (Same s)) ∧
    (∀ k skind src group vc, a.declared = some k → a.active = false → k ≤ s.gslot → a.who = (skind, src, group, vc) →
      let on := { s with halt := { a with active := true, since := 0, timedOut := false } }
      let data := natBytes 2 group ++ natBytes 1 vc ++ [0, 0, 0, 0, 0] ++ natBytes 8 k
      Completes .domainHaltStart s (fun t =>
        { t with agenda := s.agenda } = postLive on 0x04 0 0 skind src (declaringLaunch on skind src) data ∧
        t.agenda = s.agenda ++ s.txs.map (fun e => .event (.haltResend e.1)))) ∧
    (a.active = false → Completes (.haltResend n) s (Same s)) ∧
    (a.active = true →
      let t := s.tx n
      let left := t.resends.filter (fun e => decide (s.cycle < e.2))
      (resendOrder t = [] → Completes (.haltResend n) s (TxBecomes (s.after 8 (.haltResend n)) n { t with resends := left })) ∧
      (∀ g q k r f, resendOrder t = [g] → (t.send g).refused = (q, k) :: r →
        t.retained.find? (fun f => f.group == g && f.seq == q) = some f →
        let grp := s.group t.origin g
        let x := t.send g
        (∀ e ∈ left, (s.group t.origin e.1).wmask &&& grp.wmask = 0) →
        Completes (.haltResend n) s (TxBecomes
          { s with timers := s.timers ++ grp.drops.map (fun d => (s.cycle + (8 * runSlots grp + 8),
              Work.event (.zwiluFlitReceive d { f with resend := true } []))) ++ [(s.cycle + 8, .event (.haltResend n))] } n
          { t.setSend g { x with turns := x.turns + 1, refused := x.refused.filter (fun r => r.1 != q) } with
            retained := (f :: t.retained.filter (fun h => !(h.group == f.group && h.seq == f.seq))).take 64
            resends := left ++ [(g, s.cycle + 8 * runSlots grp)] }))) ∧
    (let heard := { s with halt := { a with
      reported := true, lastReport := max a.lastReport s.cycle } }
     ((∃ e ∈ s.timers, e.2 = .event .haltClear) ∨ (∃ m ∈ domainModules s, m ∉ a.reports) → haltReport s none s.cycle = heard) ∧
     ((∀ e ∈ s.timers, e.2 ≠ .event .haltClear) → (∀ m ∈ domainModules s, m ∈ a.reports) →
       haltReport s none s.cycle = heard.after (heard.halt.lastReport + 1024 - s.cycle) .haltClear)) ∧
    (a.active = true → Completes .haltClear s (Same { s with
      slotError := 0
      halt := { a with
        declared := none, active := false, since := 0, timedOut := false, reported := false, reports := [], lastReport := 0 }
      txs := s.txs.map (fun t => (t.1, { t.2 with
        blocked := false, resends := [], sends := t.2.sends.map (fun e => (e.1, { e.2 with turns := 0 })) })) })) ∧
    (a.active = false → Completes .haltClear s (Same s)) ∧
    (a.active = true → a.timedOut = false → Completes .domainStallTimeout s (Same (postLive
      { s with halt := { a with timedOut := true } } 0x05 0x15 0 6 0 none (natBytes 8 (a.declared.getD s.gslot))))) ∧
    (a.active = false ∨ a.timedOut = true → Completes .domainStallTimeout s (Same s))

/-- R119 to R123, R127, R366, R371, R103. -/
def Obligations.MeshFlits : Prop :=
  (∀ (s : State) (src dst vc owner : Nat) (body : MeshBody),
    let k := 32 * (4096 * src + dst) + vc
    let r := s.triple k
    let f : MeshFlit := ⟨dst, src, vc, r.next, owner, body⟩
    sendFlit s src dst vc owner body = { s with
      triples := tabPut s.triples k { r with next := r.next + 1, replay := r.replay ++ [f] }
      travels := tabPut s.travels s.nextTravel
        ⟨f, src, match body with | .reply _ => true | _ => false, 0, s.cycle + 2, .clean⟩
      nextTravel := s.nextTravel + 1
      timers := s.timers ++ [(s.cycle + 2, .event (.routerForward s.nextTravel))] }) ∧
  (∀ (b : Bool) (cur dst : Nat), cur ≠ dst →
    hops (hop b cur dst) dst + 1 = hops cur dst ∧
    (cur % 64 ≠ dst % 64 → hop false cur dst / 64 = cur / 64) ∧ (cur / 64 ≠ dst / 64 → hop true cur dst % 64 = cur % 64)) ∧
  ∀ (n : Nat) (s : State),
    (tabFind s.travels n = none → Completes (.routerForward n) s (Same s) ∧
      ∀ check, Completes (.meshFlitArrival n check) s (Same s)) ∧
    (∀ v, tabFind s.travels n = some v →
      let f := v.flit
      let k := 32 * (4096 * f.src + f.dst) + f.vc
      let r := s.triple k
      let goes := fun P => Completes (.routerForward n) s P
      let refused := (v.tile ≠ f.src ∨ f.src = f.dst) ∧ v.since ≤ s.cycle ∧ reservedSideband (sideband f) = true
      let free := canLeave s n v = true ∧ mayUse s n v = true
      let u := useOutput (if v.tile = f.src ∧ v.input = 0 then leaveSendQueue s f else s) v
      let next := hop (pathBlocked u false f.src f.dst 128) v.tile f.dst
      let onward := { v with tile := next, input := linkTo next v.tile, since := s.cycle + 2 }
      (refused → goes (Same (flitFault (leaveSendQueue { s with travels := tabDel s.travels n } f) v.tile 4 f))) ∧
      (¬ refused → ¬ free → goes (Same (s.after 1 (.routerForward n)))) ∧
      (¬ refused → free → v.tile = f.dst → goes (Same (u.event (.meshFlitArrival n v.error)))) ∧
      (¬ refused → free → v.tile ≠ f.dst → next ≠ v.tile → goes (Same
        ({ u with travels := tabPut u.travels n onward }.after 2 (.routerForward n)))) ∧
      (∀ check,
        let e := worse check v.error
        let arrives := fun P => Completes (.meshFlitArrival n check) s P
        let there := v.tile = f.dst ∧ v.since + 2 ≤ s.cycle
        let marked := { s with travels := tabPut s.travels n { v with error := e } }
        let gone := countCorrected { s with travels := tabDel s.travels n } f.dst e
        let back := 4 + 2 * hops f.src f.dst
        let acked := fun (w : State) => w.after back (.meshAcknowledgement f.src f.dst f.vc f.seq)
        let w := gone.setTriple k { r with expected := r.expected + 1 }
        let x := w.tile f.dst
        let cut := elementIsCut w f.dst (.router f.dst) = true
        let saved := acked (w.modTile f.dst (fun x => { x with edge := x.edge ++ [f] }))
        (¬ there → arrives (Same marked)) ∧
        (there → e = .uncorrectable → arrives (Same (gone.after back (.meshReplay f.src f.dst f.vc f.seq)))) ∧
        (there → e ≠ .uncorrectable → f.seq ≠ r.expected → arrives (Same gone)) ∧
        (there → e ≠ .uncorrectable → f.seq = r.expected →
          (heldAtUnit s f = true → arrives (Same (marked.after 1 (.routerForward n)))) ∧
          (heldAtUnit s f = false →
            (∀ q d, f.body = .message q d →
              (cut → arrives (Same saved)) ∧ (¬ cut → arrives (Same (acked (w.event (.messageDelivery f.dst f)))))) ∧
            (∀ off d kind, f.body = .write off d kind → arrives (Same (acked (w.event (.remoteWrite f.dst f))))) ∧
            (∀ off bs full, f.body = .bytes off bs full → arrives (Same (acked (w.event (.remoteWrite f.dst f))))) ∧
            (∀ off o d, f.body = .reduction off o d →
              arrives (Same (acked (pushToken w f.dst ⟨off, o, 1, d.zeroExtend 64, f.src, f.vc, f.seq, 1, f.owner⟩)))) ∧
            (∀ op rid p, f.body = .tree op rid p →
              (cut → arrives (Same saved)) ∧ (¬ cut → arrives (Same (acked (w.event (.treeNodeCombine f.dst f)))))) ∧
            (∀ rid p, f.body = .exponent rid p →
              (cut → arrives (Same saved)) ∧ (¬ cut → arrives (Same (acked (w.event (.treeNodeCombine f.dst f)))))) ∧
            (∀ arc d, f.body = .token arc d →
              (cut → arrives (Same saved)) ∧ (¬ cut → arrives (Same (acked (arcArrive w f.dst arc (d.truncate 32)))))) ∧
            (∀ c call path rank i d, f.body = .piece c call path rank i d →
              (cut → arrives (Same saved)) ∧
              (¬ cut → arrives (Same (acked (w.modTile f.dst (fun x => { x with core := { x.core with
                pieces := x.core.pieces ++ [⟨c, call, path, rank, i, d, true⟩] } })))))) ∧
            (∀ c, f.body = .drain c →
              arrives (Same (acked ((w.modTile f.dst (fun x => freeFilters x f.src)).event (.drainToken f.dst c))))) ∧
            (∀ d, f.body = .reply d → arrives (Same (acked w))) ∧
            (∀ pl, f.body = .picot → x.place = some pl →
              arrives (Same (acked (w.event (.picotArrival pl.pid pl.lnum (.router f.dst) f.src))))))))) ∧
    (∀ src dst vc seq, let k := 32 * (4096 * src + dst) + vc
      let r := s.triple k
      let l := r.replay.filter (fun f => decide (seq ≤ f.seq))
      Completes (.meshAcknowledgement src dst vc seq) s (TripleBecomes s k { r with replay := r.replay.filter (fun f => f.seq != seq) }) ∧
      Completes (.meshReplay src dst vc seq) s (fun t =>
        t.nextTravel = s.nextTravel + l.length ∧
        (∀ i f, l[i]? = some f →
          ∃ v, tabFind t.travels (s.nextTravel + i) = some v ∧ v.flit = f ∧ v.tile = f.src ∧ v.since = s.cycle + 2) ∧
        t.timers = s.timers ++ (List.range l.length).map (fun i => (s.cycle + 2, .event (.routerForward (s.nextTravel + i)))) ∧
        { t with travels := s.travels, nextTravel := s.nextTravel, timers := s.timers } = s)) ∧
    (∀ tile c, let x := s.tile tile
      let y := { x with drains := x.drains.filter (· != c) }
      (x.place = none → Completes (.drainToken tile c) s (TileBecomes s tile y)) ∧
      (∀ pl, x.place = some pl →
        let l := s.launch pl.pid pl.lnum
        Completes (.drainToken tile c) s (LaunchBecomes (s.setTile tile y) pl.pid pl.lnum { l with
          arcs := tabPut l.arcs c { tabGet ArcState.reset l.arcs c with drained := true } })))

/-- R77, R97, R208 to R210, R47, R51. `arcReceives` counts tokens into the launch's arcs of their tag. -/
def Obligations.RemoteDeliveries : Prop :=
  (∀ (u : State) (tile o : Nat),
    let x := u.tile tile
    let h := u.thread tile o
    (o < 8 → ownerDone u tile o = u.setThread tile o { h with remoteOut := h.remoteOut - 1 }) ∧
    (32 ≤ o → o < 48 → ownerDone u tile o =
      u.setThread tile o { h with remoteOut := h.remoteOut - 1, writesOut := h.writesOut - 1 }) ∧
    (8 ≤ o → o < 24 →
      let c := x.stream (o - 8)
      let v := u.setTile tile (x.setStream (o - 8) { c with out := c.out - 1, done := c.done + 1 })
      (c.out - 1 ≠ 0 → ownerDone u tile o = v) ∧ (c.out - 1 = 0 → ownerDone u tile o = v.event (.streamComplete tile (o - 8)))) ∧
    (o = 24 →
      (x.eng.copies = [] → ownerDone u tile o = u) ∧
      (∀ c r, x.eng.copies = c :: r →
        let v := u.setTile tile { x with eng := { x.eng with copies := { c with out := c.out - 1 } :: r } }
        (c.out ≤ 1 ∧ c.moved = c.len → ownerDone u tile o = v.event (.copyComplete tile)) ∧
        (¬ (c.out ≤ 1 ∧ c.moved = c.len) → ownerDone u tile o = v))) ∧
    (48 ≤ o → ownerDone u tile o = u) ∧
    (x.place = none → ∀ vc count, arcReceives u tile vc count = u)) ∧
  ∀ (tile : Nat) (f : MeshFlit) (s : State),
    let x := s.tile tile
    let under := fun (w : Work) (g : MeshFlit) => w = .event (.remoteWrite tile g) ∨ w = .event (.messageDelivery tile g)
    let behind := (∃ g ∈ x.core.heldMsgs, g.src = f.src ∧ g.vc = f.vc) ∨
      (∃ e ∈ x.store.held, ∃ d t, e.kind = .remote d f.vc f.src t) ∨
      ∃ g, g.src = f.src ∧ g.vc = f.vc ∧ g.seq < f.seq ∧
        ((∃ w ∈ s.agenda, under w g) ∨ ∃ e ∈ s.timers, under e.2 g)
    let isToken := f.owner < 8 ∨ (40 ≤ f.owner ∧ f.owner < 48)
    let tally := fun (u : State) => if isToken then arcReceives u tile f.vc (fun _ => 1) else u
    let counted := { x with received := x.received + if isToken then 1 else 0 }
    let runs := fun P => Completes (.remoteWrite tile f) s P
    (∀ q v, f.body = .message q v →
      let l := recvQueue x q
      let room := l.length < 32 ∧ ∀ g ∈ x.core.heldMsgs, messageFor q g = false
      let u := ownerDone (arcReceives (s.setTile tile (setRecv { x with received := x.received + 1 } q (l ++ [v])))
        tile f.vc (fun _ => 1)) f.src f.owner
      (behind → Completes (.messageDelivery tile f) s (Same (s.after 1 (.messageDelivery tile f)))) ∧
      (¬ behind → room → Completes (.messageDelivery tile f) s (fun t => { t with agenda := u.agenda } = u ∧
        t.agenda = u.agenda ++ ((List.range 8).filter (fun n => match (u.thread tile n).st with
          | .parked (.queue k _) => (k == 1) == q | _ => false)).map (fun n => .event (.threadWake tile n)))) ∧
      (¬ behind → ¬ room → Completes (.messageDelivery tile f) s
        (TileBecomes s tile { x with core := { x.core with heldMsgs := x.core.heldMsgs ++ [f] } }))) ∧
    (∀ off v kind, f.body = .write off v kind →
      let w := off / 8
      let empty := isFull x w = false
      let noWaiter := (∀ e ∈ x.store.waiters, e.word ≠ w) ∧ x.matrix.waits ≠ some w
      let taken := ((reachBanks s tile off 8).tile tile).store.busy
      let writes := fun (fills : Bool) => runs (fun t => ∃ u, t = ownerDone (tally u) f.src f.owner ∧
        (∀ a, storeByte u tile a = if off ≤ a ∧ a < off + 8 then BitVec.ofNat 8 (v.toNat / 256 ^ (a - off)) else storeByte s tile a) ∧
        (∀ k, isFull (u.tile tile) k = if fills = true ∧ k = w then true else isFull x k) ∧
        TileBecomes s tile { counted with
          store := { x.store with mem := (u.tile tile).store.mem, full := (u.tile tile).store.full, busy := taken } } u)
      let entry : Waiter := ⟨w, .remote v f.vc f.src f.owner⟩
      (behind → runs (Same (s.after 1 (.remoteWrite tile f)))) ∧
      (¬ behind →
        (bankHeld x (w % 32) = true → runs (Same ((wakeBank s tile (w % 32)).after 1 (.remoteWrite tile f)))) ∧
        (bankHeld x (w % 32) = false →
          (kind = 0 → writes false) ∧
          (off % 8 = 0 → noWaiter →
            (kind = 1 → writes true) ∧ (kind = 2 → empty → writes true)) ∧
          (kind = 2 → ¬ empty →
            (remoteEntries x (w % 32) < 8 → runs (fun t => ∃ u, t = tally u ∧ TileBecomes s tile { counted with
              store := { x.store with waiters := x.store.waiters ++ [entry], busy := taken } } u)) ∧
            (8 ≤ remoteEntries x (w % 32) → runs (TileBecomes s tile { x with
              store := { x.store with held := x.store.held ++ [entry], busy := taken } })))))) ∧
    (∀ off bs full, f.body = .bytes off bs full →
      let taken := ((reachBanks s tile off bs.length).tile tile).store.busy
      let written := fun (fills : Bool) (u : State) =>
        (∀ a, storeByte u tile a = if off ≤ a ∧ a < off + bs.length then bs[a - off]?.getD 0 else storeByte s tile a) ∧
        (∀ k, isFull (u.tile tile) k = if fills = true ∧ k = off / 8 then true else isFull x k) ∧
        TileBecomes s tile { x with store := { x.store with
          mem := (u.tile tile).store.mem, full := (u.tile tile).store.full, busy := taken } } u
      (behind → runs (Same (s.after 1 (.remoteWrite tile f)))) ∧
      (¬ behind →
        (∀ b, heldIn x off bs.length = some b → runs (Same ((wakeBank s tile b).after 1 (.remoteWrite tile f)))) ∧
        (heldIn x off bs.length = none →
          (f.owner ≠ 255 → full = true → (∀ e ∈ x.store.waiters, e.word ≠ off / 8) → x.matrix.waits ≠ some (off / 8) →
            runs (fun t => ∃ u, t = ownerDone u f.src f.owner ∧ written true u)) ∧
          (full = false → runs (fun t => ∃ u, written false u ∧
            t = ownerDone (if f.owner = 255 then arcReceives u tile f.vc (tokensIn off bs.length) else u) f.src f.owner)))))

/-- R251, R252, R129, R52 to R54, R372. The choice of the trapping thread is a free value (log 7). -/
def Obligations.BarriersAndSweeps : Prop :=
  ∀ (pid lnum bar parties tile n : Nat) (s : State), bar < 16 → n < 8 →
    let l := s.launch pid lnum
    let b := l.barrier bar
    let h := s.thread tile n
    let ts := launchTiles s pid lnum
    let arrive := fun P => Completes (.barrierArrival pid lnum bar parties tile n) s P
    let counted := fun (e : Word) => s.setThread tile n { h with arrivals := tabPut h.arrivals bar (.counted b.phase e) }
    let told := ts.map (fun d => (s.cycle + (4 + 2 * hopsFrom (ts.headD 0) d), Work.event (.barrierCompletion pid lnum bar d)))
    let withBarrier := fun (u : State) (c : Barrier) => LaunchBecomes u pid lnum (l.setBarrier bar c)
    ((∀ e, tabFind h.arrivals bar ≠ some (.sent e)) → arrive (Same s)) ∧
    (∀ e, tabFind h.arrivals bar = some (.sent e) →
      (b.arrivals = 0 ∨ b.parties = parties →
        (b.arrivals + 1 < parties → arrive (withBarrier (counted e) { b with parties := parties, arrivals := b.arrivals + 1 })) ∧
        (parties ≤ b.arrivals + 1 → arrive (withBarrier { counted e with timers := s.timers ++ told }
          { b with phase := b.phase + 1, parties := 0, arrivals := 0 }))) ∧
      (b.arrivals ≠ 0 → b.parties ≠ parties → Config.barrierNewcomerTraps s.free = true ∨
          countedArrivals s pid lnum bar b.phase = [] → h.inh = false →
        let x := s.tile tile
        let g := { h with arrivals := tabDel h.arrivals bar }
        (h.st = .halted → arrive (ThreadBecomes { s with free := s.free + 1 } tile n g)) ∧
        (h.st ≠ .halted → arrive (ThreadBecomes { s with free := s.free + 1 } tile n { g with
          cause := 0x06, sub := 0, tval := BitVec.ofNat 64 (2 ^ 16 * parties + bar), tepc := e, ppl := h.pl, inh := true
          st := .running, rptAt := none, walkFault := [], pl := if h.pl = 3 then 3 else 1
          pc := if h.pl = 3 then x.core.mtvec else x.core.tvec }))) ∧
      (∀ t' n' e' r, b.arrivals ≠ 0 → b.parties ≠ parties → Config.barrierNewcomerTraps s.free = false →
        countedArrivals s pid lnum bar b.phase = (t', n', e') :: r →
        let u := { s with free := s.free + 1 }
        arrive (Same ((disagree (u.setLaunch pid lnum (l.setBarrier bar { b with arrivals := b.arrivals - 1 })) bar b.parties t' n' e').event
          (.barrierArrival pid lnum bar parties tile n))))) ∧
    (let k := tabGet 0 b.told tile
     let mine := fun (m : Nat) => ∃ e, tabFind (s.thread tile m).arrivals bar = some (.counted k e)
     (b.phase ≤ k → Completes (.barrierCompletion pid lnum bar tile) s (Same s)) ∧
     (k < b.phase → Completes (.barrierCompletion pid lnum bar tile) s (fun t =>
       withBarrier { s with tiles := t.tiles, agenda := t.agenda } { b with told := tabPut b.told tile (k + 1) } t ∧
       (∀ u m, u ≠ tile → t.thread u m = s.thread u m) ∧
       (∀ m, m < 8 → (mine m → t.thread tile m = { s.thread tile m with
         arrivals := tabPut (s.thread tile m).arrivals bar .complete }) ∧ (¬ mine m → t.thread tile m = s.thread tile m)) ∧
       (∀ u, { t.tile u with core := { (t.tile u).core with threads := (s.tile u).core.threads } } = s.tile u) ∧
       ∃ w, t.agenda = s.agenda ++ w ∧
         ∀ j, j ∈ w ↔ ∃ m, m < 8 ∧ mine m ∧ (s.thread tile m).st = .parked (.barrier bar) ∧ j = .event (.threadWake tile m)))) ∧
    (∀ node call, let x := s.tile tile
      let q := recvQueue x false
      let made := tabGet (0, 0) x.core.calls node
      let key := 4096 * call + node
      let latched := tabGet ([], 0) l.calls key
      let tiles := match boundColl s tile node with | some c => c.tiles.length | none => 1
      let base := s.setLaunch pid lnum { l with
        calls := if tiles ≤ latched.2 + 1 then tabDel l.calls key else tabPut l.calls key (latched.1, latched.2 + 1) }
      let done := Completes (.collectiveCallComplete pid lnum tile node call) s
      (32 ≤ q.length → done (Same (s.after 1 (.collectiveCallComplete pid lnum tile node call)))) ∧
      (q.length < 32 → done (fun t =>
        TileBecomes { base with agenda := t.agenda } tile
          (setRecv { x with core := { x.core with calls := tabPut x.core.calls node (made.1, made.2 + 1) } } false
            (q ++ [BitVec.ofNat 64 (2 ^ 32 * call + node)])) t ∧
        t.agenda = s.agenda ++ ((List.range 8).filter (fun n => match (s.thread tile n).st with
          | .parked (.queue k _) => k != 1 | _ => false)).map (fun n => .event (.threadWake tile n))))) ∧
    (let w := sweepOf s pid lnum
     let sweeps := fun P => Completes (.sweep pid lnum) s P
     let later := s.after 4096 (.sweep pid lnum)
     let cutting := ∃ c, l.cutting = some c ∧ c.slot ≤ s.gslot
     let notes := fun (base t : State) => LaunchBecomes { base with tiles := t.tiles } pid lnum { l with lastSweep := some w } t ∧
       ∀ u, t.tile u = if u ∈ ts then closeRates { s.tile u with active := false } else s.tile u
     let agrees := ∃ v, l.lastSweep = some v ∧ v.quiescent = true ∧ w.quiescent = true ∧ v.sent = w.sent ∧ v.received = w.received
     (l.phase = .held → sweeps (Same later)) ∧
     (l.phase ≠ .held → l.phase ≠ .live → sweeps (Same s)) ∧
     (l.phase = .live →
       (cutting → sweeps (LaunchBecomes later pid lnum { l with lastSweep := none })) ∧
       (¬ cutting → ts.Nodup →
         (¬ agrees → sweeps (notes later)) ∧
         (agrees → ∀ i, imageOf s pid lnum = some i → ∃ u, notes s u ∧
           (sinksMissing u pid lnum i = 0 → sweeps (Same (u.event (.launchEnd pid lnum)))) ∧
           (sinksMissing u pid lnum i ≠ 0 → sweeps (fun t =>
             t = (stallLaunch u pid lnum w (sinksMissing u pid lnum i)).after 4096 (.sweep pid lnum) ∧
             (t.launch pid lnum).phase = .held ∧ (t.launch pid lnum).cause = 0x09))))))

/-- R331 to R335, R337, R338, R340; a bound handle: log 12. -/
def Obligations.QueuePackets : Prop :=
  ∀ (pid q : Nat) (src : PacketSource) (bs : List Byte) (s : State),
    let p := s.part pid
    let x := p.queue q
    let h := field bs 2 2
    let form := fun (typ : Nat) (named : Nat → Prop) =>
      bs.length = 64 ∧ field bs 0 1 = typ ∧ h ≤ 1023 ∧ ∀ i, i < 64 → ¬ named i → nth bs i 0 = 0
    let overflow := post (s.setPart pid (p.setQueue q { x with ovf := true, ovfAt := s.cycle })) pid 0x0F 0x14 1 4 0 q 0 [BitVec.ofNat 8 q]
    let refused := post (s.setPart pid (p.setQueue q { x with pkterr := true, pktAt := s.cycle })) pid 0x0F 0x14 3 4 0 q 0 [BitVec.ofNat 8 q]
    let room := x.en = true ∧ queueCount p q < 64
    let allowed := src ≠ .host ∨ x.host = true
    let answers := fun (i : Instr) (ok : Bool) (P : State → Prop) =>
      (¬ room → Completes i s (Same overflow)) ∧ (room → ok = false ∨ ¬ allowed → Completes i s (Same refused)) ∧
      (room → ok = true → allowed → Completes i s P)
    let fresh : Binding := { Binding.reset with
      imageAt := field bs 8 8, pvbase := field bs 16 8, x0 := field bs 24 1, y0 := field bs 25 1 }
    let old := tabGet Binding.reset p.bindings h
    let data := (bs.drop 24).take (field bs 6 1)
    let num := launchNumber p
    let read := readImage s pid (field bs 8 8) (field bs 16 8)
    let heldV := fun v => ∃ e ∈ p.launches, e.2.bind = h ∧ e.2.failed = false ∧ e.2.version = v
    (launchOk p src bs = true ↔ form 1 (fun i => i < 10 ∨ 12 ≤ i ∧ i < 18) ∧ field bs 1 1 < 16 ∧ field bs 8 2 < 4096 ∧
      field bs 16 2 < 4096 ∧ (field bs 1 1 / 8 % 2 = 1 → src = .controller) ∧
      ∃ b, tabFind p.bindings h = some b ∧ (field bs 1 1 % 2 = 1 → ∀ i, b.image = some i → field i.bytes 6 1 % 2 = 0)) ∧
    (patchOk p bs = true ↔ form 2 (fun i => i < 7 ∨ 24 ≤ i ∧ i < 56) ∧ field bs 1 1 = 0 ∧ field bs 4 2 % 8 = 0 ∧
      field bs 6 1 % 8 = 0 ∧ 8 ≤ field bs 6 1 ∧ field bs 6 1 ≤ 32 ∧
      ∃ b, tabFind p.bindings h = some b ∧ b.bound = true ∧ field bs 4 2 + field bs 6 1 ≤ b.psize) ∧
    (bindOk bs = true ↔ form 3 (fun i => i < 4 ∨ 8 ≤ i ∧ i < 26) ∧ field bs 1 1 = 0 ∧ field bs 8 8 % 4096 = 0 ∧
      field bs 16 8 % 64 = 0) ∧
    (unbindOk p bs = true ↔ form 4 (fun i => i < 4) ∧ field bs 1 1 = 0 ∧ (tabFind p.bindings h).isSome ∧
      ∀ e ∈ p.launches, e.2.bind = h → e.2.failed = true) ∧
    (tabFind p.launches p.nextLaunch = none → num = p.nextLaunch) ∧
    (read.2.1 = none → headerOk read.2.2 = true) ∧
    Completes (.queueWriteError pid q) s (Same refused) ∧
    answers (.launchPacket pid q src bs) (launchOk p src bs)
      (PartBecomes (s.event (.dispatch pid)) pid ({ p with
        nextLaunch := num % (2 ^ 32 - 1) + 1
        launches := tabPut p.launches num { Launch.reset with
          queue := q, tag := BitVec.ofNat 32 (field bs 4 4), flags := BitVec.ofNat 8 (field bs 1 1)
          wctr := BitVec.ofNat 12 (field bs 8 2), wval := BitVec.ofNat 32 (field bs 12 4)
          sctr := BitVec.ofNat 12 (field bs 16 2), bind := h, version := old.current, phase := .queued
          mattr := (BitVec.ofNat 8 (field bs 1 1)).getLsbD 3 } }.setQueue q
        { x with packets := x.packets ++ [num], last := BitVec.ofNat 32 num })) ∧
    answers (.patchPacket pid q src bs) (patchOk p bs) (fun t =>
      let c := old.current
      (¬ heldV c → t = launchWrite s pid (old.pvbase + c * old.psize + field bs 4 2) data) ∧
      (heldV c → (∃ v, v < 4 ∧ v ≠ c ∧ ¬ heldV v) → ∃ v, v < 4 ∧ v ≠ c ∧ ¬ heldV v ∧
        (∀ u, u < v → u = c ∨ heldV u) ∧
        let r := launchRead s pid (old.pvbase + c * old.psize) old.psize
        let w := launchWrite (launchWrite r.1 pid (old.pvbase + v * old.psize) r.2.1) pid
          (old.pvbase + v * old.psize + field bs 4 2) data
        PartBecomes w pid { w.part pid with bindings := tabPut (w.part pid).bindings h { old with current := v } } t) ∧
      ((∀ v, v < 4 → v = c ∨ heldV v) → heldV c → t = post (s.setPart pid (p.setQueue q { x with perr := true, perrAt := s.cycle }))
        pid 0x0F 0x14 2 4 0 q 0 [BitVec.ofNat 8 q])) ∧
    answers (.bindPacket pid q src bs) (bindOk bs) (fun t =>
      ((tabFind p.bindings h).isSome →
        t = post s pid 0x10 0 0 4 0 0xFF 0 (natBytes 2 h ++ natBytes 2 (Config.bindFailure 0).toNat)) ∧
      (tabFind p.bindings h = none →
        (∀ code, read.2.1 = some code → t = post read.1 pid 0x10 0 0 4 0 0xFF 0 (natBytes 2 h ++ natBytes 2 code)) ∧
        (read.2.1 = none → PartBecomes read.1 pid { read.1.part pid with
          bindings := tabPut (read.1.part pid).bindings h { fresh with read := read.2.2 } } t))) ∧
    answers (.unbindPacket pid q src bs) (unbindOk p bs) (fun t =>
      t.part pid = { p with bindings := tabDel p.bindings h } ∧ (∀ k, k ≠ pid → t.part k = s.part k) ∧
      (∀ k, (tabFind s.tiles k).isSome → t.tile k = if holdsTile p k = true ∧ (s.tile k).configured = some h then
        { s.tile k with configured := none } else s.tile k) ∧
      { t with parts := s.parts, tiles := s.tiles } = s) ∧
    ∀ (k : Nat) (i : Image),
      (∀ b, tabFind p.bindings k = some b → b.bound = false → decodesRead b i = true →
        (b.x0 + i.pw > p.w ∨ b.y0 + i.ph > p.h ∨ groupsOk i = false ∨ timetablesOk i = false ∨
          treesOk i = false ∨ matrixNodeOk i = false → (bindFailureOf s pid k b i).isSome) ∧
        (∀ code, bindFailureOf s pid k b i = some code →
          Completes (.bindComplete pid k i) s (Same ((post (s.setPart pid { p with
            bindings := tabDel p.bindings k
            launches := p.launches.map (fun e => (e.1, if e.2.bind = k then { e.2 with failed := true } else e.2)) })
            pid 0x10 0 0 4 0 0xFF 0 (natBytes 2 k ++ natBytes 2 code)).event (.dispatch pid)))) ∧
        (bindFailureOf s pid k b i = none → Completes (.bindComplete pid k i) s (fun t =>
          let now : Binding := { b with image := some i, psize := 64 * i.psz, current := 0, bound := true }
          let u := launchWrite (s.setPart pid { p with bindings := tabPut p.bindings k now })
            pid b.pvbase (i.params ++ List.replicate (64 * i.psz - i.params.length) 0)
          t = (writeEdges u pid i).event (.dispatch pid) ∧ (i.edges = [] → i.colls = [] → t = u.event (.dispatch pid))))) ∧
      ((∀ b, tabFind p.bindings k = some b → b.bound = true ∨ decodesRead b i = false) → Completes (.bindComplete pid k i) s (Same s))

/-- R347, R365, R366, R378. -/
def Obligations.QueueRelease : Prop :=
  ∀ (pid q : Nat) (s : State),
    let p := s.part pid
    ((p.queue q).packets = [] → Completes (.qrelResume pid q) s (Same s) ∧ Completes (.qrelAbort pid q) s (Same s)) ∧
    ∀ (n : Nat) (r : List Nat), (p.queue q).packets = n :: r →
      let l := s.launch pid n
      let ts := occupied s pid n
      let mine := fun (g : Region) => g.pid = pid ∧ g.lnum = n
      (l.phase ≠ .held ∨ l.cause = 0x08 ∨ l.cause = 0x0E → Completes (.qrelResume pid q) s (Same s)) ∧
      (l.phase = .held → l.cause = 0x11 → Completes (.qrelResume pid q) s (PartBecomes (s.event (.dispatch pid)) pid
        ({ p with launches := tabPut p.launches n { l with restoring := true } }.setQueue q { p.queue q with held := false }))) ∧
      (l.phase = .held → l.cause ≠ 0x08 → l.cause ≠ 0x0E → l.cause ≠ 0x11 → Completes (.qrelResume pid q) s (fun t =>
        t.part pid = { p with launches := tabPut p.launches n { l with
          phase := .live, cause := 0, lastSweep := some ⟨false, sentSum s ts, receivedSum s ts⟩ } }.setQueue
          l.queue { p.queue l.queue with held := false } ∧
        (∀ k, k ≠ pid → t.part k = s.part k) ∧
        (∀ u, u ∉ ts → t.tile u = s.tile u) ∧
        (∀ u, u ∈ ts → let x := s.tile u
          t.tile u = { x with
            stopped := false, active := false, matrix := { x.matrix with held := false }
            core := { x.core with threads := x.core.threads.map (fun h =>
              { h with faults := 0, st := if h.st = .waiting .fault then .running else h.st }) }
            mem := { x.mem with chains := x.mem.chains.map (fun e => (e.1, { e.2 with faulted := false })) } } ∧
          ∀ e ∈ x.mem.chains, e.2.faulted = true → .event (.storeOpPerform u e.1) ∈ t.agenda) ∧
        t.regions = s.regions.map (fun e => (e.1, if mine e.2 then { e.2 with faults := 0, held := false } else e.2)) ∧
        t.chans = s.chans.map (fun e => (e.1, if e.2.launch = some (pid, n) then { e.2 with held := false } else e.2)) ∧
        t.txs = s.txs.map (fun e => (e.1, if e.2.launch = some (pid, n) then { e.2 with held := false } else e.2)) ∧
        (∃ more, t.agenda = s.agenda ++ more ++ [.event (.dispatch pid)]) ∧
        { t with parts := s.parts, tiles := s.tiles, regions := s.regions, chans := s.chans, txs := s.txs
                 agenda := s.agenda } = s)) ∧
      (let records := fun (t : State) => ∃ e more, (t.part pid).records = e :: more ++ p.records ∧ e.typ = 1 ∧ e.queue = l.queue ∧
         e.lnum = n ∧ bytesNat (e.data.take 4) = n % 2 ^ 32 ∧ bytesNat ((e.data.drop 4).take 4) = l.tag.toNat ∧
         nth e.data 8 0 = 1
       let left := fun (t : State) =>
         (t.part pid).launches = tabDel p.launches n ∧ (t.part pid).counters = p.counters ∧
         (t.part pid).dispatching = (if p.dispatching = some n then none else p.dispatching) ∧
         (t.part pid).queue l.queue = { p.queue l.queue with
           packets := (p.queue l.queue).packets.filter (· != n), held := false, ready := none, age := 0 } ∧
         (∀ k, k % 64 ≠ l.queue % 64 → (t.part pid).queue k = p.queue k) ∧ ∀ k, k ≠ pid → t.part k = s.part k
       (l.phase = .queued → Completes (.qrelAbort pid q) s (fun t => left t ∧ (evlogEn p.evlog = true → records t) ∧
         (t.part pid).seq = p.seq + 1 ∧ { t with parts := s.parts, host := s.host, agenda := s.agenda } = s ∧
         t.agenda = s.agenda ++ [.event (.dispatch pid)])) ∧
       (l.phase ≠ .queued → Completes (.qrelAbort pid q) s (fun t => left t ∧ (t.part pid).seq = p.seq + 2 ∧
         (evlogEn p.evlog = true → records t ∧ ∃ e f, (t.part pid).records = f :: e :: p.records ∧ e.typ = 0x13 ∧
           e.data = natBytes 8 (sentSum s ts).toNat ++ natBytes 8 (receivedSum s ts).toNat ++
             natBytes 8 (ts.foldl (fun m u => m + tilePending s u) (arcsPending l + transitPending s pid n ts))) ∧
         (∀ u, u ∉ ts → t.tile u = s.tile u) ∧
         (∀ u, u ∈ ts → let x := t.tile u
           x.place = none ∧ x.configured = none ∧ x.drains = [] ∧ x.edge = [] ∧ x.stopped = false ∧ x.store.waiters = [] ∧
           x.store.held = [] ∧ x.bobbin = Bobbin.reset ∧ x.mem.chains = [] ∧ x.core.heldMsgs = [] ∧ (∀ k, recvQueue x k = []) ∧
           (∀ m, (x.thread m).st = .halted) ∧ x.store.mem = (s.tile u).store.mem ∧ x.store.full = (s.tile u).store.full ∧
           x.core.imem = (s.tile u).core.imem ∧ x.sent = (s.tile u).sent ∧ x.received = (s.tile u).received ∧
           x.ctl = (s.tile u).ctl ∧ x.tlb = (s.tile u).tlb) ∧
         t.regions = s.regions.map (fun e => (e.1, if mine e.2 then { e.2 with
           st := if e.2.st = 0 then 0 else 3, go := none, rewrite := none, held := false, drained := true, lnum := 0 } else e.2)) ∧
         (l.phase ≠ .configuring → t.chans = s.chans.map (fun e => (e.1,
           if e.2.launch = some (pid, n) then freeChannel e.2 s.mck else e.2))) ∧
         t.txs = s.txs.map (fun e => (e.1, if e.2.launch = some (pid, n) then Transmitter.reset else e.2)) ∧
         t.travels = s.travels.filter (fun e => !(ts.contains e.2.flit.src || ts.contains e.2.flit.dst)) ∧
         t.agenda = s.agenda.filter (fun w => !workOf ts w) ++ [.event (.dispatch pid)] ∧
         t.timers = s.timers.filter (fun e => !workOf ts e.2) ∧
         { t with parts := s.parts, host := s.host, tiles := s.tiles, regions := s.regions, chans := s.chans, txs := s.txs
                  travels := s.travels, agenda := s.agenda, timers := s.timers } = s)))

/-- R341 to R343, R49, R50, R335. -/
def Obligations.DispatchAndStart : Prop :=
  (∀ (s : State) (pid q k n : Nat) (r : List Nat), ((s.part pid).queue q).packets = n :: r → (s.launch pid n).failed = true →
    failHead s pid q (k + 1) = failHead (leaveQueue (endRecord s pid n 2 0) pid n) pid q k) ∧
  (∀ (s : State) (pid : Nat), (∀ q n r, q < 64 → ((s.part pid).queue q).packets = n :: r → (s.launch pid n).failed = false) →
    failHeads s pid = s) ∧
  (∀ (s : State) (pid q : Nat), headReady s pid q = true ↔
    let p := s.part pid
    ∃ n r, (p.queue q).packets = n :: r ∧ let l := s.launch pid n
      (l.phase = .queued ∨ l.restoring = true) ∧ (tabGet Binding.reset p.bindings l.bind).bound = true ∧
      (l.restoring = true ∨ l.flags.getLsbD 1 = false ∨ eventReached (tabGet 0 p.counters l.wctr.toNat) l.wval = true) ∧
      (∀ u ∈ launchTiles s pid n, let x := s.tile u
        x.place = none ∧ x.drains = [] ∧ x.ctl.unavailable = false ∧ x.ctl.retire = false) ∧
      (∀ e ∈ p.launches, ¬ (e.2.phase = .held ∧ e.2.cause = 0x10)) ∧ (p.queue q).held = false) ∧
  ∀ (pid : Nat) (s : State),
    (let u := failHeads s pid
     let p := u.part pid
     let noted := fun q => let x := p.queue q
       if headReady u pid q = true then (if x.ready.isSome then x else { x with ready := some u.cycle, age := 0, windows := 0 })
       else if x.ready.isSome then { x with ready := none, age := 0, windows := 0 } else x
     let ready := fun q => q < 64 ∧ headReady u pid q = true
     let since := fun q => (noted q).ready.getD 0
     let ep := fun q => min ((noted q).prio.toNat + (noted q).age) 14
     let first := fun k => ready k ∧ ∀ q, ready q → ep q < ep k ∨ ep q = ep k ∧ (since k < since q ∨ since k = since q ∧ k ≤ q)
     (p.dispatching.isSome ∨ u.suspend ≠ .running ∨ (∀ q, ¬ ready q) → Completes (.dispatch pid) s (fun t =>
       (∀ q, q < 64 → (t.part pid).queue q = noted q) ∧ { t.part pid with queues := p.queues } = p ∧
       (∀ k, k ≠ pid → t.part k = u.part k) ∧ { t with parts := u.parts } = u)) ∧
     (p.dispatching = none → u.suspend = .running → ∀ k, first k → ∃ n r, (p.queue k).packets = n :: r ∧
       Completes (.dispatch pid) s (fun t =>
         let l := u.launch pid n
         let b := tabGet Binding.reset p.bindings l.bind
         (t.part pid).dispatching = some n ∧ (t.launch pid n).phase = .configuring ∧
         (l.restoring = false → t.launch pid n = { l with phase := .configuring } ∧ t.free = u.free ∧
           ∀ c, t.chan c = if c ∈ drivenChannels u pid n then stopKeeper (u.chan c) u.mck else u.chan c) ∧
         (t.part pid).queue k = { noted k with ready := none, age := 0, windows := 0 } ∧
         (∀ q, q < 64 → q ≠ k → (t.part pid).queue q = noted q) ∧
         (∀ i, b.image = some i →
           let o := (p.x0 + b.x0, p.y0 + b.y0)
           (∀ x, x ∈ launchTiles u pid n → let c := (u.tile x).ctl
             (t.tile x).place = some ⟨pid, n, o.1, o.2, i.pw, i.ph, l.bind⟩ ∧
             (t.tile x).ctl = { c with busTests := if p.elastic then c.busTests else c.busTests.map (fun e => (e.1, true)) } ∧
             { t.tile x with place := (u.tile x).place, mem := (u.tile x).mem, ctl := c } = u.tile x) ∧
           (∀ x, x ∉ launchTiles u pid n → t.tile x = u.tile x) ∧
           ((∀ x ∈ launchTiles u pid n, (u.tile x).configured = some l.bind) →
             t.timers = u.timers ++ [(u.cycle, .event (.configurationComplete pid n))]) ∧
           ((∃ x ∈ launchTiles u pid n, (u.tile x).configured ≠ some l.bind) → t.timers = u.timers ++
             [(u.cycle + (1024 + (sectionBytes i + 127) / 128), .event (.configurationComplete pid n))])) ∧
         { t with parts := u.parts, tiles := u.tiles, regions := u.regions, timers := u.timers, chans := u.chans
                  free := u.free } = u))) ∧
    (∀ q, let p := s.part pid
      let x := p.queue q
      (x.ready = none ∨ x.agep = 0 → Completes (.agingStep pid q) s (Same s)) ∧
      (x.ready.isSome → x.agep ≠ 0 →
        (x.windows + 1 < x.agep.toNat → Completes (.agingStep pid q) s
          (PartBecomes s pid (p.setQueue q { x with windows := x.windows + 1 }))) ∧
        (x.agep.toNat ≤ x.windows + 1 → Completes (.agingStep pid q) s
          (PartBecomes s pid (p.setQueue q { x with windows := 0, age := x.age + 1 }))))) ∧
    ∀ (n : Nat), let l := s.launch pid n
      let p := s.part pid
      let b := tabGet Binding.reset p.bindings l.bind
      (l.phase ≠ .configuring → Completes (.configurationComplete pid n) s (Same s)) ∧
      (l.phase = .configuring →
        let k := stopKeepers s pid n
        (l.saveOut ≠ 0 → Completes (.configurationComplete pid n) s (Same (s.after 1 (.configurationComplete pid n)))) ∧
        (∀ c, k.chan c = if c ∈ drivenChannels s pid n then stopKeeper (s.chan c) s.mck else s.chan c) ∧
        (l.saveOut = 0 → (∃ c ∈ drivenChannels s pid n, channelReady (k.chan c) = false) →
          Completes (.configurationComplete pid n) s (Same (k.after 1 (.configurationComplete pid n)))) ∧
        (l.saveOut = 0 → (∀ c ∈ drivenChannels s pid n, channelReady (k.chan c) = true) →
          Completes (.configurationComplete pid n) s (fun t =>
            (t.launch pid n).phase = .starting ∧ (t.launch pid n).s0 = startSlot k pid n ∧
            (drivenChannels s pid n = [] → startSlot k pid n = s.gslot + (264 + s.cycle % 8 + 7) / 8) ∧
            (t.part pid).dispatching = (if p.dispatching = some n then none else p.dispatching) ∧
            t.agenda = s.agenda ++ (if l.restoring then [.event (.restore pid n)] else []) ++ [.event (.dispatch pid)] ∧
            (∀ i, b.image = some i → ∀ x ∈ launchTiles s pid n, let y := t.tile x
              y.configured = some l.bind ∧ y.core.threads = Vector.replicate 8 Thread.reset ∧ y.sent = 0 ∧ y.received = 0 ∧
              y.core.shared = Vector.replicate 16 0 ∧ y.eng = { Engines.reset with csdiv := i.csdiv } ∧
              ((s.tile x).configured = some l.bind → y.store.mem = (s.tile x).store.mem ∧ y.core.imem = (s.tile x).core.imem) ∧
              y.store.full = (s.tile x).store.full) ∧
            ∀ x, x ∉ launchTiles s pid n → (t.tile x).core = (s.tile x).core ∧ (t.tile x).store = (s.tile x).store))) ∧
      (l.phase ≠ .starting ∨ s.gslot < l.s0 ∨ b.image = none → Completes (.launchStart pid n) s (Same s)) ∧
      (b.image.isSome → l.phase = .starting → l.s0 ≤ s.gslot → l.restoring = true → groupWaits s l = true →
        Completes (.launchStart pid n) s (Same (s.setLaunch pid n { l with s0 := s.gslot + 1 }))) ∧
      (∀ i, b.image = some i → l.phase = .starting → l.s0 ≤ s.gslot → l.restoring = false →
        (∀ k, k < i.regions.length → let g := s.region (regionKey (p.x0 + b.x0, p.y0 + b.y0) k)
          g.runs = 0 ∨ g.drained = true) →
        Completes (.launchStart pid n) s (fun t =>
          let o := (p.x0 + b.x0, p.y0 + b.y0)
          let param := BitVec.ofNat 64 (b.pvbase + l.version * b.psize)
          t.launch pid n = { l with
            phase := .live, elastic := p.elastic, cause := 0, lastSweep := none, arcs := []
            barriers := Vector.replicate 16 Barrier.reset, cuts := [], cutting := none, nextCut := 1
            snapAt := if p.snapi = 0 then l.snapAt else l.s0 + 2 ^ (p.snapi + 10) } ∧
          (∀ x ∈ launchTiles s pid n, let y := t.tile x
            t.ccnt x = BitVec.ofNat 64 (8 * l.s0) ∧ y.active = true ∧ y.stopped = false ∧
            (i.matrix.isSome → y.matrix.st = 2 ∧ y.matrix.go = none ∧ y.matrix.limit = 0 ∧ y.matrix.mslot = 0 ∧ y.matrix.cyc = 0) ∧
            ∀ m, m < 8 → y.thread m = threadAtStart i (relTile o x) param l.mattr m) ∧
          (∀ x, x ∉ launchTiles s pid n → t.tile x = s.tile x) ∧
          (∀ k g, i.regions[k]? = some g → let r := s.region (regionKey o k)
            t.region (regionKey o k) = (if g.atLaunch && r.loaded then { r with
              slot := 0, rbase := 0, sv := 1, iter := 1, st := 1, trip := BitVec.ofNat 32 g.trip, period := 0
              runs := r.runs + 1, go := none, stop := false, drained := false } else r)) ∧
          (∀ d ∈ drivenBy p i, (∀ e ∈ drivenBy p i, e.1 = d.1 → e = d) → let m := s.cycle / 8 * 6
            t.chan d.1 = { s.chan d.1 with
              words := d.2.words, index := 0, start := m, last := m, idle := idleIndex d.2.words, interval := m
              intervalHeld := false, held := false }) ∧
          t.txs = s.txs.map (fun e => (e.1, if e.2.launch = some (pid, n) then { e.2 with s0 := l.s0, held := false } else e.2)) ∧
          t.timers = s.timers ++ [(s.cycle + 4096, .event (.sweep pid n))] ++
            (if p.snapi = 0 then [] else [(s.cycle + 8 * 2 ^ (p.snapi + 10), .event (.snapshotInterval pid n))]))) ∧
      ∀ (i : Image) (rel m : Nat) (param : Word) (mattr : Bool),
        ((∀ c ∈ i.code, (codeThreads i rel c).getLsbD m = false ∧ (c.pair = false ∨ rel % 2 = 0 ∨ c.threads.getLsbD m = false)) →
          threadAtStart i rel param mattr m = Thread.reset) ∧
        ∀ (c : CodeImage) (r : List CodeImage), i.code = c :: r → (codeThreads i rel c).getLsbD m = true →
          let h := threadAtStart i rel param mattr m
          h.st = .running ∧ h.pc = BitVec.ofNat 64 c.entry ∧ h.paramv = param ∧ h.reg 1 = param ∧ (∀ g, g ≠ 1 → h.reg g = 0) ∧
            h.pl = (if mattr then 3 else 0) ∧ h.inh = false ∧ h.p = 0 ∧ h.lo = c.base ∧ h.hi = c.base + 4 * c.words.length

/-- R345, R103. -/
def Obligations.LaunchEnding : Prop :=
  ∀ (pid n : Nat) (s : State),
    let p := s.part pid
    let l := s.launch pid n
    let ts := occupied s pid n
    let runs := fun P => Completes (.launchEnd pid n) s P
    (l.phase ≠ .live → l.phase ≠ .ended → runs (Same s)) ∧
    (l.phase = .live → runs (fun t =>
      (t.launch pid n).phase = .ended ∧
      (∃ more, t.agenda = s.agenda ++ more ++ [.event (.launchEnd pid n)]) ∧
      (∀ u, { t.tile u with drains := (s.tile u).drains } = s.tile u ∧ ∀ c ∈ (s.tile u).drains, c ∈ (t.tile u).drains) ∧
      (∀ i c a f g h k, imageOf s pid n = some i → i.arcs[c]? = some a → a.fromPort = some (f, h) → a.toPort = some (g, k) →
        a.memoryOrder = false → k ≠ .m → (tabGet ArcState.reset l.arcs c).drained = false →
        ∀ b, b = tabGet Binding.reset p.bindings l.bind →
          let place := fun rel => peTile (512 * (8 * (p.y0 + b.y0) + rel / 512) + 8 * (p.x0 + b.x0) + rel % 512)
          c ∈ (t.tile (place g)).drains ∧
          (place f = place g → .event (.drainToken (place g) c) ∈ t.agenda) ∧
          (place f ≠ place g → ∃ v e, (v, e) ∈ t.travels ∧ e.flit.src = place f ∧ e.flit.dst = place g ∧ e.flit.vc = a.vc ∧
            e.flit.body = .drain c)))) ∧
    (l.phase = .ended →
      (launchDrained s pid n = true ↔ (∀ u ∈ ts, (s.tile u).drains = []) ∧ ∀ i, imageOf s pid n = some i →
        ∀ a ∈ i.arcs, a.memoryOrder = false → ∀ f, a.toPort = some (f, .m) → nodeEnded s pid n i a.fromNode = true ∧
          ∀ b, b = tabGet Binding.reset p.bindings l.bind →
            (s.pe (512 * (8 * (p.y0 + b.y0) + f / 512) + 8 * (p.x0 + b.x0) + f % 512)).m.full = false) ∧
      (launchDrained s pid n = false → runs (Same (s.after 1 (.launchEnd pid n)))) ∧
      (launchDrained s pid n = true → runs (fun t =>
        (t.part pid).launches = tabDel p.launches n ∧
        (t.part pid).counters = (if l.flags.getLsbD 2 then tabPut p.counters l.sctr.toNat (tabGet 0 p.counters l.sctr.toNat + 1)
          else p.counters) ∧
        (t.part pid).dispatching = (if p.dispatching = some n then none else p.dispatching) ∧
        (t.part pid).queue l.queue = { p.queue l.queue with
          packets := (p.queue l.queue).packets.filter (· != n), held := false, ready := none, age := 0 } ∧
        (t.part pid).seq = p.seq + 1 ∧
        (evlogEn p.evlog = true → ∃ e, (t.part pid).records = e :: p.records ∧ e.typ = 1 ∧ e.queue = l.queue ∧ e.lnum = n ∧
          e.data = natBytes 4 n ++ natBytes 4 l.tag.toNat ++ natBytes 1 0 ++ natBytes 1 l.version ++ natBytes 1 l.queue ++
            natBytes 1 (attrOf s pid n) ++ natBytes 4 0 ++ natBytes 8 (sentSum s (launchTiles s pid n)).toNat) ∧
        (∀ u, u ∉ ts → t.tile u = s.tile u) ∧
        (∀ u, u ∈ ts → let x := t.tile u
          let y := s.tile u
          x = { y with
            place := none, stopped := false, active := false, bobbin := Bobbin.reset, matrix := { y.matrix with held := false, go := none }
            core := { y.core with threads := y.core.threads.map (fun h => { h with st := .halted, debug := false }) } }) ∧
        t.chans = s.chans.map (fun e => (e.1, if e.2.launch = some (pid, n) then freeChannel e.2 s.mck else e.2)) ∧
        t.regions = s.regions.map (fun e => (e.1, if e.2.pid = pid ∧ e.2.lnum = n then { e.2 with
          st := if e.2.st = 0 then 0 else 3, go := none, rewrite := none, held := false, drained := true, lnum := 0 } else e.2)) ∧
        t.txs = s.txs.map (fun e => (e.1, if e.2.launch = some (pid, n) then Transmitter.reset else e.2)) ∧
        (∃ more, t.agenda = s.agenda ++ more ++ [.event (.dispatch pid)]) ∧
        { t with parts := s.parts, host := s.host, tiles := s.tiles, regions := s.regions, chans := s.chans, txs := s.txs
                 agenda := s.agenda } = s)))

/-- R7, R130, R314, R316, R327, R351, R363, R364, Tables 15-2 and 15-3. -/
def Obligations.RegisterWrites : Prop :=
  ∀ (tile m n pid q j : Nat) (v : Word) (num : BitVec 10) (s : State),
    let h := s.thread tile m
    let x := s.tile tile
    let k := x.core
    let p := s.part pid
    let c := p.queue q
    let core := fun (k : Core) => TileBecomes s tile { x with core := k }
    let writes := fun r P => Completes (.registerWrite r v) s P
    let lsz := v.toNat / 4 % 32
    let ring := 6 ≤ lsz ∧ lsz ≤ 20 ∧ v.toNat / 2 ^ 51 % 2 = 1 ∧ v.toNat / 2 ^ 12 * 2 ^ 12 % 2 ^ (lsz + 6) = 0 ∧
      v.toNat / 2 ^ 7 % 2 ^ 5 = 0 ∧ v.toNat < 2 ^ 52
    let handler := 0xE000 ≤ v.toNat ∧ v.toNat < 0x10000 ∧ v.toNat % 4 = 0
    let root := v.toNat / 2 % 2 ^ 13 = 0 ∧ v.toNat < 2 ^ 52 ∧ owned p (v.toNat / 2 ^ 14 % 2 ^ 38 * 2 ^ 14) = true
    let select := fun (sel : Selector) ok (k : Core) =>
      (ok → Completes (.cselWrite tile sel v) s (core k)) ∧ (¬ ok → Completes (.cselWrite tile sel v) s (Same s))
    writes (.fflags tile m) (ThreadBecomes s tile m { h with fflags := v.truncate 5 }) ∧
    writes (.tcause tile m) (ThreadBecomes s tile m { h with cause := v.truncate 8, sub := v.extractLsb' 8 8 }) ∧
    writes (.tepc tile m) (ThreadBecomes s tile m { h with tepc := v }) ∧
    writes (.tval tile m) (ThreadBecomes s tile m { h with tval := v }) ∧
    writes (.tscr tile m) (ThreadBecomes s tile m { h with tscr := v }) ∧
    writes (.readOnly num) (Same s) ∧
    (n < 16 → writes (.shared tile n) (fun t => core { k with shared := (t.tile tile).core.shared } t ∧
      (t.tile tile).core.shared[n]? = some v ∧ ∀ i, i ≠ n → (t.tile tile).core.shared[i]? = k.shared[i]?)) ∧
    writes (.qcfg pid q) (PartBecomes s pid (p.setQueue q { c with
      en := v.getLsbD 0, prio := v.extractLsb' 1 3, agep := v.extractLsb' 4 4, host := v.getLsbD 8 })) ∧
    writes (.qstat pid q) (PartBecomes s pid (p.setQueue q { c with
      ovf := c.ovf && (!v.getLsbD 8 || c.ovfAt == s.cycle), perr := c.perr && (!v.getLsbD 9 || c.perrAt == s.cycle)
      pkterr := c.pkterr && (!v.getLsbD 10 || c.pktAt == s.cycle) })) ∧
    (let w : BitVec 2 := v.extractLsb' 2 2
     Completes (.tstatWrite tile m v) s (ThreadBecomes s tile m { h with
       ppl := if w = 2 ∨ h.pl.toNat < w.toNat then h.ppl else w, inh := v.getLsbD 4 })) ∧
    (handler → Completes (.tvecWrite tile false v) s (core { k with tvec := v }) ∧
      Completes (.tvecWrite tile true v) s (core { k with mtvec := v })) ∧
    (¬ handler → ∀ b, Completes (.tvecWrite tile b v) s (Same s)) ∧
    (root → Completes (.ptrootWrite pid v) s (PartBecomes s pid { p with ptroot := v })) ∧
    (¬ root → Completes (.ptrootWrite pid v) s (Same s)) ∧
    (v.getLsbD 0 = false → Completes (.evlogWrite pid v) s (PartBecomes s pid { p with evlog := v &&& 0x000FFFFFFFFFF07F })) ∧
    (v.getLsbD 0 = true → ¬ ring → Completes (.evlogWrite pid v) s (Same s)) ∧
    (v.getLsbD 0 = true → ring → Completes (.evlogWrite pid v) s (fun t =>
      t.part pid = { p with
        evlog := v &&& 0x000FFFFFFFFFF07F, buffer := []
        messages := p.messages + if v.getLsbD 1 then p.buffer.length else 0 } ∧
      (∀ u, u ≠ pid → t.part u = s.part u) ∧ { t with parts := s.parts, host := s.host } = s ∧
      t.host = p.buffer.foldl (fun m r => memWrite m
        (v.toNat / 2 ^ 12 % 2 ^ 39 * 2 ^ 12 + 64 * ((r.seq - 1) % 2 ^ lsz)) (recordBytes r)) s.host)) ∧
    Completes (.pclkWrite pid v) s (PartBecomes s pid { p with elastic := v.getLsbD 0 }) ∧
    select .gsel (v.toNat < 4096) { k with gsel := v.truncate 12 } ∧ select .esel (v.toNat < 32) { k with esel := v.truncate 5 } ∧
    select .csel (v.toNat < 4096 ∧ (boundColl s tile v.toNat).isSome) { k with csel := v.truncate 12 } ∧
    (∀ d, boundColl s tile k.csel.toNat = some d →
      (j < d.paths.length → Completes (.lbwWrite tile j v) s (core { k with
        weights := tabPut k.weights (8 * k.csel.toNat + j) (v.extractLsb' 32 8) })) ∧
      (d.paths.length ≤ j → Completes (.lbwWrite tile j v) s (Same s))) ∧
    (boundColl s tile k.csel.toNat = none → Completes (.lbwWrite tile j v) s (Same s))

/-- R79, R328, R408 to R411; the measured values are free (log 9). -/
def Obligations.PowerAndGates : Prop :=
  (∀ (pid alloc mean slot : Nat) (s t : State), t = powerStop s pid alloc mean slot →
    let p := s.part pid
    let ns := exactLaunches p
    (∀ n ∈ ns, (t.launch pid n).phase = .held ∧ (t.launch pid n).cause = 0x10 ∧
      ((s.launch pid n).queue < 64 → ((t.part pid).queue (s.launch pid n).queue).held = true) ∧
      (∀ u ∈ launchTiles s pid n, (t.tile u).stopped = true ∧ (t.tile u).matrix.held = true)) ∧
    (∀ n, n ∉ ns → t.launch pid n = s.launch pid n) ∧ (t.part pid).seq = p.seq + ns.length ∧
    (∀ u, (∀ n ∈ ns, u ∉ launchTiles s pid n) → t.tile u = s.tile u) ∧
    (∀ u, { t.tile u with stopped := (s.tile u).stopped, matrix := (s.tile u).matrix } = s.tile u) ∧
    (∀ n r, ns = n :: r → evlogEn p.evlog = true → ∃ e more, (t.part pid).records = more ++ e :: p.records ∧ e.typ = 0x0C ∧
      e.cause = 0x10 ∧ e.lnum = n ∧ e.data = natBytes 8 alloc ++ natBytes 8 mean ++ natBytes 8 slot) ∧
    (ns = [] → t = s) ∧
    { t with parts := s.parts, host := s.host, tiles := s.tiles, regions := s.regions, chans := s.chans, txs := s.txs } = s) ∧
  (∀ (tile : Nat) (v : Word) (s : State),
    let t := applyGate s tile v
    let c := (s.tile tile).ctl
    let d := (t.tile tile).ctl
    d.gateBank = v.truncate 32 ∧ d.gateWay = v.extractLsb' 32 16 ∧
    (∀ b, b < 32 → d.bankOff.getLsbD b = (c.bankOff.getLsbD b || v.getLsbD b && !c.gateBank.getLsbD b) ∧
      d.bwake.getLsbD b =
        (if v.getLsbD b && !c.gateBank.getLsbD b then false
         else c.bwake.getLsbD b || (c.gateBank.getLsbD b && !v.getLsbD b && c.bankOff.getLsbD b))) ∧
    (∀ w, w < 16 → d.wayOff.getLsbD w = (c.wayOff.getLsbD w || v.getLsbD (32 + w) && !c.gateWay.getLsbD w) ∧
      d.wwake.getLsbD w =
        (if v.getLsbD (32 + w) && !c.gateWay.getLsbD w then false
         else c.wwake.getLsbD w || (c.gateWay.getLsbD w && !v.getLsbD (32 + w) && c.wayOff.getLsbD w))) ∧
    (∀ b, b < 32 → c.gateBank.getLsbD b = true → v.getLsbD b = false → c.bankOff.getLsbD b = true → c.bwake.getLsbD b = false →
      (s.cycle + wakeCycles tile, .event (.unitWakeComplete tile (.bank b))) ∈ t.timers) ∧
    (∀ u, u ≠ tile → t.tile u = s.tile u) ∧ { t.tile tile with ctl := c } = s.tile tile ∧
    { t with tiles := s.tiles, parts := s.parts, timers := s.timers } = s ∧
    (newWays c v = 0 → t.parts = s.parts)) ∧
  (∀ (tile : Nat) (v : Word) (s : State), gateAllowed s tile v = true ↔
    (∀ b ∈ footprint s tile, v.getLsbD b = false ∨ 32 ≤ b ∨ (s.tile tile).ctl.gateBank.getLsbD b = true) ∧
    ((∀ w, w < 16 → v.getLsbD (32 + w) = true → (s.tile tile).ctl.gateWay.getLsbD w = true) ∨
      ∀ e ∈ (s.part (pidOf s tile)).launches, e.2.phase = .queued ∨ e.2.phase = .ended ∨ e.2.phase = .held ∧ e.2.cause = 0x11)) ∧
  ∀ (pid tile : Nat) (v : Word) (s : State),
    let x := s.tile tile
    let c := x.ctl
    let ctl := fun (d : Control) => TileBecomes s tile { x with ctl := d }
    (let p := s.part pid
     let mean := Config.windowPower pid p.windows
     let q := { p with alloc := p.allocNext, lastPower := mean, windowStart := s.gslot, windows := p.windows + 1 }
     (mean ≤ p.allocNext → Completes (.powerWindow pid) s (PartBecomes s pid q)) ∧
     (p.allocNext < mean → Completes (.powerWindow pid) s
       (Same (powerStop (s.setPart pid q) pid p.allocNext mean p.windowStart)))) ∧
    (x.place = none → Completes (.operatingPointStep tile) s (Same s)) ∧
    (∀ pl, x.place = some pl →
      let p := s.part pl.pid
      let l := s.launch pl.pid pl.lnum
      let mean := Config.windowPower pl.pid p.windows
      let hot := 420 < c.temp.toInt
      let runs := fun P => Completes (.operatingPointStep tile) s P
      (l.elastic = false → hot → l.phase = .live → runs (Same (powerStop s pl.pid p.alloc mean p.windowStart))) ∧
      (l.elastic = false → ¬ hot ∨ l.phase ≠ .live → runs (Same s)) ∧
      (l.elastic = true →
        (p.alloc < mean ∨ hot → runs (ctl { c with opnt := if c.opnt = 3 then 3 else c.opnt + 1, clear := false })) ∧
        (mean ≤ p.alloc → ¬ hot →
          (s.gslot = p.windowStart → runs (ctl { c with
            opnt := if c.clear = true ∧ c.opnt ≠ 0 then c.opnt - 1 else c.opnt, clear := true })) ∧
          (s.gslot ≠ p.windowStart → runs (Same s))))) ∧
    (gateAllowed s tile v = false → Completes (.gateWrite tile v) s (Same s)) ∧
    (gateAllowed s tile v = true →
      (newWays c v = 0 → Completes (.gateWrite tile v) s (Same (applyGate s tile v))) ∧
      (newWays c v ≠ 0 → let p := s.part (pidOf s tile)
        (dirtyTags p tile = [] → Completes (.gateWrite tile v) s (Same (applyGate s tile v))) ∧
        (dirtyTags p tile ≠ [] → Completes (.gateWrite tile v) s (Same (((dirtyTags p tile).foldl
          (fun u g => cleanLine u (pidOf s tile) g [] none) s).after 1 (.gateWrite tile v)))))) ∧
    (∀ b, b < 32 →
      (c.bwake.getLsbD b = false → Completes (.unitWakeComplete tile (.bank b)) s (Same s)) ∧
      (c.bwake.getLsbD b = true → (∀ e ∈ x.store.waiters, e.word % 32 ≠ b) →
        Completes (.unitWakeComplete tile (.bank b)) s (fun t =>
          (∀ a, storeByte t tile a = if a / 8 % 32 = b then 0 else storeByte s tile a) ∧
          (∀ w, isFull (t.tile tile) w = if w % 32 = b then false else isFull x w) ∧
          TileBecomes s tile { x with
            ctl := { c with bwake := c.bwake &&& ~~~(1#32 <<< b), bankOff := c.bankOff &&& ~~~(1#32 <<< b) }
            store := { x.store with mem := (t.tile tile).store.mem, full := (t.tile tile).store.full } } t))) ∧
    (∀ w, w < 16 →
      (c.wwake.getLsbD w = false → Completes (.unitWakeComplete tile (.way w)) s (Same s)) ∧
      (c.wwake.getLsbD w = true → Completes (.unitWakeComplete tile (.way w)) s
        (ctl { c with wwake := c.wwake &&& ~~~(1#16 <<< w), wayOff := c.wayOff &&& ~~~(1#16 <<< w) }))) ∧
    Completes (.unitWakeComplete tile .tile) s (ctl { c with ton := true })

/-- R368 to R376, R199, R365; the place in a damage record and the discarded state are free (log 13). -/
def Obligations.Cuts : Prop :=
  (∀ (pid n : Nat) (e : Element) (s : State) (c : Cut), (s.launch pid n).cutting = some c →
    let l := s.launch pid n
    let t := cutElement s pid n e
    let cut := c.elements ++ [e]
    let u := s.setLaunch pid n { l with cutting := some { c with elements := cut } }
    (e ∈ c.elements → t = s) ∧
    (e ∉ c.elements →
      (∀ k m, e = .thread k m → t = sendMeshPicots (sendArcPicots (cutThread u k m) pid n e) pid n k cut ∧
        ((s.thread k m).relaxed = [] → (∀ w, (s.thread k m).st ≠ .parked (.word w)) → cutThread u k m = u) ∧
        ((s.thread k m).relaxed = [] → (∃ w, (s.thread k m).st = .parked (.word w)) →
          ((cutThread u k m).thread k m).st = .running ∧
          ∀ w ∈ ((cutThread u k m).tile k).store.waiters, match w.kind with
            | .ldf a _ | .ldfe a _ | .stef a _ => a ≠ m | .remote _ _ _ _ => True)) ∧
      (∀ r, e = .region r → t = sendMeshPicots (sendArcPicots (u.setRegion r { s.region r with held := true }) pid n e)
        pid n (r / 4096) cut) ∧
      (∀ k, e = .matrix k → t = sendMeshPicots (sendArcPicots
        (u.modTile k (fun x => { x with matrix := { x.matrix with held := true } })) pid n e) pid n k cut) ∧
      (∀ k m, e = .stream k m → t = sendMeshPicots (sendArcPicots u pid n e) pid n k cut) ∧
      (∀ k, e = .router k → t = sendMeshPicots (sendArcPicots u pid n e) pid n k cut) ∧
      (∀ k, e = .dprog k → t = sendArcPicots u pid n e) ∧
      (∀ k, e = .transmitter k → let last := (s.tx k).runs.foldl (fun m r => max m r.2.1) 0
        (t.tx k) = { s.tx k with runs := [], held := true, next := s.gslot + 1 + last } ∧
        (∀ g ds, (g, ds) ∈ groupsOfTx s k → ∀ d ∈ ds,
          (s.cycle + (8 * last + 16), .event (.picotArrival pid n (.matrix d) (zwiluInput g))) ∈ t.timers) ∧
        { t with txs := u.txs, timers := u.timers } = u))) ∧
  (∀ (pid n : Nat) (e : Element) (s : State),
    { sendArcPicots s pid n e with agenda := s.agenda } = s ∧
    ∀ w, w ∈ (sendArcPicots s pid n e).agenda ↔ w ∈ s.agenda ∨
      ∃ k a y, (k, a) ∈ launchArcs s pid n ∧ arcEnds s pid n a = some (e, y) ∧ w = .event (.picotArrival pid n y k)) ∧
  (∀ (pid n k : Nat) (cut : List Element) (s : State),
    ((∃ e ∈ elementsOf s pid n, elementTile e = some k ∧ e ∉ cut) → sendMeshPicots s pid n k cut = s) ∧
    ((∀ e ∈ elementsOf s pid n, elementTile e = some k → e ∈ cut) →
      .event (.picotArrival pid n (.router k) homeInput) ∈ (sendMeshPicots s pid n k cut).agenda ∧
      ∀ d vc, (tabFind s.triples (32 * (4096 * k + d) + vc)).isSome → d < 4096 → vc < 32 → d ≠ k → d ∈ occupied s pid n →
        ∃ v f, (v, f) ∈ (sendMeshPicots s pid n k cut).travels ∧ f.flit.src = k ∧ f.flit.dst = d ∧ f.flit.vc = vc ∧
          f.flit.body = .picot)) ∧
  (∀ (k m : Nat) (s : State),
    ((s.thread k m).st = .running ∨ (s.thread k m).st = .waiting .retry ∨ (s.thread k m).st = .waiting .yield →
      (elementReady s (.thread k m) = true ↔ (s.tile k).stopped = true ∨ (s.ccnt k).toNat % 8 = m % 8)) ∧
    ((s.thread k m).st = .waiting .reply → elementReady s (.thread k m) = false) ∧
    (elementReady s (.dprog k) = true ↔ (s.chan k).waiting.isSome ∨ (s.chan k).ended = true ∨ (s.chan k).halted = true) ∧
    (elementReady s (.stream k m) = true ↔ ((s.tile k).stream m).asked = false ∨
      ((s.tile k).stream m).fetched.isSome ∧ (s.tile k).stopped = true) ∧
    elementReady s (.region k) = true ∧ elementReady s (.matrix k) = true ∧ elementReady s (.transmitter k) = true) ∧
  ∀ (pid n : Nat) (s : State),
    let l := s.launch pid n
    let p := s.part pid
    (l.cutting = none → Completes (.cutSlot pid n) s (Same s) ∧ Completes (.cutComplete pid n) s (Same s) ∧
      ∀ e k, Completes (.elementCut pid n e) s (Same s) ∧ Completes (.picotArrival pid n e k) s (Same s)) ∧
    (∀ c, l.cutting = some c →
      (s.gslot < c.slot → Completes (.cutComplete pid n) s (Same s) ∧
        Completes (.cutSlot pid n) s (Same (s.after (8 * (c.slot - s.gslot)) (.cutSlot pid n)))) ∧
      (c.slot ≤ s.gslot → Completes (.cutSlot pid n) s (Same { s with
        chans := s.chans.map (fun e => (e.1, if e.2.launch = some (pid, n) then { e.2 with held := true } else e.2))
        agenda := s.agenda ++ (elementsOf s pid n).map (fun e => .event (.elementCut pid n e))
        timers := s.timers ++ [(s.cycle + 1, .event (.cutComplete pid n))] })) ∧
      (∀ e, (e ∈ c.elements → Completes (.elementCut pid n e) s (Same s)) ∧
        (e ∉ c.elements → elementReady s e = false →
          Completes (.elementCut pid n e) s (Same (s.after 1 (.elementCut pid n e)))) ∧
        (e ∉ c.elements → elementReady s e = true → Completes (.elementCut pid n e) s (Same (cutElement s pid n e))) ∧
        ∀ k, let u := s.setLaunch pid n { l with cutting := some { c with picots := c.picots ++ [(e, k)] } }
          let tile := fun a => ((List.range 8).map (Element.thread a) ++ (List.range 16).map (Element.stream a)) ++ [.matrix a, .router a]
          let reached := match e with | .router a => if k < 4096 then tile a else [e] | _ => [e]
          Completes (.picotArrival pid n e k) s (Same (reached.foldl (fun t e => cutElement t pid n e) u))) ∧
      (c.slot ≤ s.gslot →
        let whole := (∀ e ∈ elementsOf s pid n, e ∈ c.elements) ∧ picotsIn s pid n c = true ∧ settled s pid n = true
        let v := if c.complete then c else saveCut s pid n c
        let w := s.setLaunch pid n { l with cutting := some v }
        let u := if c.complete then s else saveTraffic w pid n true
        let out := (u.launch pid n).saveOut
        let saved := out = 0 ∧ ∀ e ∈ c.group, ∀ d, (u.launch e.1 e.2).cutting = some d →
          d.complete = true ∧ (u.launch e.1 e.2).saveOut = 0
        (c.complete = false → v.complete = true ∧ v.barriers = l.barriers ∧ v.arcs = l.arcs ∧ v.calls = l.calls ∧
          v.group = c.group ∧ (∃ k, u.launch pid n = { l with cutting := some v, saveOut := l.saveOut + k }) ∧ (∀ k ∈ occupied s pid n, let x := s.tile k
            ∃ y, tabFind v.tiles k = some y ∧ y.core = x.core ∧ y.store = x.store ∧ y.engines = x.eng ∧ y.mem = x.mem ∧
              y.matrix = x.matrix ∧ y.bobbin = x.bobbin ∧ y.sent = x.sent ∧ y.received = x.received ∧ y.ccnt = s.ccnt k ∧
              ∀ f ∈ x.edge, f ∈ y.edge)) ∧
        (c.complete = false → ¬ whole → Completes (.cutComplete pid n) s (Same (s.after 1 (.cutComplete pid n)))) ∧
        (c.complete = true ∨ whole → ¬ saved → Completes (.cutComplete pid n) s (Same (u.after 1 (.cutComplete pid n)))) ∧
        (c.complete = true ∨ whole → saved → l.heldEvents = [] → l.heldPackets = [] → Completes (.cutComplete pid n) s (fun t =>
          (t.launch pid n).cuts = [v] ∧ (t.launch pid n).cutting = none ∧
          (evlogEn p.evlog = true → ∃ r more, (t.part pid).records = more ++ r :: p.records ∧ r.typ = 0x0D ∧ r.cause = 0x11 ∧
            r.sub = (if c.kind = .snapshot then 2 else 1) ∧ r.lnum = n ∧
            r.data = natBytes 4 c.number ++ [0, 0, 0, 0] ++ natBytes 8 c.slot ++ natBytes 8 0) ∧
          (c.kind = .snapshot → (t.launch pid n).phase = l.phase) ∧
          (c.kind ≠ .snapshot →
            (t.launch pid n).phase = .held ∧ (t.launch pid n).cause = 0x11 ∧ ((t.part pid).queue l.queue).held = true ∧
            .event (.dispatch pid) ∈ t.agenda ∧ (c.kind = .suspend → .event .suspendComplete ∈ t.agenda) ∧
            ∀ k ∈ occupied s pid n, (t.tile k).place = none ∧ ∀ m, ((t.tile k).thread m).st = .halted))))) ∧
    (p.snapi = 0 ∨ (l.phase ≠ .live ∧ l.phase ≠ .held) → Completes (.snapshotInterval pid n) s (Same s)) ∧
    (p.snapi ≠ 0 → l.phase = .live ∨ l.phase = .held → s.gslot < l.snapAt → Completes (.snapshotInterval pid n) s
      (Same (s.after (8 * (l.snapAt - s.gslot)) (.snapshotInterval pid n)))) ∧
    (p.snapi ≠ 0 → l.snapAt ≤ s.gslot →
      let m := { l with snapAt := l.snapAt + 2 ^ (p.snapi + 10) }
      let next := (s.setLaunch pid n m).after (8 * 2 ^ (p.snapi + 10)) (.snapshotInterval pid n)
      (l.phase = .held → Completes (.snapshotInterval pid n) s (Same next)) ∧
      (l.phase = .live →
        (l.cutting = none → cutGroup next pid n = [] → let k := (s.gslot + 512 + 63) / 64 * 64
          Completes (.snapshotInterval pid n) s (LaunchBecomes (next.after (8 * (k - s.gslot)) (.cutSlot pid n)) pid n
            { m with cutting := some (Cut.begun l.nextCut k .snapshot []), nextCut := l.nextCut + 1 })) ∧
        (∀ c, l.cutting = some c → c.kind ≠ .snapshot → c.group = [] → Completes (.snapshotInterval pid n) s (Same next)) ∧
        Completes (.snapshotInterval pid n) s (Same (startCut (abandonCut next pid n) pid n .snapshot)) ∧
        (∀ c, l.cutting = some c → c.kind = .snapshot → Completes (.snapshotInterval pid n) s (fun t =>
          (evlogEn p.evlog = true → ∃ r more, (t.part pid).records = more ++ r :: p.records ∧ r.typ = 0x0D ∧ r.sub = 4 ∧
            bytesNat (r.data.take 4) = c.number % 2 ^ 32))))) ∧
    (imageOf s pid n = none ∨ l.cuts = [] ∨ l.restoring = false ∨ l.phase ≠ .starting →
      Completes (.restore pid n) s (Same s)) ∧
    (∀ i c r, imageOf s pid n = some i → l.cuts = c :: r → l.restoring = true → l.phase = .starting →
      Completes (.restore pid n) s (fun t =>
        t.launch pid n = { l with arcs := c.arcs, calls := c.calls, barriers := c.barriers } ∧
        (∀ k x, (k, x) ∈ c.txs → (∀ y, (k, y) ∈ c.txs → y = x) → t.tx k = { s.tx k with
          sends := x.sends, retained := x.retained, held := true, runs := []
          phi := if x.entries = [] then 0 else (x.next - x.s0 + x.phi) % x.entries.length }) ∧
        (∀ k x, (k, x) ∈ c.tiles → (∀ y, (k, y) ∈ c.tiles → y = x) → let y := s.tile k
          t.tile k = { y with
            core := { x.core with imem := y.core.imem, tvec := y.core.tvec, mtvec := y.core.mtvec }, store := x.store
            eng := x.engines, mem := { x.mem with preds := y.mem.preds }, matrix := { x.matrix with held := true }
            bobbin := x.bobbin, sent := x.sent, received := x.received, ccntOff := x.ccnt, edge := x.edge
            stopped := true }) ∧
        (∀ k, (∀ x, (k, x) ∉ c.tiles) → t.tile k = s.tile k) ∧
        (∀ k x, (k, x) ∈ c.regions → (∀ y, (k, y) ∈ c.regions → y = x) → t.region k = { x with held := true }) ∧
        (∀ k x, (k, x) ∈ c.pes → (∀ y, (k, y) ∈ c.pes → y = x) → t.pe k = x) ∧
        (∀ k x, (k, x) ∈ c.nodes → (∀ y, (k, y) ∈ c.nodes → y = x) → t.node k = x) ∧
        ∀ k x, (k, x) ∈ c.triples → (∀ y, (k, y) ∈ c.triples → y = x) → t.triple k = x)) ∧
    ∀ (sub : Nat),
      let runs := fun P => Completes (.rollback pid n sub) s P
      let stopped := fun (back again : Bool) (t : State) =>
        (t.launch pid n).phase = .held ∧ (t.launch pid n).cause = 0x0E ∧ (t.launch pid n).restoring = back ∧
        (l.queue < 64 → ((t.part pid).queue l.queue).held = true) ∧ (∀ k ∈ launchTiles s pid n, (t.tile k).stopped = true) ∧
        (again = true → (s.cycle + 1, .event (.rollback pid n sub)) ∈ t.timers) ∧
        (evlogEn p.evlog = true → ∃ r more, (t.part pid).records = more ++ r :: p.records ∧ r.typ = 0x0A ∧ r.cause = 0x0E ∧
          r.sub = sub ∧ r.lnum = n)
      let waits := l.phase = .held ∧ l.restoring = true ∧ l.cause = 0x0E
      let strikes := l.phase = .live ∨ l.phase = .held ∧ l.cause ≠ 0x11 ∧ l.cause ≠ 0x0E
      (∀ c r, waits → l.cuts = c :: r → c.full = false →
        (groupSettled s pid n c = false → runs (Same (s.after 1 (.rollback pid n sub)))) ∧
        (groupSettled s pid n c = true → runs (fun t =>
          (∃ k, t.launch pid n = { l with
            saveOut := k, phase := .configuring, restoring := true, cause := 0, cutting := none, heldEvents := [], heldPackets := []
            cuts := [{ c with undo := [], full := false }] }) ∧
          (∃ d, (d, .event (.configurationComplete pid n)) ∈ t.timers) ∧ ((t.part pid).queue l.queue).held = false ∧
          (evlogEn p.evlog = true → ∃ r more, (t.part pid).records = more ++ r :: p.records ∧ r.typ = 0x0D ∧ r.sub = 3 ∧
            bytesNat (r.data.take 4) = c.number % 2 ^ 32) ∧
          ∀ v, c.undo = [v] → ∃ w, tabFind (t.part pid).lines v.tag.toNat = some w ∧ w.data = v.line.data ∧
            w.sidecar = v.line.sidecar ∧ w.dirty = (v.line.dirty || v.stale)))) ∧
      (waits → (l.cuts = [] ∨ ∃ c r, l.cuts = c :: r ∧ c.full = true) → runs (Same s)) ∧
      (¬ waits → ¬ strikes → runs (Same s)) ∧
      (¬ waits → strikes → (l.cuts = [] ∨ ∃ c r, l.cuts = c :: r ∧ c.full = true) → runs (stopped l.restoring false)) ∧
      (∀ c r, ¬ waits → strikes → l.cuts = c :: r → c.full = false → c.group = [] → runs (stopped true true)) ∧
      ∀ c r, ¬ waits → strikes → l.cuts = c :: r → c.full = false →
        let g := (pid, n) :: rolledWith (damageRecord s pid n sub) c
        runs (Same (g.foldl (fun t e => t.after 1 (.rollback e.1 e.2 sub))
          (g.foldl (fun t e => stopForRollback t e.1 e.2) (damageRecord s pid n sub))))

/-- R117, R118, R388, R390, R391, R394 to R398, R401 to R405; the skews, the sync error and a notice's spare are free (log 14). -/
def Obligations.Eyelets : Prop :=
  ∀ (e : Nat) (s : State),
    let x := s.eyelet e
    let d := x.tx
    let r := x.rx
    let tx := fun (d : LinkDir) => EyeletBecomes s e { x with tx := d }
    let asks := fun (c : EyeletFlit) (y : LinkDir) => EyeletBecomes s e { x with rx := y, tx := { d with queue := d.queue ++ [c] } }
    let before := fun (q : BitVec 24) (l : List EyeletFlit) => l.filter (fun f => !seqBefore f.seq q)
    -- flits, acknowledgement, replay
    (∀ g : EyeletFlit, crcGood (receivedWord g []) = true ∧ wordFlit (receivedWord g []) = g) ∧
    (∀ (g : EyeletFlit) (damage : List Nat),
      let word := receivedWord g damage
      let f := wordFlit word
      let bad := crc32c (word.toNat % 2 ^ 288) 36 ≠ word.extractLsb' 288 32 ∨ flitFormOk f = false
      let runs := fun P => Completes (.eyeletFlitReceive e g damage) s P
      let dropped := bad ∨ (sequenced f.cls = true ∧ f.seq ≠ r.expected)
      (dropped → r.requested = true → runs (Same s)) ∧
      (dropped → r.requested = false → runs (asks (controlFlit 1 r.expected.toNat 0 0) { r with requested := true })) ∧
      (¬ bad → sequenced f.cls = true → f.seq = r.expected →
        let u := s.modRx e (fun d => { d with
          expected := d.expected + 1, requested := false, sinceAck := if d.sinceAck = 63 then 0 else d.sinceAck + 1 })
        let v := if r.sinceAck = 63 then eyeletQueue u e (controlFlit 0 f.seq.toNat 0 0) else u
        let sender := x.peer.getD 256
        let tag := f.tag.toNat
        (f.cls = 2 → runs (Same (v.event (.copyHeader e tag sender (payloadAt f 0 25) (payloadAt f 25 12) (payloadAt f 37 24)
          (payloadAt f 64 32))))) ∧
        (f.cls = 3 → runs (Same (v.event (.copyData e tag sender (natBytes 32 f.payload.toNat))))) ∧
        (f.cls = 5 → runs (Same (v.event (.copyDone e tag sender (payloadAt f 0 32) (payloadAt f 32 8))))) ∧
        (f.cls = 1 →
          let had := if payloadAt f 245 3 = 0 then [] else tabGet [] r.partialTokens tag
          let bytes := if payloadAt f 249 3 = 7 then [] else had ++ natBytes (payloadAt f 240 5 + 1) f.payload.toNat
          (payloadAt f 248 1 ≠ 1 → runs (Same (v.modRx e (fun d => { d with partialTokens := tabPut d.partialTokens tag bytes })))) ∧
          (payloadAt f 248 1 = 1 → runs (Same ((v.modRx e (fun d => { d with
            partialTokens := tabDel d.partialTokens tag })).event (.edgeTokenArrival e tag sender
              (bytes.take (if payloadAt f 249 3 = 7 then 0 else 4 * 2 ^ payloadAt f 249 3)))))))) ∧
      (¬ bad → f.cls = 4 →
        (payloadAt f 0 8 = 0 → runs (Same (s.event (.eyeletAcknowledgement e (payloadAt f 8 24))))) ∧
        (payloadAt f 0 8 = 1 → runs (Same (s.event (.replayRequest e (payloadAt f 8 24))))) ∧
        (payloadAt f 0 8 = 2 → runs (fun t => ∃ c : LaneChange, t = s.nextFree.event (.laneChangeNotice e c) ∧
          c.mask = BitVec.ofNat 16 (payloadAt f 32 16) ∧ c.z = payloadAt f 48 64)) ∧
        (payloadAt f 0 8 = 3 → runs (Same (s.event (.haltNotice (payloadAt f 48 64))))) ∧
        (payloadAt f 0 8 = 4 → (x.peer = none → runs (Same s)) ∧ ∀ m, x.peer = some m →
          let h := { s.halt with
            reports := setInsert s.halt.reports m, lastReport := max s.halt.lastReport (s.cycle - x.delay / 40) }
          let u := { s with halt := h }
          let all := h.reported = true ∧ (∀ k ∈ domainModules s, k ∈ h.reports) ∧ ∀ w ∈ s.timers, w.2 ≠ .event .haltClear
          (all → runs (Same (u.after (h.lastReport + 1024 - s.cycle) .haltClear))) ∧ (¬ all → runs (Same u)))) ∧
      (¬ bad → f.cls = 6 → runs (fun t => ∃ err, t = s.nextFree.event (.syncFrame (payloadAt f 64 8) (payloadAt f 0 64) err))) ∧
      (¬ bad → f.cls = 0 → runs (Same s))) ∧
    (∀ q : Nat, let k : BitVec 24 := BitVec.ofNat 24 q
      Completes (.eyeletAcknowledgement e q) s (tx { d with
        heldFlits := before (k + 1) d.heldFlits, resend := before (k + 1) d.resend, heard := s.cycle }) ∧
      Completes (.replayRequest e q) s (tx { d with
        heldFlits := before k d.heldFlits, resend := before k d.heldFlits, heard := s.cycle })) ∧
    (d.heldFlits = [] ∨ s.cycle < d.heard + 25600 → Completes (.replayTimeout e) s (Same s)) ∧
    (d.heldFlits ≠ [] → d.heard + 25600 ≤ s.cycle →
      Completes (.replayTimeout e) s (tx { d with resend := d.heldFlits, heard := s.cycle })) ∧
    -- the edge switch
    (d.lst = 0 ∨ d.lst = 1 → Completes (.edgeSwitchSlot e) s (Same s)) ∧
    (d.lst ≠ 0 → d.lst ≠ 1 → d.queue = [] → d.resend = [] →
      x.tree = false ∨ s.gslot % 2 ^ 16 ≠ 0 ∨ s.halt.active = true → Completes (.edgeSwitchSlot e) s (Same s)) ∧
    (∀ f : EyeletFlit, d.lst ≠ 0 → d.lst ≠ 1 → d.resend = [] → d.stopped = false → d.queue = [f] → d.heldFlits.length < 8192 →
      x.tree = false → f.cls = 2 ∨ f.cls = 3 ∨ f.cls = 5 → Completes (.edgeSwitchSlot e) s (tx { d with
        queue := [], seq := d.seq + 1, heldFlits := d.heldFlits ++ [{ f with seq := d.seq }]
        out := { f with seq := d.seq } :: d.out, heard := if d.heldFlits.isEmpty then s.cycle else d.heard })) ∧
    -- tags, tokens and copies
    (∀ (tag sender : Nat),
      let named := fun (p : Nat) => eyeletOwner s e = some p ∧ edgeValid (edgeEntry (s.part p) tag) = true ∧
        (edgeEntry (s.part p) tag).toNat / 2 ^ 32 % 256 = sender
      let missed := fun (t : State) =>
        (eyeletOwner s e = none → t = s) ∧
        (∀ p, eyeletOwner s e = some p → t = post (s.setPart p { s.part p with edgeMisses := (s.part p).edgeMisses + 1 }) p
          0x06 0 0 3 e 0xFF 0 (natBytes 2 e ++ natBytes 1 tag ++ [0, 0, 0, 0, 0] ++ natBytes 8 ((s.part p).edgeMisses + 1)))
      (∀ token, ((∀ p, ¬ named p) → Completes (.edgeTokenArrival e tag sender token) s missed) ∧
        (∀ p, named p → let here := s.nodes.filter (fun n => pidOf s (n.1 / 4096) == p)
          ((∀ n ∈ here, 4096 + tag ∉ n.2.children ∧ n.2.parent ≠ some (4096 + tag)) →
            Completes (.edgeTokenArrival e tag sender token) s
              (EyeletBecomes s e { x with arrived := (tag, token) :: x.arrived })) ∧
          (∀ k n, here = [(k, n)] → 4096 + tag ∈ n.children → Completes (.edgeTokenArrival e tag sender token) s
            (Same (contributeTree (s.modTile (k / 4096) (fun y => { y with received := y.received + 1 })) (k / 4096) (k % 4096)
              (4096 + tag) false n.op (BitVec.ofNat 1024 (bytesNat token))))))) ∧
      (∀ off tile len id, ((∀ p, ¬ named p) → Completes (.copyHeader e tag sender off tile len id) s missed) ∧
        (∀ p, named p → let reply := (edgeEntry (s.part p) tag).toNat / 2 ^ 40 % 32
          (copyTarget s p tag off tile len = none → Completes (.copyHeader e tag sender off tile len id) s
            (asks (doneFlit reply id 1) { r with
              copies := if len = 0 then tabDel r.copies tag else tabPut r.copies tag (4096, off, len, id) })) ∧
          (∀ u, copyTarget s p tag off tile len = some u →
            (len = 0 → Completes (.copyHeader e tag sender off tile len id) s
              (asks (doneFlit reply id 0) { r with copies := tabDel r.copies tag })) ∧
            (len ≠ 0 → Completes (.copyHeader e tag sender off tile len id) s
              (EyeletBecomes s e { x with rx := { r with copies := tabPut r.copies tag (u, off, len, id) } }))))) ∧
      (∀ data, ((∀ p, ¬ named p) → Completes (.copyData e tag sender data) s missed) ∧
        (∀ p, named p →
          (tabFind r.copies tag = none → Completes (.copyData e tag sender data) s (Same s)) ∧
          (∀ v k, tabFind r.copies tag = some v → dataWaits s e tag = some k →
            Completes (.copyData e tag sender data) s (Same (s.after (k - s.cycle) (.copyData e tag sender data)))) ∧
          (∀ u off left id, tabFind r.copies tag = some (u, off, left, id) → dataWaits s e tag = none →
            (u < 4096 → heldIn (s.tile u) off 32 = none → Completes (.copyData e tag sender data) s (fun t =>
              (∀ a, storeByte t u a = if off ≤ a ∧ a < off + data.length then data[a - off]?.getD 0 else storeByte s u a) ∧
              (∀ k, k ≠ u → t.tile k = s.tile k) ∧
              { t.tile u with store := (s.tile u).store } = s.tile u ∧ (t.tile u).store.full = (s.tile u).store.full ∧
              (1 < left → (t.eyelet e).rx = { r with copies := tabPut r.copies tag (u, off + 32, left - 1, id) } ∧
                (t.eyelet e).tx = d) ∧
              (left ≤ 1 → (t.eyelet e).rx = { r with copies := tabDel r.copies tag } ∧ (t.eyelet e).tx = { d with
                queue := d.queue ++ [doneFlit ((edgeEntry (s.part p) tag).toNat / 2 ^ 40 % 32) id 0] }) ∧
              { t with tiles := s.tiles, eyelets := s.eyelets } = s)) ∧
            (∀ k, u < 4096 → heldIn (s.tile u) off 32 = some k → Completes (.copyData e tag sender data) s
              (Same ((wakeBank s u k).after (wakeCycles u + 1) (.copyData e tag sender data)))) ∧
            (4096 ≤ u → Completes (.copyData e tag sender data) s (EyeletBecomes s e { x with rx := { r with
              copies := if left ≤ 1 then tabDel r.copies tag else tabPut r.copies tag (u, off + 32, left - 1, id) } }))))) ∧
      (∀ id status, ((∀ p, ¬ named p) → Completes (.copyDone e tag sender id status) s missed) ∧
        (∀ p, named p →
          (copySource s p e tag id = none → Completes (.copyDone e tag sender id status) s (Same s)) ∧
          (∀ u c l, copySource s p e tag id = some u → (s.tile u).eng.copies = c :: l →
            let ended := fun (v : State) => Same (beginCopy (postNumber
              (v.modTile u (fun y => { y with eng := { y.eng with copies := l } })) u c.cnum) u)
            (status = 0 → Completes (.copyDone e tag sender id status) s (ended s)) ∧
            (status ≠ 0 → Completes (.copyDone e tag sender id status) s
              (ended (reductionFault s u 5 2 c.thread c.dst.toNat c.len 0 0x06 0))))))) ∧
    -- lanes and light
    (let at_ := (s.gslot + 128 + 15) / 16 * 16
     let ready := r.spon = false ∧ 16 ∉ r.dark ∧ r.spblk = false ∧ x.spen = true ∧ r.pending = none
     let notice := fun (u : State) (c : LaneChange) (lst : BitVec 3) => u.setEyelet e { u.eyelet e with
       rx := { (u.eyelet e).rx with pending := some c, lst := lst }
       tx := { (u.eyelet e).tx with queue := (u.eyelet e).tx.queue ++ [controlFlit 2 (c.seq.getD 0) c.mask.toNat c.z] } }
     let sends := fun (u : State) (c : LaneChange) (lst : BitVec 3) =>
       (notice u c lst).after (8 * (c.z - u.gslot)) (.resumeSlotZ e .rx)
     let logged := fun (u : State) => { u with ctl := { u.ctl with linkLog := s.ctl.linkLog } }
     let without := fun (u : State) (P : State → Prop) => P (logged u)
     (∀ lane margin,
       (lane = 16 → Completes (.laneMarginal e lane margin) s
         (EyeletBecomes s e { x with rx := { r with smarg := BitVec.ofNat 8 margin } })) ∧
       (lane ≠ 16 → x.mthr.toNat ≤ margin ∨ lane ∈ r.dark ∨ lane ∈ r.training →
         Completes (.laneMarginal e lane margin) s (Same s)) ∧
       (lane ≠ 16 → margin < x.mthr.toNat → lane ∉ r.dark → lane ∉ r.training → r.marginal = [] →
         (¬ ready → Completes (.laneMarginal e lane margin) s
           (EyeletBecomes s e { x with rx := { r with marginal := [(lane, margin)] } })) ∧
         (ready → d.lst ≠ 0 → Completes (.laneMarginal e lane margin) s (fun t => without t (Same (sends
           (s.setEyelet e { x with rx := { r with training := r.training ++ [lane] } })
           ⟨dropLane r.act lane, some lane, none, at_⟩ 4)))))) ∧
     (∀ dark, let fresh := dark.filter (fun j => decide (j ≤ 16) && !r.dark.contains j)
       (fresh = [] → Completes (.lossOfLight e dark) s (Same s)) ∧
       (∀ j, j < 16 → fresh = [j] → r.dark = [] → d.lst ≠ 0 →
         let now := { r with
           dark := [j], training := r.training.filter (fun k => !fresh.contains k)
           marginal := r.marginal.filter (fun k => !fresh.contains k.1) }
         let u := s.setEyelet e { x with rx := now }
         (ready → Completes (.lossOfLight e dark) s (fun t => without t (Same
           ((sends u ⟨dropLane r.act j, some j, some r.expected.toNat, at_⟩ 3).after (8 * (at_ - s.gslot) + 80000)
             (.spareLockTimeout e))))) ∧
         (¬ ready → litLanes now ≠ 0 → Completes (.lossOfLight e dark) s (fun t => without t (Same
           (sends u ⟨litLanes now, none, some r.expected.toNat, at_⟩ 3)))))) ∧
     (∀ lane,
       (lane ∉ r.dark → Completes (.lightReturn e lane) s (Same s)) ∧
       (lane ∈ r.dark → let back := r.dark.filter (· != lane)
         (lane = 16 → Completes (.lightReturn e lane) s (EyeletBecomes s e { x with rx := { r with
           dark := back, spblk := if x.barUntil ≤ s.cycle then false else r.spblk } })) ∧
         (lane ≠ 16 → Completes (.lightReturn e lane) s (fun t => without t (EyeletBecomes s e { x with rx := { r with
           dark := back, training := r.training ++ [lane], lst := if r.lst = 0 then 1 else r.lst } })))) ∧
       (lane ∉ r.training → Completes (.laneTrained e lane) s (Same s)) ∧
       (lane ∈ r.training → d.lst ≠ 0 → r.pending = none → 1 < r.lst.toNat → Completes (.laneTrained e lane) s (fun t => without t
         (Same (sends (s.setEyelet e { x with rx := { r with training := r.training.filter (· != lane) } })
           ⟨addLane r.act lane, if r.spon ∧ r.spfor.toNat ≠ lane then some r.spfor.toNat else none, none, at_⟩ 2))))) ∧
     (∀ c : LaneChange, Completes (.laneChangeNotice e c) s (EyeletBecomes (s.after (8 * (c.z - s.gslot)) (.resumeSlotZ e .tx)) e
       { x with tx := { d with
         pending := some c, stopped := d.stopped || c.seq.isSome
         lst := if c.seq.isSome then 3 else if c.spareFor.isSome then 4 else 2 } })) ∧
     (∀ dir, (x.dir dir).pending = none → Completes (.resumeSlotZ e dir) s (Same s)) ∧
     (∀ dir c, (x.dir dir).pending = some c →
       (s.gslot < c.z → Completes (.resumeSlotZ e dir) s (Same (s.after (8 * (c.z - s.gslot)) (.resumeSlotZ e dir)))) ∧
       (c.z ≤ s.gslot → Completes (.resumeSlotZ e dir) s (fun t =>
         let y := (t.eyelet e).dir dir
         y.act = c.mask ∧ y.spon = c.spareFor.isSome ∧ (dir = .tx → y.pending = none) ∧
         (dir = .tx → ∀ q, c.seq = some q → y.resend = before (BitVec.ofNat 24 q) d.heldFlits) ∧
         (y.ft = 0 ∧ y.nfm1 = 0 ∨ 0 < activeLanes y ∧
           y.ft = BitVec.ofNat 9 ((320 + activeLanes y - 1) / activeLanes y))))) ∧
     (r.lst ≠ 3 ∨ r.spon = false → Completes (.spareLockTimeout e) s (Same s)) ∧
     (r.lst = 3 → r.spon = true → d.lst ≠ 0 → litLanes r ≠ 0 → Completes (.spareLockTimeout e) s (fun t => without t (Same
       ((sends (s.setEyelet e { x with barUntil := s.cycle + 1600000000, rx := { r with spblk := true } })
         ⟨litLanes r, none, some r.expected.toNat, at_⟩ 3).after 1600000000 (.spareBarExpiry e))))) ∧
     (x.barUntil ≤ s.cycle → Completes (.spareBarExpiry e) s
       (EyeletBecomes s e { x with rx := { r with spblk := r.dark.contains 16 } })) ∧
     (s.cycle < x.barUntil → Completes (.spareBarExpiry e) s (Same s)) ∧
     (let locked := if r.lst = 3 ∧ r.spon then { r with lst := 2, stopped := false } else r
      (¬ (d.lst = 3 ∧ d.spon = true ∧ d.pending = none) → Completes (.spareLock e) s (fun t => t.eyelet e = { x with rx := locked } ∧
        (∀ k, k ≠ e → t.eyelet k = s.eyelet k) ∧ { t with eyelets := s.eyelets } = s)) ∧
      (d.lst = 3 → d.spon = true → d.pending = none → let z := (s.gslot + 16) / 16 * 16
        Completes (.spareLock e) s (EyeletBecomes (s.after (8 * (z - s.gslot)) (.resumeSlotZ e .tx)) e { x with
          rx := locked, tx := { d with pending := some ⟨d.act, some d.spfor.toNat, none, z⟩ } })))) ∧
    -- sync frames and lasers
    (∀ (sender count : Nat) (err : Int),
      (s.number = 0 → Completes (.syncFrame sender count err) s (Same s)) ∧
      (s.number ≠ 0 → count = s.gslot → -128 ≤ err → err ≤ 128 →
        Completes (.syncFrame sender count err) s (Same { s with slotError := err })) ∧
      (s.number ≠ 0 → count ≠ s.gslot ∨ err < -128 ∨ 128 < err → Completes (.syncFrame sender count err) s (fun t =>
        t.slotError = err ∧ (s.halt.active = true ∨ t.halt.declared.isSome)))) ∧
    ∀ (slot : Nat),
      (slot ∈ s.ctl.lasersOut → Completes (.laserFault slot) s (Same s)) ∧
      (slot ∉ s.ctl.lasersOut → Completes (.laserFault slot) s (fun t => t.ctl.lasersOut = setInsert s.ctl.lasersOut slot ∧
        (slot < 2048 → ∀ k, k < 4 → 4 * (slot % 4) + k ∈ (t.eyelet (slot / 4)).tx.dark) ∧
        (2048 ≤ slot → ∀ k, k < 4 → let y := t.eyelet (4 * (slot - 2048) + k)
          16 ∈ y.tx.dark ∧ y.tx.spblk = true) ∧
        (∀ k, (∀ j, (k, j) ∉ fedLanes slot) → t.eyelet k = s.eyelet k) ∧
        { t with ctl := s.ctl, eyelets := s.eyelets } = s))

/-- R325, R326, R379, R383, R19, R411 to R419; digests and signatures are free (log 8). -/
def Obligations.Management : Prop :=
  ∀ (s : State),
    let answers := fun (i : Instr) (u : State) (code status : Nat) (data : List Nat) =>
      Completes i s (Same { u with ctl := { u.ctl with responses := (code, status, data) :: u.ctl.responses } })
    -- partitions and power allocation
    (∀ r : PartRecord, let p := s.part r.pid
      let old := if p.present then rectTiles p.x0 p.y0 p.w p.h else []
      let new := rectTiles r.x0 r.y0 r.w r.h
      let runs := fun (l : Launch) => livePhase l.phase = true ∧ ¬ (l.phase = .held ∧ l.cause = 0x11)
      ((∃ e ∈ p.launches, runs e.2) → answers (.partset r) s 1 1 []) ∧
      ((∀ e ∈ p.launches, ¬ runs e.2) →
        (partRecordOk s r = false → answers (.partset r) s 1 2 []) ∧
        (partRecordOk s r = true → Completes (.partset r) s (fun t =>
          (∃ l, t.ctl.responses = (1, 0, []) :: l) ∧
          (t.part r.pid).present = true ∧ (t.part r.pid).x0 = r.x0 ∧ (t.part r.pid).y0 = r.y0 ∧ (t.part r.pid).w = r.w ∧
          (t.part r.pid).h = r.h ∧ (t.part r.pid).channels = r.channels ∧ (t.part r.pid).eyelets = r.eyelets ∧
          (t.part r.pid).snapi = r.snapi ∧ (t.part r.pid).saveArea = r.saveArea ∧ (t.part r.pid).nextLaunch = 1 ∧
          (t.part r.pid).windowStart = s.gslot / 4096 * 4096 ∧
          (old ≠ new → (t.part r.pid).lines = []) ∧
          (old = new → t.tiles = s.tiles ∧ (t.part r.pid).lines = p.lines) ∧
          (old ≠ new → (∀ e ∈ p.lines, e.2.dirty = false) →
            (∀ u ∈ new, u ∉ old → (t.tile u).store.mem = [] ∧ (t.tile u).store.full = [] ∧ (t.tile u).core.imem = [] ∧
              (t.tile u).configured = none ∧ (t.tile u).matrix.acc = Vector.replicate 16 []) ∧
            ∀ u, u ∉ new ∨ u ∈ old → t.tile u = s.tile u)))) ∧
      (partRecordOk s r = true → r.pid < 64 ∧ 1 ≤ r.w ∧ 1 ≤ r.h ∧ r.x0 + r.w ≤ 64 ∧ r.y0 + r.h ≤ 64 ∧
        (∀ u ∈ new, (s.tile u).ctl.unavailable = false) ∧
        ∀ e ∈ s.parts, e.1 ≠ r.pid → e.2.present = true →
          (∀ u ∈ new, u ∉ rectTiles e.2.x0 e.2.y0 e.2.w e.2.h) ∧ (∀ c ∈ r.channels, c ∉ e.2.channels) ∧
          ∀ k ∈ r.eyelets, k ∉ e.2.eyelets)) ∧
    (∀ pid alloc, let sum := s.parts.foldl (fun n e => if e.1 = pid ∨ e.2.present = false then n else n + e.2.allocNext) alloc
      ((s.part pid).present = false ∨ 2300 < sum → answers (.palloc pid alloc) s 2 2 []) ∧
      ((s.part pid).present = true → sum ≤ 2300 →
        answers (.palloc pid alloc) (s.setPart pid { s.part pid with allocNext := alloc }) 2 0 [])) ∧
    -- suspend and resume
    (s.suspend ≠ .running → answers .suspend s 3 1 []) ∧
    (s.suspend = .running → incompleteLaunches s = [] → Completes .suspend s (fun t =>
      t.suspend = .suspending false s.gslot ∧ t.ctl.responses = (3, 0, []) :: s.ctl.responses ∧
      t.agenda = s.agenda ++ [.event .suspendComplete] ∧
      t.timers = s.timers ++ [(s.cycle + 7200000000, .event .suspendHaltTimeout)] ∧
      (∀ e, (tabFind s.eyelets e).isSome → ∃ f : EyeletFlit, f.cls = 4 ∧ f ∈ (t.eyelet e).tx.queue) ∧
      { t with suspend := s.suspend, ctl := s.ctl, agenda := s.agenda, timers := s.timers, eyelets := s.eyelets } = s)) ∧
    (s.suspend = .running → ∀ pid n l, incompleteLaunches s = [(pid, n)] → l = s.launch pid n → l.phase = .live →
      l.restoring = false → l.cutting = none → Completes .suspend s (fun t => let k := (s.gslot + 512 + 63) / 64 * 64
        (t.launch pid n).cutting = some (Cut.begun l.nextCut k .suspend []) ∧
        (s.cycle + 8 * (k - s.gslot), .event (.cutSlot pid n)) ∈ t.timers ∧
        (s.cycle + 8 * (k - s.gslot + 10000000), .event (.suspendDeadline pid n)) ∈ t.timers)) ∧
    (∀ again slot, s.suspend = .suspending again slot →
      (incompleteLaunches s = [] → (∀ e ∈ s.chans, e.2.keeper = true) →
        Completes .suspendComplete s (Same (if again then (powerDown s slot).event .resume else powerDown s slot))) ∧
      (incompleteLaunches s = [] → (∃ e ∈ s.chans, e.2.keeper = false) →
        Completes .suspendComplete s (Same (s.after 8 .suspendComplete))) ∧
      (s.halt.active = false → Completes .suspendHaltTimeout s (Same s)) ∧
      (s.halt.active = true → Completes .suspendHaltTimeout s
        (Same ((incompleteLaunches s).foldl (fun u e => giveUpCut u e.1 e.2) s))) ∧
      Completes .resume s (Same { s with suspend := .suspending true slot }) ∧
      ∀ pid n, let l := s.launch pid n
        (incomplete l = false → Completes (.suspendDeadline pid n) s (Same s)) ∧
        (incomplete l = true → ∀ c, l.cutting = some c →
          (s.gslot < c.slot + 10000000 → Completes (.suspendDeadline pid n) s
            (Same (s.after (8 * (c.slot + 10000000 - s.gslot)) (.suspendDeadline pid n)))) ∧
          (c.slot + 10000000 ≤ s.gslot → Completes (.suspendDeadline pid n) s (Same (giveUpCut s pid n))))) ∧
    ((∀ again slot, s.suspend ≠ .suspending again slot) → Completes .suspendComplete s (Same s) ∧
      Completes .suspendHaltTimeout s (Same s) ∧ ∀ pid n, Completes (.suspendDeadline pid n) s (Same s)) ∧
    (∀ pid n, let l := s.launch pid n
      let t := giveUpCut s pid n
      let waits := l.phase = .held ∧ l.restoring = true ∧ l.cause = 0x0E
      ((l.cuts = [] ∨ ∃ c r, l.cuts = c :: r ∧ c.full = true) → t = discardLaunch s pid n) ∧
      ∀ c r, l.cuts = c :: r → c.full = false →
        (¬ waits → (t.launch pid n).phase = .held ∧ (t.launch pid n).cause = 0x0E ∧ (t.launch pid n).restoring = true ∧
          (s.cycle + 1, .event (.suspendDeadline pid n)) ∈ t.timers) ∧
        (waits → settled s pid n = false → t = s.after 1 (.suspendDeadline pid n)) ∧
        (waits → settled s pid n = true → (t.launch pid n).phase = .held ∧ (t.launch pid n).cause = 0x11 ∧
          (t.launch pid n).cuts = [{ c with undo := [], full := false, kind := .suspend }] ∧
          ∀ k ∈ occupied s pid n, (t.tile k).place = none)) ∧
    (∀ slot, let t := powerDown s slot
      t.suspend = .suspended slot ∧ (∀ u, (tabFind s.tiles u).isSome → (t.tile u).ctl.ton = false ∧ (t.tile u).configured = none ∧
        (t.tile u).core = (s.tile u).core) ∧
      (∀ e, (tabFind s.eyelets e).isSome → (t.eyelet e).tx.lst = 0 ∧ (t.eyelet e).rx.lst = 0) ∧
      { t with suspend := s.suspend, tiles := s.tiles, chans := s.chans, eyelets := s.eyelets } = s) ∧
    (s.suspend = .running → answers .resume s 4 2 []) ∧
    (∀ slot, s.suspend = .suspended slot → Completes .resume s (fun t =>
      t.suspend = .running ∧ t.gslot = (slot / 2 ^ 16 + 1) * 2 ^ 16 ∧ (∃ l, t.ctl.responses = (4, 0, []) :: l) ∧
      (∀ u, (tabFind s.tiles u).isSome → (t.tile u).ctl.ton = true) ∧
      (∀ pid, (tabFind s.parts pid).isSome → (t.part pid).windowStart = t.gslot) ∧
      (∀ c, (tabFind s.chans c).isSome → (t.chan c).intervalHeld = false ∧
        ((s.chan c).selfRefresh = false → t.chan c = { s.chan c with intervalHeld := false, interval := s.mck })) ∧
      ∀ pid p n l, s.parts = [(pid, p)] → p.launches = [(n, l)] → restorable s pid n l = true →
        (t.launch pid n).restoring = true ∧ ((t.part pid).queue l.queue).held = false ∧ .event (.dispatch pid) ∈ t.agenda)) ∧
    -- firmware, attestation and the link log
    (∀ (b : FwBlock) (image : List Byte) (svn : Nat), let f := s.ctl.block b
      (Config.signatureVerifies image = false ∨ svn < f.minSvn → answers (.fwstage b image svn) s 5 2 []) ∧
      (Config.signatureVerifies image = true → f.minSvn ≤ svn → answers (.fwstage b image svn) { s with
        ctl := s.ctl.setBlock b (if f.bankB then { f with imageA := image, svnA := svn, staged := true }
          else { f with imageB := image, svnB := svn, staged := true }) } 5 0 []) ∧
      (f.staged = false → answers (.fwact b) s 6 2 []) ∧
      (f.staged = true → b ∉ s.ctl.activating →
        Completes (.fwact b) s (Same { s with ctl := { s.ctl with activating := s.ctl.activating ++ [b] } })) ∧
      (f.staged = true → b ∈ s.ctl.activating → Completes (.fwact b) s (Same s)) ∧
      ∀ ok,
        (b ∉ s.ctl.activating → Completes (.firmwareActivation b ok) s (Same s)) ∧
        (b ∈ s.ctl.activating → quietPoint s b = false →
          Completes (.firmwareActivation b ok) s (Same (s.after 1 (.firmwareActivation b ok)))) ∧
        (b ∈ s.ctl.activating → quietPoint s b = true → b ≠ .eyelets ∨ s.eyelets = [] → s.ctl.downEyelet = none →
          Completes (.firmwareActivation b ok) s (fun t => let g := t.ctl.block b
            g.staged = false ∧ g.bankB = (if ok then !f.bankB else f.bankB) ∧ g.imageA = f.imageA ∧ g.imageB = f.imageB ∧
            t.ctl.responses = (6, if ok then 0 else 3, []) :: s.ctl.responses ∧
            t.ctl.activating = s.ctl.activating.erase b ∧
            (ok = true → t.ctl.measurements[blockIndex b]? = some (Config.sha384 (if f.bankB then f.imageA else f.imageB))) ∧
            (ok = false → t.ctl.measurements = s.ctl.measurements) ∧ { t with ctl := s.ctl } = s))) ∧
    (∀ nonce, let m := s.ctl.measurements.toList
      Completes (.spdmRequest nonce) s (Same { s with
        ctl := { s.ctl with signatures := (m, Config.spdmSignature m nonce) :: s.ctl.signatures } })) ∧
    (∀ first count, answers (.llog first count) s 11 0
      (((s.ctl.linkLog.filter (fun r => decide (first ≤ r.seq) && decide (r.seq < first + count))).reverse.flatMap
        recordBytes).map (·.toNat))) ∧
    (∀ e, (tabFind s.eyelets e = none → ∀ op, answers (.ereg e op) s 10 2 []) ∧
      (∀ x, tabFind s.eyelets e = some x →
        (∀ v, answers (.ereg e (.writeEcfg v)) (s.setEyelet e { x with mthr := v.truncate 8, spen := v.getLsbD 8 }) 10 0 []) ∧
        ∀ dir, let d := x.dir dir
          answers (.ereg e (.readEstat dir)) s 10 0 [d.act.toNat + 2 ^ 16 * boolNat d.spon + 2 ^ 17 * d.spfor.toNat +
            2 ^ 21 * boolNat d.spblk + 2 ^ 22 * d.lst.toNat + 2 ^ 25 * d.ft.toNat + 2 ^ 34 * d.nfm1.toNat +
            2 ^ 38 * d.smarg.toNat])) ∧
    (∀ slot, let out := slot ∈ s.ctl.lasersOut
      (out → answers (.laser slot false) s 9 0 [] ∧ Completes (.laser slot true) s (fun t =>
        t.ctl.lasersOut = setErase s.ctl.lasersOut slot ∧
        ∀ e j, (e, j) ∈ fedLanes slot → j ∉ (t.eyelet e).tx.dark)) ∧
      (¬ out → answers (.laser slot true) s 9 0 [] ∧ Completes (.laser slot false) s (fun t =>
        t.ctl.lasersOut = setInsert s.ctl.lasersOut slot ∧ ∀ e j, (e, j) ∈ fedLanes slot → j ∈ (t.eyelet e).tx.dark))) ∧
    -- scrubbing, bus tests and retirement
    (∀ c : ConfigStore,
      let runs := fun d P => Completes (.scrubPass c d) s P
      let again := fun d entry => runs d (fun t => ∃ k, 0 < k ∧
        t = ({ s with reloading := s.reloading ++ [c] }.nextFree).after k (.scrubPass c (.rewritten entry)))
      let done := { s with reloading := s.reloading.erase c }
      (signatureWrong s c = false → runs .none (Same s)) ∧
      (signatureWrong s c = true → c ∉ s.reloading → again .none 0) ∧
      ∀ entry,
        (slotDriven c = true ∨ storeOwner s c = none → runs (.word entry) (Same s)) ∧
        (slotDriven c = false → (storeOwner s c).isSome → c ∉ s.reloading → again (.word entry) entry) ∧
        (c ∉ s.reloading → runs (.rewritten entry) (Same s)) ∧
        (∀ pid n k src, c ∈ s.reloading → storeOwner s c = some (pid, n, k, src) → runs (.rewritten entry) (Same (post done pid 0x0B
          0x0F 1 k src (launchQueue s pid n) n (natBytes 1 (storeKind s c).1 ++ [0] ++ natBytes 2 (storeKind s c).2 ++
            [0, 0, 0, 0] ++ natBytes 8 entry)))) ∧
        (c ∈ s.reloading → storeOwner s c = none → runs (.rewritten entry) (Same done)) ∧
        ((∀ ch, c ≠ .commands ch) ∨ storeLaunches s c = [] → runs (.lost entry)
          (Same { done with agenda := s.agenda ++ (storeLaunches s c).map (fun e => .event (.rollback e.1 e.2 5)) })) ∧
        (∀ ch e, c = .commands ch → storeLaunches s c = [e] → runs (.lost entry) (fun t => (t.chan ch).halted = true ∧
          .event (.rollback e.1 e.2 5) ∈ t.agenda))) ∧
    (∀ tile bus, let x := s.tile tile
      let tests := fun l => TileBecomes s tile { x with ctl := { x.ctl with busTests := l } }
      let rest := x.ctl.busTests.filter (fun e => e.1 != bus)
      let free := x.place = none ∨ ∃ pl, x.place = some pl ∧ (s.launch pl.pid pl.lnum).elastic = true
      (free → Completes (.verticalBusTest tile bus .start) s (tests ((bus, false) :: rest))) ∧
      (¬ free → Completes (.verticalBusTest tile bus .start) s (Same s)) ∧
      Completes (.verticalBusTest tile bus .beat) s (Same s) ∧
      Completes (.verticalBusTest tile bus .demand) s (tests (x.ctl.busTests.map (fun e => if e.1 = bus then (bus, true) else e))) ∧
      (∀ ok, (∀ e ∈ x.ctl.busTests, e.1 ≠ bus) → Completes (.verticalBusTest tile bus (.finish ok)) s (Same s)) ∧
      (∀ ok b r, x.ctl.busTests = (bus, b) :: r →
        (b = true → Completes (.verticalBusTest tile bus (.finish ok)) s (tests (if free then (bus, false) :: rest else (bus, true) :: rest))) ∧
        (ok = true → b = false → Completes (.verticalBusTest tile bus (.finish ok)) s (tests rest)) ∧
        (ok = false → b = false → Completes (.verticalBusTest tile bus (.finish ok)) s (TileBecomes
          (s.event (.tileRetirement tile)) tile { x with ctl := { x.ctl with busTests := rest, retire := true } }))) ∧
      (x.ctl.retire = false → Completes (.tileRetirement tile) s (Same s)) ∧
      (x.ctl.retire = true →
        (x.place.isSome → Completes (.tileRetirement tile) s (Same (s.after 1 (.tileRetirement tile)))) ∧
        (x.place = none → Completes (.tileRetirement tile) s
          (TileBecomes s tile { x with ctl := { x.ctl with unavailable := true } }))) ∧
      Completes (.tretire tile) s (fun t => t.ctl.responses = (7, 0, []) :: s.ctl.responses ∧
        TileBecomes { s with ctl := t.ctl, agenda := s.agenda ++ [.event (.tileRetirement tile)] } tile
          { x with ctl := { x.ctl with retire := true } } t ∧
        { t.ctl with responses := s.ctl.responses, measurements := s.ctl.measurements } = s.ctl)) ∧
    (∀ stack, let ownedBy := ∃ e ∈ s.parts, e.2.present = true ∧ ∃ c ∈ e.2.channels, c / 32 = stack
      (ownedBy → answers (.sretire stack) s 8 1 []) ∧
      (¬ ownedBy → Completes (.sretire stack) s (fun t => t.ctl.responses = (8, 0, []) :: s.ctl.responses ∧
        t.ctl.retiredStacks = setInsert s.ctl.retiredStacks stack ∧ { t with ctl := s.ctl } = s))) ∧
    -- bring-up
    (let t := restarted s
     t.ctl.flash = s.ctl.flash ∧ t.ctl.boot = s.ctl.boot ∧ t.ctl.blocks = s.ctl.blocks ∧
     t.ctl.measurements = s.ctl.measurements ∧ t.ctl.retiredStacks = s.ctl.retiredStacks ∧ t.host = s.host ∧ t.cycle = s.cycle ∧
     t.parts = State.reset.parts ∧ t.chans = State.reset.chans ∧ t.eyelets = State.reset.eyelets ∧
     t.agenda = State.reset.agenda ∧
     (∀ u, (s.tile u).ctl.retire = true → (t.tile u).ctl.retire = true ∧ (t.tile u).ctl.unavailable = true)) ∧
    ∀ r : BringUpReport,
      Completes (.bringUp r) s (fun t => t.ctl.boot = s.ctl.boot + 1 ∧ ∃ k, k ≤ 8 ∧ t.ctl.flash.length = s.ctl.flash.length + k) ∧
      (s.ctl.flash = [] → r.hung = [] → r.failed = [] → Completes (.bringUp r) s (fun t =>
        t.ctl.flash = [8, 7, 6, 5, 4, 3, 2, 1].map (fun k => ⟨s.ctl.boot + 1, k, 1, some true⟩) ∧ t.ctl.outOfService = none ∧
        t.number = r.number ∧ (∀ u ∈ r.repairTiles, (t.tile u).ctl.unavailable = true) ∧
        (∀ u ∈ r.silentRouters, (t.tile u).ctl.forwards = false) ∧ (∀ k ∈ r.slowStacks, k ∈ t.ctl.retiredStacks) ∧
        ∀ e m w, (e, m, w) ∈ r.eyelets → (∀ y, (e, y) ∈ r.eyelets → y = (m, w)) →
          (w ≤ 64 * 320 → (t.eyelet e).peer = some m ∧ (t.eyelet e).delay = w ∧
            (∀ v, tabFind r.margins e = some v → (t.eyelet e).mthr = BitVec.ofNat 8 v)) ∧
          (64 * 320 < w → s.ctl.boot = 0 → t.eyelet e = s.eyelet e))) ∧
      (∀ d a, r.defaults = [(d, a)] → s.ctl.boot = 0 → s.ctl.flash = [] → s.parts = [] → r.hung = [] → r.failed = [] →
        partRecordOk s d = true → (∀ u ∈ rectTiles d.x0 d.y0 d.w d.h, u ∉ r.repairTiles) →
        (∀ c ∈ d.channels, c / 32 ∉ r.slowStacks) → a ≤ 2300 → Completes (.bringUp r) s (fun t =>
          let p := t.part d.pid
          p.present = true ∧ p.x0 = d.x0 ∧ p.y0 = d.y0 ∧ p.w = d.w ∧ p.h = d.h ∧ p.channels = d.channels ∧
          p.eyelets = d.eyelets ∧ p.alloc = a ∧ p.allocNext = a ∧
          ∀ n, n < Config.numSequencers → n / 32 ∉ t.ctl.retiredStacks → (t.chan n).keeper = true)) ∧
      (s.ctl.flash = [] → 1 ∈ r.hung → Completes (.bringUp r) s (fun t => t.ctl.flash = [⟨s.ctl.boot + 1, 1, 1, none⟩])) ∧
      (s.ctl.flash = [] → 1 ∉ r.hung → 1 ∈ r.failed → Completes (.bringUp r) s (fun t =>
        t.ctl.flash = [⟨s.ctl.boot + 1, 1, 1, some false⟩])) ∧
      (∀ a, s.ctl.flash = [⟨s.ctl.boot, 1, a, some false⟩] → 1 ∈ r.failedAlternative → Completes (.bringUp r) s (fun t =>
        t.ctl.outOfService = some 1 ∧ t.ctl.flash = ⟨s.ctl.boot + 1, 1, a + 1, some false⟩ :: s.ctl.flash))

/-- The Reset columns of the tables; R76, R316. The 0 of memories and of other registers: logs 3 and 4. -/
def Obligations.ResetState : Prop :=
  let s := State.reset
  (∀ tile n, let h := s.thread tile n
    h.st = .halted ∧ h.pl = 0 ∧ h.ppl = 0 ∧ h.inh = false ∧ h.cause = 0 ∧ h.sub = 0 ∧ h.next = 0 ∧ h.fflags = 0 ∧ h.rptAt = none) ∧
  (∀ tile, let x := s.tile tile
    x.core.tvec = 0xE000 ∧ x.core.mtvec = 0xE000 ∧ (∀ w, isFull x w = false) ∧ (∀ n, (x.stream n).st = 0) ∧ x.matrix.st = 0 ∧
    x.ctl.gateBank = 0 ∧ x.ctl.gateWay = 0 ∧ x.ctl.bwake = 0 ∧ x.ctl.wwake = 0 ∧ x.ctl.opnt = 0 ∧ x.place = none ∧
    Memory.wf x.store.mem = true) ∧
  (∀ k, (s.region k).st = 0 ∧ (s.region k).slot = 0 ∧ (s.region k).iter = 0) ∧
  (∀ e, (s.eyelet e).spen = true ∧ (s.eyelet e).tx.spon = false ∧ (s.eyelet e).rx.spblk = false) ∧
  (∀ pid, let p := s.part pid
    p.ptroot = 0 ∧ p.evlog = 0 ∧ p.elastic = false ∧ p.lastPower = 0 ∧ p.nextLaunch = 1 ∧ p.launches = [] ∧ p.bindings = [] ∧
    p.lines = [] ∧
    ∀ q, let x := p.queue q
      x.en = false ∧ x.prio = 0 ∧ x.agep = 0 ∧ x.host = true ∧ x.held = false ∧ x.ovf = false ∧ x.perr = false ∧
        x.pkterr = false ∧ x.last = 0 ∧ x.packets = []) ∧
  (∀ tile a, storeByte s tile a = 0 ∧ imemByte s tile a = 0 ∧ hbmByte s tile a = 0 ∧ scratchByte s tile a = 0 ∧ hostByte s a = 0) ∧
  s.agenda = [] ∧ s.timers = [] ∧ s.travels = [] ∧ s.suspend = .running ∧ s.halt.active = false ∧ Memory.wf s.host = true ∧
  HandlersOk s

/-- The agenda is the model's (log 1); R14, R33, R34, R132, R176, R316, R323, R361. -/
def Obligations.StepRunsDecodedInstruction : Prop :=
  (∀ e, ∃ i, ∀ s, runEvent e s = exec i s) ∧
  (∀ t n, runEvent (.threadWake t n) = exec (.threadWake t n)) ∧ (∀ p q, runEvent (.qrelAbort p q) = exec (.qrelAbort p q)) ∧
  (∀ t f, runEvent (.messageDelivery t f) = exec (.messageDelivery t f)) ∧
  (∀ p l, runEvent (.launchStart p l) = exec (.launchStart p l)) ∧ (∀ t c, runEvent (.streamElement t c) = exec (.streamElement t c)) ∧
  (∀ (v : State) i j k, v.cur.thread < 8 → let y := noteAccess v i j k
    { y.me with slow := v.me.slow, storeUntil := v.me.storeUntil } = v.me ∧ { y with tiles := v.tiles } = v ∧
    ∀ a b, b < 8 → (a ≠ v.cur.tile ∨ b ≠ v.cur.thread) → y.thread a b = v.thread a b) ∧
  (∀ (v : State) r k, v.cur.thread < 8 → let y := noteSlow v r k
    { y.me with slow := v.me.slow } = v.me ∧ { y with tiles := v.tiles } = v ∧
    ∀ a b, b < 8 → (a ≠ v.cur.tile ∨ b ≠ v.cur.thread) → y.thread a b = v.thread a b) ∧
  ∀ s : State,
    let isThread := fun (w : Work) => match w with | .thread _ _ => true | _ => false
    let ahead := (s.agenda.takeWhile isThread).length
    let k := s.sched.headD 0 % ahead
    (s.agenda = [] → step s = .next (tick s)) ∧
    (∀ w rest, s.agenda = w :: rest → isThread w = false → takeWork s = some (w, { s with agenda := rest })) ∧
    (0 < ahead → ∀ w, s.agenda[k]? = some w →
      takeWork s = some (w, { s with agenda := s.agenda.eraseIdx k, sched := s.sched.tail })) ∧
    ∀ (w : Work) (u : State), takeWork s = some (w, u) →
      (workOk w = false → step s = .next u) ∧
      (workOk w = true →
        (∀ e, w = .event e → step s = runEvent e (touch u e)) ∧
        (w = .units → step s = .next (beginUnits u)) ∧
        (∀ r, w = .commit r → step s = .next (commitRegion r (touchRegion u r))) ∧
        (∀ r k i, w = .peOp r k → let a := (u.region r).slot.toNat
          decodeFabric (opAt (u.pe k) a).toNat = some i → step s = exec i { u with
            cur := { u.cur with region := r, pe := k, ra := raAt (u.pe k) a } }) ∧
        (∀ r k, w = .peRoute r k → let a := (u.region r).slot.toNat
          step s = exec (decodeRoute (routeAt (u.pe k) a).toNat) { u with
            cur := { u.cur with region := r, pe := k, ra := raAt (u.pe k) a } }) ∧
        (∀ t e i, w = .matrix t e → decodeMatrix ((u.tile t).matrix.entry e).toNat = some i →
          step s = exec i { u with cur := { u.cur with tile := t, entry := e } }) ∧
        (∀ n v i, w = .command n → (u.chan n).words[(u.chan n).pos]? = some v →
          decodeD v.toNat = some i ∨ decodeD v.toNat = none ∧ i = .undefinedDWord v →
          ∀ t, exec i { u with cur := { u.cur with chan := n, dword := v } } = .next t →
            step s = .next (if commandDue t n then t.enqueue (.command n) else t)) ∧
        ∀ t n, w = .thread t n →
          let first := u.thread t n
          let two := paired u t n && mayIssue u t n
          let b := if two then u.nextFree.setThread t n { first with mismatch := false } else u
          let x := b.tile t
          let h := b.thread t n
          let ws := fetchWords x h h.pc
          let begins := fun (m : Nat) => { b.setTile t { x.setThread n { h with st := .running, issued := false } with active := true } with
            cur := { b.cur with
              tile := t, thread := n, ipc := h.pc, npc := h.pc + BitVec.ofNat 64 (4 * m), word := ws.headD 0 } }
          let ends := fun (v : State) => step s = .next (mirrorThread t n v)
          (two = true → Config.pairMismatch u.free = true → ∀ pl, (u.tile t).place = some pl →
            let y := post (u.nextFree.setThread t n { first with mismatch := true }) pl.pid 0x14 0 0 0 t
              (u.launch pl.pid pl.lnum).queue pl.lnum
              (natBytes 2 t ++ natBytes 1 n ++ natBytes 5 0 ++ natBytes 8 first.pc.toNat)
            ends (if first.mismatch then y.event (.rollback pl.pid pl.lnum 6) else y)) ∧
          (two = true → Config.pairMismatch u.free = true → (u.tile t).place = none →
            ends (u.nextFree.setThread t n { first with mismatch := true })) ∧
          (mayIssue u t n = false → ends u) ∧
          (mayIssue u t n = true → two = false ∨ Config.pairMismatch u.free = false →
            (h.debug = true → x.core.haltc = false →
              ends (takeTrap ((begins 1).setMe { (begins 1).me with debug := false }) t n 0x13 0 0 h.pc)) ∧
            (x.core.haltc = true → h.issued = false → ∀ y, exec (.haltt 0) (begins 0) = .next y → ends y) ∧
            ((x.core.haltc = false ∧ h.debug = false) ∨ (x.core.haltc = true ∧ h.issued = true) →
              (∀ v, decodeSeq ws = .illegal v → ∀ y, exec (.illegalInstruction v) (begins 1) = .next y → ends y) ∧
              (∀ m, decodeSeq ws = .missing m →
                ends (takeTrap (begins 1) t n 0x06 0 (h.pc + BitVec.ofNat 64 (4 * m)) h.pc)) ∧
              ∀ i m, decodeSeq ws = .instr i m →
                let g := begins m
                let again := inRepetition { h with st := .running, issued := false } = true ∧ ∃ c a b d r v, i = .rpt c a b d r v
                let runs := fun (j : Instr) => (again ∧ j = .rptRepetition) ∨ (¬ again ∧ j = i)
                (needsReady g i = false → ends (g.setMe { g.me with st := .waiting .retry })) ∧
                (needsReady g i = true → ∀ j, runs j →
                  (issuedForm g i = none → ∀ v, exec j g = .next v → ends v) ∧
                  ∀ l, issuedForm g i = some l →
                    (storeAddress g l = none ∨ guardHolds g i = false → ∀ v, exec j g = .next v →
                      ends (if reachedBank g v && guardHolds g i then noteSlow v (slowResult l) 0 else v)) ∧
                    (∀ a, storeAddress g l = some a → guardHolds g i = true →
                      let c := g.setTile t (takeBank g.cycle (g.tile t) (bankOf a))
                      ∀ v, exec j c = .next v →
                        (reachedBank g v = true → ends (noteAccess v i l (bankCycle (g.tile t) g.cycle (bankOf a) - g.cycle))) ∧
                        (reachedBank g v = false → ∀ y, exec j g = .next y → ends y))))) ∧
          (∀ v, (v.tile (t + 1)).core.shadowOf = none → mirrorThread t n v = v))

/-- Tables 06-2, 06-6 to 06-8, 06-10 to 06-16. -/
def Obligations.DecodeSamples : Prop :=
  decodeTableWord 32 0x00611000 = some (.add 3 1 2 0) ∧
  decodeTableWord 32 0x04A41FFF = some (.addi 5 4 0 (BitVec.ofInt 13 (-1))) ∧
  decodeTableWord 32 0x20400005 = some (.lui 2 0 5) ∧
  decodeTableWord 32 0x40BFFFFE = some (.br 1 0 (BitVec.ofInt 22 (-2))) ∧
  decodeTableWord 32 0x60E81808 = some (.ld 7 8 0 3 8) ∧
  decodeTableWord 32 0xC0281000 = some (.csrr 1 0x102 0) ∧
  decodeTableWord 32 0xC0000002 = some (.tret 0) ∧
  decodeTableWord 32 0xC4000007 = some (.trap 0 7) ∧
  decodeTableWord 64 0xFFFFFFFE24C00000 = some (.lix 6 0 (BitVec.ofInt 32 (-2))) ∧
  decodeTableWord 64 0x00611000F0042980 = some (.rpt 4 1 2 3 false 0x00611000) ∧
  decodeTableWord 64 0x60E81808F4000000 = some (.rlx 0x60E81808) ∧
  decodeTableWord 24 0x110F0D = some (.fadd 2 3 24 6 1) ∧
  decodeTableWord 16 0x1234 = some (.route 1 2 3 4) ∧
  decodeTableWord 64 0x0414C84F00100000 = some (.mma 5 3 2 1 7 0x10 1) ∧
  decodeTableWord 64 0x040249B048D00000 = some (.dact 9 4 1 2 3 0x1234) ∧
  decodeTableWord 32 0xC0200002 = none ∧ decodeTableWord 32 0x0000001F = none ∧ decodeTableWord 24 0x0C0000 = none

/-- Tables 06-2 to 06-16. -/
def Obligations.DecodeEncode : Prop :=
  ∀ i : Instr, i.wf = true → ∀ f n w, encode i = some (f, n, w) → decodeFamily f n w = some i

/-- Whatever a rule calls illegal has an effect of its own here: R36, R38, R250, R316. -/
def Obligations.NoInstructionStops : Prop := ∀ (i : Instr) (s : State), ∃ t, exec i s = .next t

/-- R316: both lie in the handler area; a write outside it is refused; the start of a launch and a restore leave them. -/
def Obligations.StepKeepsHandlerEntries : Prop :=
  ∀ (s t : State), HandlersOk s → step s = .next t → HandlersOk t
end

