-- ==== Sys2Proof/Laws/Table.lean ====
section
/-! SUPPORT. Laws of tables and memories: reading after writing, and the canonical form of a memory. -/

namespace Sys2Proof.Machine

/-! ### Tables -/

theorem tabFind_tabPut_same {α : Type} (t : Tab α) (k : Nat) (v : α) : tabFind (tabPut t k v) k = some v := by
  induction t with
  | nil => simp [tabPut, tabFind]
  | cons p r ih =>
    obtain ⟨j, w⟩ := p
    simp only [tabPut]
    split
    · rename_i h
      simp [tabFind, ih, Nat.ne_of_lt h]
    · split <;> simp [tabFind]

theorem tabFind_tabPut_other {α : Type} (t : Tab α) (k j : Nat) (v : α) (h : j ≠ k) :
    tabFind (tabPut t k v) j = tabFind t j := by
  induction t with
  | nil => simp [tabPut, tabFind, Ne.symm h]
  | cons p r ih =>
    obtain ⟨i, w⟩ := p
    simp only [tabPut]
    split
    · simp [tabFind, ih]
    · split
      · rename_i e
        subst e
        simp [tabFind, Ne.symm h]
      · simp [tabFind, Ne.symm h]

@[simp] theorem tabGet_tabPut_same {α : Type} (d : α) (t : Tab α) (k : Nat) (v : α) : tabGet d (tabPut t k v) k = v := by
  simp [tabGet, tabFind_tabPut_same]

theorem tabGet_tabPut_other {α : Type} (d : α) (t : Tab α) (k j : Nat) (v : α) (h : j ≠ k) :
    tabGet d (tabPut t k v) j = tabGet d t j := by
  simp [tabGet, tabFind_tabPut_other t k j v h]

/-! ### Memories: reading after writing -/

theorem memGet_filter_same (m : Mem) (a : Nat) : memGet (m.filter (fun c => c.1 != a)) a = 0 := by
  induction m with
  | nil => rfl
  | cons c r ih =>
    obtain ⟨b, w⟩ := c
    by_cases e : b = a
    · simpa [e] using ih
    · simpa [memGet, e] using ih

theorem memGet_filter_other (m : Mem) (a b : Nat) (h : b ≠ a) : memGet (m.filter (fun c => c.1 != a)) b = memGet m b := by
  induction m with
  | nil => rfl
  | cons c r ih =>
    obtain ⟨d, w⟩ := c
    by_cases e : d = a
    · subst e
      simp [memGet, Ne.symm h, ih]
    · simp [memGet, e, ih]

theorem memGet_memInsert_same (m : Mem) (a : Nat) (v : Byte) : memGet (memInsert m a v) a = v := by
  induction m with
  | nil => simp [memInsert, memGet]
  | cons c r ih =>
    obtain ⟨b, w⟩ := c
    simp only [memInsert]
    split
    · rename_i h
      simp [memGet, ih, Nat.ne_of_lt h]
    · split <;> simp [memGet]

theorem memGet_memInsert_other (m : Mem) (a b : Nat) (v : Byte) (h : b ≠ a) : memGet (memInsert m a v) b = memGet m b := by
  induction m with
  | nil => simp [memInsert, memGet, Ne.symm h]
  | cons c r ih =>
    obtain ⟨d, w⟩ := c
    simp only [memInsert]
    split
    · simp [memGet, ih]
    · split
      · rename_i e
        subst e
        simp [memGet, Ne.symm h]
      · simp [memGet, Ne.symm h]

/-- A byte reads as it was written. -/
@[simp] theorem memGet_memPut_same (m : Mem) (a : Nat) (v : Byte) : memGet (memPut m a v) a = v := by
  unfold memPut
  split
  · rename_i h
    simp [memGet_filter_same, h]
  · exact memGet_memInsert_same m a v

/-- Every other byte reads as before. -/
theorem memGet_memPut_other (m : Mem) (a b : Nat) (v : Byte) (h : b ≠ a) : memGet (memPut m a v) b = memGet m b := by
  unfold memPut
  split
  · exact memGet_filter_other m a b h
  · exact memGet_memInsert_other m a b v h

theorem memGet_memWrite_below (m : Mem) (a b : Nat) (bs : List Byte) (h : b < a) : memGet (memWrite m a bs) b = memGet m b := by
  induction bs generalizing m a with
  | nil => rfl
  | cons x r ih => rw [memWrite, ih _ _ (by omega), memGet_memPut_other _ _ _ _ (by omega)]

/-- What a run of written bytes reads as: the written ones inside it, the old ones outside. -/
theorem memGet_memWrite (m : Mem) (a b : Nat) (bs : List Byte) :
    memGet (memWrite m a bs) b = if a ≤ b ∧ b < a + bs.length then nth bs (b - a) 0 else memGet m b := by
  induction bs generalizing m a with
  | nil => rw [if_neg (by simp only [List.length_nil]; omega), memWrite]
  | cons x r ih =>
    by_cases e : b = a
    · subst e
      rw [memWrite, memGet_memWrite_below _ _ _ _ (by omega)]
      simp [nth]
    · rw [memWrite, ih, memGet_memPut_other _ _ _ _ e]
      by_cases h : a + 1 ≤ b ∧ b < a + 1 + r.length
      · rw [if_pos h, if_pos (by simp only [List.length_cons]; omega)]
        obtain ⟨k, rfl⟩ : ∃ k, b = a + 1 + k := ⟨b - (a + 1), by omega⟩
        simp [nth, show a + 1 + k - a = k + 1 by omega]
      · rw [if_neg h, if_neg (by simp only [List.length_cons]; omega)]

@[simp] theorem natBytes_length (n v : Nat) : (natBytes n v).length = n := by
  induction n generalizing v with
  | zero => rfl
  | succ k ih => simp [natBytes, ih]

/-- Byte k of a number's little-endian bytes (R5). -/
theorem nth_natBytes (n v k : Nat) (h : k < n) : nth (natBytes n v) k 0 = BitVec.ofNat 8 (v / 256 ^ k) := by
  induction n generalizing v k with
  | zero => omega
  | succ n ih =>
    cases k with
    | zero => simp [nth, natBytes]
    | succ k =>
      have := ih (v / 256) k (by omega)
      simp only [nth, natBytes, List.drop_succ_cons] at this ⊢
      rw [this, Nat.div_div_eq_div_mul, Nat.pow_succ, Nat.mul_comm]

theorem bytesNat_natBytes (n v : Nat) : bytesNat (natBytes n v) = v % 256 ^ n := by
  induction n generalizing v with
  | zero => simp [natBytes, bytesNat, Nat.mod_one]
  | succ n ih =>
    rw [natBytes, bytesNat, ih, Nat.pow_succ, Nat.mul_comm (256 ^ n) 256, Nat.mod_mul]
    simp

/-! ### The canonical form -/

theorem memSorted_cons (c : Nat × Byte) (m : Mem) :
    memSorted (c :: m) = (m.all (fun d => decide (c.1 < d.1)) && memSorted m) := by
  induction m generalizing c with
  | nil => rfl
  | cons d r ih =>
    rw [memSorted, ih d, List.all_cons]
    by_cases h : c.1 < d.1
    · have : (r.all fun e => decide (d.1 < e.1)) = true → (r.all fun e => decide (c.1 < e.1)) = true := by
        simp only [List.all_eq_true, decide_eq_true_eq]
        exact fun k e he => by have := k e he; omega
      cases h1 : (r.all fun e => decide (d.1 < e.1)) <;> cases h2 : (r.all fun e => decide (c.1 < e.1)) <;> simp_all
    · simp [h]

theorem memory_wf_cons (c : Nat × Byte) (m : Mem) :
    Memory.wf (c :: m) = true ↔ (∀ d ∈ m, c.1 < d.1) ∧ c.2 ≠ 0 ∧ Memory.wf m = true := by
  simp only [Memory.wf, memSorted_cons, List.all_cons, Bool.and_eq_true, List.all_eq_true, decide_eq_true_eq, bne_iff_ne]
  constructor
  · rintro ⟨⟨h1, h2⟩, h3, h4⟩
    exact ⟨h1, h3, h2, h4⟩
  · rintro ⟨h1, h3, h2, h4⟩
    exact ⟨⟨h1, h2⟩, h3, h4⟩

theorem memory_wf_filter (m : Mem) (f : Nat × Byte → Bool) (h : Memory.wf m = true) : Memory.wf (m.filter f) = true := by
  induction m with
  | nil => rfl
  | cons c r ih =>
    rw [memory_wf_cons] at h
    rw [List.filter_cons]
    split
    · rw [memory_wf_cons]
      exact ⟨fun d hd => h.1 d (List.mem_filter.mp hd).1, h.2.1, ih h.2.2⟩
    · exact ih h.2.2

theorem mem_memInsert (m : Mem) (a : Nat) (v : Byte) (d : Nat × Byte) (h : d ∈ memInsert m a v) : d = (a, v) ∨ d ∈ m := by
  induction m with
  | nil => simpa [memInsert] using h
  | cons c r ih =>
    obtain ⟨b, w⟩ := c
    simp only [memInsert] at h
    split at h
    · rcases List.mem_cons.mp h with h | h
      · exact .inr (h ▸ List.mem_cons_self ..)
      · rcases ih h with h | h
        · exact .inl h
        · exact .inr (List.mem_cons_of_mem _ h)
    · split at h
      · rcases List.mem_cons.mp h with h | h
        · exact .inl h
        · exact .inr (List.mem_cons_of_mem _ h)
      · rcases List.mem_cons.mp h with h | h
        · exact .inl h
        · exact .inr h

theorem memory_wf_memInsert (m : Mem) (a : Nat) (v : Byte) (hv : v ≠ 0) (h : Memory.wf m = true) :
    Memory.wf (memInsert m a v) = true := by
  induction m with
  | nil => simpa [memInsert, Memory.wf, memSorted] using hv
  | cons c r ih =>
    obtain ⟨b, w⟩ := c
    have hc := (memory_wf_cons _ _).mp h
    simp only [memInsert]
    split
    · rename_i hb
      rw [memory_wf_cons]
      refine ⟨fun d hd => ?_, hc.2.1, ih hc.2.2⟩
      rcases mem_memInsert _ _ _ _ hd with rfl | hd
      · exact hb
      · exact hc.1 d hd
    · split
      · rename_i e
        subst e
        exact (memory_wf_cons _ _).mpr ⟨hc.1, hv, hc.2.2⟩
      · rename_i h1 h2
        refine (memory_wf_cons _ _).mpr ⟨fun d hd => ?_, hv, h⟩
        rcases List.mem_cons.mp hd with rfl | hd
        · show a < b
          omega
        · have := hc.1 d hd
          show a < d.1
          simp only at this
          omega

/-- Writing a byte keeps the canonical form. -/
theorem memory_wf_memPut (m : Mem) (a : Nat) (v : Byte) (h : Memory.wf m = true) : Memory.wf (memPut m a v) = true := by
  unfold memPut
  split
  · exact memory_wf_filter m _ h
  · exact memory_wf_memInsert m a v ‹_› h

/-- Writing bytes keeps the canonical form. -/
theorem memory_wf_memWrite (m : Mem) (a : Nat) (bs : List Byte) (h : Memory.wf m = true) :
    Memory.wf (memWrite m a bs) = true := by
  induction bs generalizing m a with
  | nil => exact h
  | cons b r ih => exact ih _ _ (memory_wf_memPut m a b h)

/-- Clearing bytes keeps the canonical form. -/
theorem memory_wf_memClear (m : Mem) (a n : Nat) (h : Memory.wf m = true) : Memory.wf (memClear m a n) = true :=
  memory_wf_filter m _ h

/-! ### Rising lists -/

theorem mem_setInsert (l : List Nat) (k j : Nat) : j ∈ setInsert l k ↔ j = k ∨ j ∈ l := by
  induction l with
  | nil => simp [setInsert]
  | cons i r ih =>
    simp only [setInsert]
    split
    · simp only [List.mem_cons, ih, or_left_comm]
    · split
      · rename_i e
        subst e
        simp
      · simp

theorem mem_setErase (l : List Nat) (k j : Nat) : j ∈ setErase l k ↔ j ∈ l ∧ j ≠ k := by
  simp [setErase]

end Sys2Proof.Machine
end

