-- ==== Sys2Proof/Laws/State.lean ====
section
/-! SUPPORT. What each update of the state leaves, field by field: every lemma is the definition of the update read once. -/

namespace Sys2Proof.Machine

/-! ### setTile -/

@[simp] theorem setTile_cycle (s : State) (t : Nat) (x : Tile) : (s.setTile t x).cycle = s.cycle := rfl
@[simp] theorem setTile_gslot (s : State) (t : Nat) (x : Tile) : (s.setTile t x).gslot = s.gslot := rfl
@[simp] theorem setTile_number (s : State) (t : Nat) (x : Tile) : (s.setTile t x).number = s.number := rfl
@[simp] theorem setTile_slotError (s : State) (t : Nat) (x : Tile) : (s.setTile t x).slotError = s.slotError := rfl
@[simp] theorem setTile_halt (s : State) (t : Nat) (x : Tile) : (s.setTile t x).halt = s.halt := rfl
@[simp] theorem setTile_suspend (s : State) (t : Nat) (x : Tile) : (s.setTile t x).suspend = s.suspend := rfl
@[simp] theorem setTile_pes (s : State) (t : Nat) (x : Tile) : (s.setTile t x).pes = s.pes := rfl
@[simp] theorem setTile_regions (s : State) (t : Nat) (x : Tile) : (s.setTile t x).regions = s.regions := rfl
@[simp] theorem setTile_chans (s : State) (t : Nat) (x : Tile) : (s.setTile t x).chans = s.chans := rfl
@[simp] theorem setTile_txs (s : State) (t : Nat) (x : Tile) : (s.setTile t x).txs = s.txs := rfl
@[simp] theorem setTile_groups (s : State) (t : Nat) (x : Tile) : (s.setTile t x).groups = s.groups := rfl
@[simp] theorem setTile_travels (s : State) (t : Nat) (x : Tile) : (s.setTile t x).travels = s.travels := rfl
@[simp] theorem setTile_nextTravel (s : State) (t : Nat) (x : Tile) : (s.setTile t x).nextTravel = s.nextTravel := rfl
@[simp] theorem setTile_links (s : State) (t : Nat) (x : Tile) : (s.setTile t x).links = s.links := rfl
@[simp] theorem setTile_triples (s : State) (t : Nat) (x : Tile) : (s.setTile t x).triples = s.triples := rfl
@[simp] theorem setTile_nodes (s : State) (t : Nat) (x : Tile) : (s.setTile t x).nodes = s.nodes := rfl
@[simp] theorem setTile_parts (s : State) (t : Nat) (x : Tile) : (s.setTile t x).parts = s.parts := rfl
@[simp] theorem setTile_eyelets (s : State) (t : Nat) (x : Tile) : (s.setTile t x).eyelets = s.eyelets := rfl
@[simp] theorem setTile_ctl (s : State) (t : Nat) (x : Tile) : (s.setTile t x).ctl = s.ctl := rfl
@[simp] theorem setTile_host (s : State) (t : Nat) (x : Tile) : (s.setTile t x).host = s.host := rfl
@[simp] theorem setTile_flaws (s : State) (t : Nat) (x : Tile) : (s.setTile t x).flaws = s.flaws := rfl
@[simp] theorem setTile_reloading (s : State) (t : Nat) (x : Tile) : (s.setTile t x).reloading = s.reloading := rfl
@[simp] theorem setTile_arrivals (s : State) (t : Nat) (x : Tile) : (s.setTile t x).arrivals = s.arrivals := rfl
@[simp] theorem setTile_agenda (s : State) (t : Nat) (x : Tile) : (s.setTile t x).agenda = s.agenda := rfl
@[simp] theorem setTile_timers (s : State) (t : Nat) (x : Tile) : (s.setTile t x).timers = s.timers := rfl
@[simp] theorem setTile_sched (s : State) (t : Nat) (x : Tile) : (s.setTile t x).sched = s.sched := rfl
@[simp] theorem setTile_free (s : State) (t : Nat) (x : Tile) : (s.setTile t x).free = s.free := rfl
@[simp] theorem setTile_cur (s : State) (t : Nat) (x : Tile) : (s.setTile t x).cur = s.cur := rfl
@[simp] theorem setTile_tile_same (s : State) (t : Nat) (x : Tile) : (s.setTile t x).tile t = x := tabGet_tabPut_same ..
theorem setTile_tile_other (s : State) (t : Nat) (x : Tile) (u : Nat) (h : u ≠ t) : (s.setTile t x).tile u = s.tile u :=
  tabGet_tabPut_other _ _ _ _ _ h
@[simp] theorem setTile_pe (s : State) (t : Nat) (x : Tile) (u : Nat) : (s.setTile t x).pe u = s.pe u := rfl
@[simp] theorem setTile_region (s : State) (t : Nat) (x : Tile) (u : Nat) : (s.setTile t x).region u = s.region u := rfl
@[simp] theorem setTile_chan (s : State) (t : Nat) (x : Tile) (u : Nat) : (s.setTile t x).chan u = s.chan u := rfl
@[simp] theorem setTile_tx (s : State) (t : Nat) (x : Tile) (u : Nat) : (s.setTile t x).tx u = s.tx u := rfl
@[simp] theorem setTile_part (s : State) (t : Nat) (x : Tile) (u : Nat) : (s.setTile t x).part u = s.part u := rfl
@[simp] theorem setTile_eyelet (s : State) (t : Nat) (x : Tile) (u : Nat) : (s.setTile t x).eyelet u = s.eyelet u := rfl
@[simp] theorem setTile_triple (s : State) (t : Nat) (x : Tile) (u : Nat) : (s.setTile t x).triple u = s.triple u := rfl
@[simp] theorem setTile_node (s : State) (t : Nat) (x : Tile) (u : Nat) : (s.setTile t x).node u = s.node u := rfl

/-! ### setPe -/

@[simp] theorem setPe_cycle (s : State) (t : Nat) (x : PE) : (s.setPe t x).cycle = s.cycle := rfl
@[simp] theorem setPe_gslot (s : State) (t : Nat) (x : PE) : (s.setPe t x).gslot = s.gslot := rfl
@[simp] theorem setPe_number (s : State) (t : Nat) (x : PE) : (s.setPe t x).number = s.number := rfl
@[simp] theorem setPe_slotError (s : State) (t : Nat) (x : PE) : (s.setPe t x).slotError = s.slotError := rfl
@[simp] theorem setPe_halt (s : State) (t : Nat) (x : PE) : (s.setPe t x).halt = s.halt := rfl
@[simp] theorem setPe_suspend (s : State) (t : Nat) (x : PE) : (s.setPe t x).suspend = s.suspend := rfl
@[simp] theorem setPe_tiles (s : State) (t : Nat) (x : PE) : (s.setPe t x).tiles = s.tiles := rfl
@[simp] theorem setPe_regions (s : State) (t : Nat) (x : PE) : (s.setPe t x).regions = s.regions := rfl
@[simp] theorem setPe_chans (s : State) (t : Nat) (x : PE) : (s.setPe t x).chans = s.chans := rfl
@[simp] theorem setPe_txs (s : State) (t : Nat) (x : PE) : (s.setPe t x).txs = s.txs := rfl
@[simp] theorem setPe_groups (s : State) (t : Nat) (x : PE) : (s.setPe t x).groups = s.groups := rfl
@[simp] theorem setPe_travels (s : State) (t : Nat) (x : PE) : (s.setPe t x).travels = s.travels := rfl
@[simp] theorem setPe_nextTravel (s : State) (t : Nat) (x : PE) : (s.setPe t x).nextTravel = s.nextTravel := rfl
@[simp] theorem setPe_links (s : State) (t : Nat) (x : PE) : (s.setPe t x).links = s.links := rfl
@[simp] theorem setPe_triples (s : State) (t : Nat) (x : PE) : (s.setPe t x).triples = s.triples := rfl
@[simp] theorem setPe_nodes (s : State) (t : Nat) (x : PE) : (s.setPe t x).nodes = s.nodes := rfl
@[simp] theorem setPe_parts (s : State) (t : Nat) (x : PE) : (s.setPe t x).parts = s.parts := rfl
@[simp] theorem setPe_eyelets (s : State) (t : Nat) (x : PE) : (s.setPe t x).eyelets = s.eyelets := rfl
@[simp] theorem setPe_ctl (s : State) (t : Nat) (x : PE) : (s.setPe t x).ctl = s.ctl := rfl
@[simp] theorem setPe_host (s : State) (t : Nat) (x : PE) : (s.setPe t x).host = s.host := rfl
@[simp] theorem setPe_flaws (s : State) (t : Nat) (x : PE) : (s.setPe t x).flaws = s.flaws := rfl
@[simp] theorem setPe_reloading (s : State) (t : Nat) (x : PE) : (s.setPe t x).reloading = s.reloading := rfl
@[simp] theorem setPe_arrivals (s : State) (t : Nat) (x : PE) : (s.setPe t x).arrivals = s.arrivals := rfl
@[simp] theorem setPe_agenda (s : State) (t : Nat) (x : PE) : (s.setPe t x).agenda = s.agenda := rfl
@[simp] theorem setPe_timers (s : State) (t : Nat) (x : PE) : (s.setPe t x).timers = s.timers := rfl
@[simp] theorem setPe_sched (s : State) (t : Nat) (x : PE) : (s.setPe t x).sched = s.sched := rfl
@[simp] theorem setPe_free (s : State) (t : Nat) (x : PE) : (s.setPe t x).free = s.free := rfl
@[simp] theorem setPe_cur (s : State) (t : Nat) (x : PE) : (s.setPe t x).cur = s.cur := rfl
@[simp] theorem setPe_pe_same (s : State) (t : Nat) (x : PE) : (s.setPe t x).pe t = x := tabGet_tabPut_same ..
theorem setPe_pe_other (s : State) (t : Nat) (x : PE) (u : Nat) (h : u ≠ t) : (s.setPe t x).pe u = s.pe u :=
  tabGet_tabPut_other _ _ _ _ _ h
@[simp] theorem setPe_tile (s : State) (t : Nat) (x : PE) (u : Nat) : (s.setPe t x).tile u = s.tile u := rfl
@[simp] theorem setPe_region (s : State) (t : Nat) (x : PE) (u : Nat) : (s.setPe t x).region u = s.region u := rfl
@[simp] theorem setPe_chan (s : State) (t : Nat) (x : PE) (u : Nat) : (s.setPe t x).chan u = s.chan u := rfl
@[simp] theorem setPe_tx (s : State) (t : Nat) (x : PE) (u : Nat) : (s.setPe t x).tx u = s.tx u := rfl
@[simp] theorem setPe_part (s : State) (t : Nat) (x : PE) (u : Nat) : (s.setPe t x).part u = s.part u := rfl
@[simp] theorem setPe_eyelet (s : State) (t : Nat) (x : PE) (u : Nat) : (s.setPe t x).eyelet u = s.eyelet u := rfl
@[simp] theorem setPe_triple (s : State) (t : Nat) (x : PE) (u : Nat) : (s.setPe t x).triple u = s.triple u := rfl
@[simp] theorem setPe_node (s : State) (t : Nat) (x : PE) (u : Nat) : (s.setPe t x).node u = s.node u := rfl

/-! ### setRegion -/

@[simp] theorem setRegion_cycle (s : State) (t : Nat) (x : Region) : (s.setRegion t x).cycle = s.cycle := rfl
@[simp] theorem setRegion_gslot (s : State) (t : Nat) (x : Region) : (s.setRegion t x).gslot = s.gslot := rfl
@[simp] theorem setRegion_number (s : State) (t : Nat) (x : Region) : (s.setRegion t x).number = s.number := rfl
@[simp] theorem setRegion_slotError (s : State) (t : Nat) (x : Region) : (s.setRegion t x).slotError = s.slotError := rfl
@[simp] theorem setRegion_halt (s : State) (t : Nat) (x : Region) : (s.setRegion t x).halt = s.halt := rfl
@[simp] theorem setRegion_suspend (s : State) (t : Nat) (x : Region) : (s.setRegion t x).suspend = s.suspend := rfl
@[simp] theorem setRegion_tiles (s : State) (t : Nat) (x : Region) : (s.setRegion t x).tiles = s.tiles := rfl
@[simp] theorem setRegion_pes (s : State) (t : Nat) (x : Region) : (s.setRegion t x).pes = s.pes := rfl
@[simp] theorem setRegion_chans (s : State) (t : Nat) (x : Region) : (s.setRegion t x).chans = s.chans := rfl
@[simp] theorem setRegion_txs (s : State) (t : Nat) (x : Region) : (s.setRegion t x).txs = s.txs := rfl
@[simp] theorem setRegion_groups (s : State) (t : Nat) (x : Region) : (s.setRegion t x).groups = s.groups := rfl
@[simp] theorem setRegion_travels (s : State) (t : Nat) (x : Region) : (s.setRegion t x).travels = s.travels := rfl
@[simp] theorem setRegion_nextTravel (s : State) (t : Nat) (x : Region) : (s.setRegion t x).nextTravel = s.nextTravel := rfl
@[simp] theorem setRegion_links (s : State) (t : Nat) (x : Region) : (s.setRegion t x).links = s.links := rfl
@[simp] theorem setRegion_triples (s : State) (t : Nat) (x : Region) : (s.setRegion t x).triples = s.triples := rfl
@[simp] theorem setRegion_nodes (s : State) (t : Nat) (x : Region) : (s.setRegion t x).nodes = s.nodes := rfl
@[simp] theorem setRegion_parts (s : State) (t : Nat) (x : Region) : (s.setRegion t x).parts = s.parts := rfl
@[simp] theorem setRegion_eyelets (s : State) (t : Nat) (x : Region) : (s.setRegion t x).eyelets = s.eyelets := rfl
@[simp] theorem setRegion_ctl (s : State) (t : Nat) (x : Region) : (s.setRegion t x).ctl = s.ctl := rfl
@[simp] theorem setRegion_host (s : State) (t : Nat) (x : Region) : (s.setRegion t x).host = s.host := rfl
@[simp] theorem setRegion_flaws (s : State) (t : Nat) (x : Region) : (s.setRegion t x).flaws = s.flaws := rfl
@[simp] theorem setRegion_reloading (s : State) (t : Nat) (x : Region) : (s.setRegion t x).reloading = s.reloading := rfl
@[simp] theorem setRegion_arrivals (s : State) (t : Nat) (x : Region) : (s.setRegion t x).arrivals = s.arrivals := rfl
@[simp] theorem setRegion_agenda (s : State) (t : Nat) (x : Region) : (s.setRegion t x).agenda = s.agenda := rfl
@[simp] theorem setRegion_timers (s : State) (t : Nat) (x : Region) : (s.setRegion t x).timers = s.timers := rfl
@[simp] theorem setRegion_sched (s : State) (t : Nat) (x : Region) : (s.setRegion t x).sched = s.sched := rfl
@[simp] theorem setRegion_free (s : State) (t : Nat) (x : Region) : (s.setRegion t x).free = s.free := rfl
@[simp] theorem setRegion_cur (s : State) (t : Nat) (x : Region) : (s.setRegion t x).cur = s.cur := rfl
@[simp] theorem setRegion_region_same (s : State) (t : Nat) (x : Region) : (s.setRegion t x).region t = x := tabGet_tabPut_same ..
theorem setRegion_region_other (s : State) (t : Nat) (x : Region) (u : Nat) (h : u ≠ t) : (s.setRegion t x).region u = s.region u :=
  tabGet_tabPut_other _ _ _ _ _ h
@[simp] theorem setRegion_tile (s : State) (t : Nat) (x : Region) (u : Nat) : (s.setRegion t x).tile u = s.tile u := rfl
@[simp] theorem setRegion_pe (s : State) (t : Nat) (x : Region) (u : Nat) : (s.setRegion t x).pe u = s.pe u := rfl
@[simp] theorem setRegion_chan (s : State) (t : Nat) (x : Region) (u : Nat) : (s.setRegion t x).chan u = s.chan u := rfl
@[simp] theorem setRegion_tx (s : State) (t : Nat) (x : Region) (u : Nat) : (s.setRegion t x).tx u = s.tx u := rfl
@[simp] theorem setRegion_part (s : State) (t : Nat) (x : Region) (u : Nat) : (s.setRegion t x).part u = s.part u := rfl
@[simp] theorem setRegion_eyelet (s : State) (t : Nat) (x : Region) (u : Nat) : (s.setRegion t x).eyelet u = s.eyelet u := rfl
@[simp] theorem setRegion_triple (s : State) (t : Nat) (x : Region) (u : Nat) : (s.setRegion t x).triple u = s.triple u := rfl
@[simp] theorem setRegion_node (s : State) (t : Nat) (x : Region) (u : Nat) : (s.setRegion t x).node u = s.node u := rfl

/-! ### setChan -/

@[simp] theorem setChan_cycle (s : State) (t : Nat) (x : Chan) : (s.setChan t x).cycle = s.cycle := rfl
@[simp] theorem setChan_gslot (s : State) (t : Nat) (x : Chan) : (s.setChan t x).gslot = s.gslot := rfl
@[simp] theorem setChan_number (s : State) (t : Nat) (x : Chan) : (s.setChan t x).number = s.number := rfl
@[simp] theorem setChan_slotError (s : State) (t : Nat) (x : Chan) : (s.setChan t x).slotError = s.slotError := rfl
@[simp] theorem setChan_halt (s : State) (t : Nat) (x : Chan) : (s.setChan t x).halt = s.halt := rfl
@[simp] theorem setChan_suspend (s : State) (t : Nat) (x : Chan) : (s.setChan t x).suspend = s.suspend := rfl
@[simp] theorem setChan_tiles (s : State) (t : Nat) (x : Chan) : (s.setChan t x).tiles = s.tiles := rfl
@[simp] theorem setChan_pes (s : State) (t : Nat) (x : Chan) : (s.setChan t x).pes = s.pes := rfl
@[simp] theorem setChan_regions (s : State) (t : Nat) (x : Chan) : (s.setChan t x).regions = s.regions := rfl
@[simp] theorem setChan_txs (s : State) (t : Nat) (x : Chan) : (s.setChan t x).txs = s.txs := rfl
@[simp] theorem setChan_groups (s : State) (t : Nat) (x : Chan) : (s.setChan t x).groups = s.groups := rfl
@[simp] theorem setChan_travels (s : State) (t : Nat) (x : Chan) : (s.setChan t x).travels = s.travels := rfl
@[simp] theorem setChan_nextTravel (s : State) (t : Nat) (x : Chan) : (s.setChan t x).nextTravel = s.nextTravel := rfl
@[simp] theorem setChan_links (s : State) (t : Nat) (x : Chan) : (s.setChan t x).links = s.links := rfl
@[simp] theorem setChan_triples (s : State) (t : Nat) (x : Chan) : (s.setChan t x).triples = s.triples := rfl
@[simp] theorem setChan_nodes (s : State) (t : Nat) (x : Chan) : (s.setChan t x).nodes = s.nodes := rfl
@[simp] theorem setChan_parts (s : State) (t : Nat) (x : Chan) : (s.setChan t x).parts = s.parts := rfl
@[simp] theorem setChan_eyelets (s : State) (t : Nat) (x : Chan) : (s.setChan t x).eyelets = s.eyelets := rfl
@[simp] theorem setChan_ctl (s : State) (t : Nat) (x : Chan) : (s.setChan t x).ctl = s.ctl := rfl
@[simp] theorem setChan_host (s : State) (t : Nat) (x : Chan) : (s.setChan t x).host = s.host := rfl
@[simp] theorem setChan_flaws (s : State) (t : Nat) (x : Chan) : (s.setChan t x).flaws = s.flaws := rfl
@[simp] theorem setChan_reloading (s : State) (t : Nat) (x : Chan) : (s.setChan t x).reloading = s.reloading := rfl
@[simp] theorem setChan_arrivals (s : State) (t : Nat) (x : Chan) : (s.setChan t x).arrivals = s.arrivals := rfl
@[simp] theorem setChan_agenda (s : State) (t : Nat) (x : Chan) : (s.setChan t x).agenda = s.agenda := rfl
@[simp] theorem setChan_timers (s : State) (t : Nat) (x : Chan) : (s.setChan t x).timers = s.timers := rfl
@[simp] theorem setChan_sched (s : State) (t : Nat) (x : Chan) : (s.setChan t x).sched = s.sched := rfl
@[simp] theorem setChan_free (s : State) (t : Nat) (x : Chan) : (s.setChan t x).free = s.free := rfl
@[simp] theorem setChan_cur (s : State) (t : Nat) (x : Chan) : (s.setChan t x).cur = s.cur := rfl
@[simp] theorem setChan_chan_same (s : State) (t : Nat) (x : Chan) : (s.setChan t x).chan t = x := tabGet_tabPut_same ..
theorem setChan_chan_other (s : State) (t : Nat) (x : Chan) (u : Nat) (h : u ≠ t) : (s.setChan t x).chan u = s.chan u :=
  tabGet_tabPut_other _ _ _ _ _ h
@[simp] theorem setChan_tile (s : State) (t : Nat) (x : Chan) (u : Nat) : (s.setChan t x).tile u = s.tile u := rfl
@[simp] theorem setChan_pe (s : State) (t : Nat) (x : Chan) (u : Nat) : (s.setChan t x).pe u = s.pe u := rfl
@[simp] theorem setChan_region (s : State) (t : Nat) (x : Chan) (u : Nat) : (s.setChan t x).region u = s.region u := rfl
@[simp] theorem setChan_tx (s : State) (t : Nat) (x : Chan) (u : Nat) : (s.setChan t x).tx u = s.tx u := rfl
@[simp] theorem setChan_part (s : State) (t : Nat) (x : Chan) (u : Nat) : (s.setChan t x).part u = s.part u := rfl
@[simp] theorem setChan_eyelet (s : State) (t : Nat) (x : Chan) (u : Nat) : (s.setChan t x).eyelet u = s.eyelet u := rfl
@[simp] theorem setChan_triple (s : State) (t : Nat) (x : Chan) (u : Nat) : (s.setChan t x).triple u = s.triple u := rfl
@[simp] theorem setChan_node (s : State) (t : Nat) (x : Chan) (u : Nat) : (s.setChan t x).node u = s.node u := rfl

/-! ### setTx -/

@[simp] theorem setTx_cycle (s : State) (t : Nat) (x : Transmitter) : (s.setTx t x).cycle = s.cycle := rfl
@[simp] theorem setTx_gslot (s : State) (t : Nat) (x : Transmitter) : (s.setTx t x).gslot = s.gslot := rfl
@[simp] theorem setTx_number (s : State) (t : Nat) (x : Transmitter) : (s.setTx t x).number = s.number := rfl
@[simp] theorem setTx_slotError (s : State) (t : Nat) (x : Transmitter) : (s.setTx t x).slotError = s.slotError := rfl
@[simp] theorem setTx_halt (s : State) (t : Nat) (x : Transmitter) : (s.setTx t x).halt = s.halt := rfl
@[simp] theorem setTx_suspend (s : State) (t : Nat) (x : Transmitter) : (s.setTx t x).suspend = s.suspend := rfl
@[simp] theorem setTx_tiles (s : State) (t : Nat) (x : Transmitter) : (s.setTx t x).tiles = s.tiles := rfl
@[simp] theorem setTx_pes (s : State) (t : Nat) (x : Transmitter) : (s.setTx t x).pes = s.pes := rfl
@[simp] theorem setTx_regions (s : State) (t : Nat) (x : Transmitter) : (s.setTx t x).regions = s.regions := rfl
@[simp] theorem setTx_chans (s : State) (t : Nat) (x : Transmitter) : (s.setTx t x).chans = s.chans := rfl
@[simp] theorem setTx_groups (s : State) (t : Nat) (x : Transmitter) : (s.setTx t x).groups = s.groups := rfl
@[simp] theorem setTx_travels (s : State) (t : Nat) (x : Transmitter) : (s.setTx t x).travels = s.travels := rfl
@[simp] theorem setTx_nextTravel (s : State) (t : Nat) (x : Transmitter) : (s.setTx t x).nextTravel = s.nextTravel := rfl
@[simp] theorem setTx_links (s : State) (t : Nat) (x : Transmitter) : (s.setTx t x).links = s.links := rfl
@[simp] theorem setTx_triples (s : State) (t : Nat) (x : Transmitter) : (s.setTx t x).triples = s.triples := rfl
@[simp] theorem setTx_nodes (s : State) (t : Nat) (x : Transmitter) : (s.setTx t x).nodes = s.nodes := rfl
@[simp] theorem setTx_parts (s : State) (t : Nat) (x : Transmitter) : (s.setTx t x).parts = s.parts := rfl
@[simp] theorem setTx_eyelets (s : State) (t : Nat) (x : Transmitter) : (s.setTx t x).eyelets = s.eyelets := rfl
@[simp] theorem setTx_ctl (s : State) (t : Nat) (x : Transmitter) : (s.setTx t x).ctl = s.ctl := rfl
@[simp] theorem setTx_host (s : State) (t : Nat) (x : Transmitter) : (s.setTx t x).host = s.host := rfl
@[simp] theorem setTx_flaws (s : State) (t : Nat) (x : Transmitter) : (s.setTx t x).flaws = s.flaws := rfl
@[simp] theorem setTx_reloading (s : State) (t : Nat) (x : Transmitter) : (s.setTx t x).reloading = s.reloading := rfl
@[simp] theorem setTx_arrivals (s : State) (t : Nat) (x : Transmitter) : (s.setTx t x).arrivals = s.arrivals := rfl
@[simp] theorem setTx_agenda (s : State) (t : Nat) (x : Transmitter) : (s.setTx t x).agenda = s.agenda := rfl
@[simp] theorem setTx_timers (s : State) (t : Nat) (x : Transmitter) : (s.setTx t x).timers = s.timers := rfl
@[simp] theorem setTx_sched (s : State) (t : Nat) (x : Transmitter) : (s.setTx t x).sched = s.sched := rfl
@[simp] theorem setTx_free (s : State) (t : Nat) (x : Transmitter) : (s.setTx t x).free = s.free := rfl
@[simp] theorem setTx_cur (s : State) (t : Nat) (x : Transmitter) : (s.setTx t x).cur = s.cur := rfl
@[simp] theorem setTx_tx_same (s : State) (t : Nat) (x : Transmitter) : (s.setTx t x).tx t = x := tabGet_tabPut_same ..
theorem setTx_tx_other (s : State) (t : Nat) (x : Transmitter) (u : Nat) (h : u ≠ t) : (s.setTx t x).tx u = s.tx u :=
  tabGet_tabPut_other _ _ _ _ _ h
@[simp] theorem setTx_tile (s : State) (t : Nat) (x : Transmitter) (u : Nat) : (s.setTx t x).tile u = s.tile u := rfl
@[simp] theorem setTx_pe (s : State) (t : Nat) (x : Transmitter) (u : Nat) : (s.setTx t x).pe u = s.pe u := rfl
@[simp] theorem setTx_region (s : State) (t : Nat) (x : Transmitter) (u : Nat) : (s.setTx t x).region u = s.region u := rfl
@[simp] theorem setTx_chan (s : State) (t : Nat) (x : Transmitter) (u : Nat) : (s.setTx t x).chan u = s.chan u := rfl
@[simp] theorem setTx_part (s : State) (t : Nat) (x : Transmitter) (u : Nat) : (s.setTx t x).part u = s.part u := rfl
@[simp] theorem setTx_eyelet (s : State) (t : Nat) (x : Transmitter) (u : Nat) : (s.setTx t x).eyelet u = s.eyelet u := rfl
@[simp] theorem setTx_triple (s : State) (t : Nat) (x : Transmitter) (u : Nat) : (s.setTx t x).triple u = s.triple u := rfl
@[simp] theorem setTx_node (s : State) (t : Nat) (x : Transmitter) (u : Nat) : (s.setTx t x).node u = s.node u := rfl

/-! ### setPart -/

@[simp] theorem setPart_cycle (s : State) (t : Nat) (x : Partition) : (s.setPart t x).cycle = s.cycle := rfl
@[simp] theorem setPart_gslot (s : State) (t : Nat) (x : Partition) : (s.setPart t x).gslot = s.gslot := rfl
@[simp] theorem setPart_number (s : State) (t : Nat) (x : Partition) : (s.setPart t x).number = s.number := rfl
@[simp] theorem setPart_slotError (s : State) (t : Nat) (x : Partition) : (s.setPart t x).slotError = s.slotError := rfl
@[simp] theorem setPart_halt (s : State) (t : Nat) (x : Partition) : (s.setPart t x).halt = s.halt := rfl
@[simp] theorem setPart_suspend (s : State) (t : Nat) (x : Partition) : (s.setPart t x).suspend = s.suspend := rfl
@[simp] theorem setPart_tiles (s : State) (t : Nat) (x : Partition) : (s.setPart t x).tiles = s.tiles := rfl
@[simp] theorem setPart_pes (s : State) (t : Nat) (x : Partition) : (s.setPart t x).pes = s.pes := rfl
@[simp] theorem setPart_regions (s : State) (t : Nat) (x : Partition) : (s.setPart t x).regions = s.regions := rfl
@[simp] theorem setPart_chans (s : State) (t : Nat) (x : Partition) : (s.setPart t x).chans = s.chans := rfl
@[simp] theorem setPart_txs (s : State) (t : Nat) (x : Partition) : (s.setPart t x).txs = s.txs := rfl
@[simp] theorem setPart_groups (s : State) (t : Nat) (x : Partition) : (s.setPart t x).groups = s.groups := rfl
@[simp] theorem setPart_travels (s : State) (t : Nat) (x : Partition) : (s.setPart t x).travels = s.travels := rfl
@[simp] theorem setPart_nextTravel (s : State) (t : Nat) (x : Partition) : (s.setPart t x).nextTravel = s.nextTravel := rfl
@[simp] theorem setPart_links (s : State) (t : Nat) (x : Partition) : (s.setPart t x).links = s.links := rfl
@[simp] theorem setPart_triples (s : State) (t : Nat) (x : Partition) : (s.setPart t x).triples = s.triples := rfl
@[simp] theorem setPart_nodes (s : State) (t : Nat) (x : Partition) : (s.setPart t x).nodes = s.nodes := rfl
@[simp] theorem setPart_eyelets (s : State) (t : Nat) (x : Partition) : (s.setPart t x).eyelets = s.eyelets := rfl
@[simp] theorem setPart_ctl (s : State) (t : Nat) (x : Partition) : (s.setPart t x).ctl = s.ctl := rfl
@[simp] theorem setPart_host (s : State) (t : Nat) (x : Partition) : (s.setPart t x).host = s.host := rfl
@[simp] theorem setPart_flaws (s : State) (t : Nat) (x : Partition) : (s.setPart t x).flaws = s.flaws := rfl
@[simp] theorem setPart_reloading (s : State) (t : Nat) (x : Partition) : (s.setPart t x).reloading = s.reloading := rfl
@[simp] theorem setPart_arrivals (s : State) (t : Nat) (x : Partition) : (s.setPart t x).arrivals = s.arrivals := rfl
@[simp] theorem setPart_agenda (s : State) (t : Nat) (x : Partition) : (s.setPart t x).agenda = s.agenda := rfl
@[simp] theorem setPart_timers (s : State) (t : Nat) (x : Partition) : (s.setPart t x).timers = s.timers := rfl
@[simp] theorem setPart_sched (s : State) (t : Nat) (x : Partition) : (s.setPart t x).sched = s.sched := rfl
@[simp] theorem setPart_free (s : State) (t : Nat) (x : Partition) : (s.setPart t x).free = s.free := rfl
@[simp] theorem setPart_cur (s : State) (t : Nat) (x : Partition) : (s.setPart t x).cur = s.cur := rfl
@[simp] theorem setPart_part_same (s : State) (t : Nat) (x : Partition) : (s.setPart t x).part t = x := tabGet_tabPut_same ..
theorem setPart_part_other (s : State) (t : Nat) (x : Partition) (u : Nat) (h : u ≠ t) : (s.setPart t x).part u = s.part u :=
  tabGet_tabPut_other _ _ _ _ _ h
@[simp] theorem setPart_tile (s : State) (t : Nat) (x : Partition) (u : Nat) : (s.setPart t x).tile u = s.tile u := rfl
@[simp] theorem setPart_pe (s : State) (t : Nat) (x : Partition) (u : Nat) : (s.setPart t x).pe u = s.pe u := rfl
@[simp] theorem setPart_region (s : State) (t : Nat) (x : Partition) (u : Nat) : (s.setPart t x).region u = s.region u := rfl
@[simp] theorem setPart_chan (s : State) (t : Nat) (x : Partition) (u : Nat) : (s.setPart t x).chan u = s.chan u := rfl
@[simp] theorem setPart_tx (s : State) (t : Nat) (x : Partition) (u : Nat) : (s.setPart t x).tx u = s.tx u := rfl
@[simp] theorem setPart_eyelet (s : State) (t : Nat) (x : Partition) (u : Nat) : (s.setPart t x).eyelet u = s.eyelet u := rfl
@[simp] theorem setPart_triple (s : State) (t : Nat) (x : Partition) (u : Nat) : (s.setPart t x).triple u = s.triple u := rfl
@[simp] theorem setPart_node (s : State) (t : Nat) (x : Partition) (u : Nat) : (s.setPart t x).node u = s.node u := rfl

/-! ### setEyelet -/

@[simp] theorem setEyelet_cycle (s : State) (t : Nat) (x : Eyelet) : (s.setEyelet t x).cycle = s.cycle := rfl
@[simp] theorem setEyelet_gslot (s : State) (t : Nat) (x : Eyelet) : (s.setEyelet t x).gslot = s.gslot := rfl
@[simp] theorem setEyelet_number (s : State) (t : Nat) (x : Eyelet) : (s.setEyelet t x).number = s.number := rfl
@[simp] theorem setEyelet_slotError (s : State) (t : Nat) (x : Eyelet) : (s.setEyelet t x).slotError = s.slotError := rfl
@[simp] theorem setEyelet_halt (s : State) (t : Nat) (x : Eyelet) : (s.setEyelet t x).halt = s.halt := rfl
@[simp] theorem setEyelet_suspend (s : State) (t : Nat) (x : Eyelet) : (s.setEyelet t x).suspend = s.suspend := rfl
@[simp] theorem setEyelet_tiles (s : State) (t : Nat) (x : Eyelet) : (s.setEyelet t x).tiles = s.tiles := rfl
@[simp] theorem setEyelet_pes (s : State) (t : Nat) (x : Eyelet) : (s.setEyelet t x).pes = s.pes := rfl
@[simp] theorem setEyelet_regions (s : State) (t : Nat) (x : Eyelet) : (s.setEyelet t x).regions = s.regions := rfl
@[simp] theorem setEyelet_chans (s : State) (t : Nat) (x : Eyelet) : (s.setEyelet t x).chans = s.chans := rfl
@[simp] theorem setEyelet_txs (s : State) (t : Nat) (x : Eyelet) : (s.setEyelet t x).txs = s.txs := rfl
@[simp] theorem setEyelet_groups (s : State) (t : Nat) (x : Eyelet) : (s.setEyelet t x).groups = s.groups := rfl
@[simp] theorem setEyelet_travels (s : State) (t : Nat) (x : Eyelet) : (s.setEyelet t x).travels = s.travels := rfl
@[simp] theorem setEyelet_nextTravel (s : State) (t : Nat) (x : Eyelet) : (s.setEyelet t x).nextTravel = s.nextTravel := rfl
@[simp] theorem setEyelet_links (s : State) (t : Nat) (x : Eyelet) : (s.setEyelet t x).links = s.links := rfl
@[simp] theorem setEyelet_triples (s : State) (t : Nat) (x : Eyelet) : (s.setEyelet t x).triples = s.triples := rfl
@[simp] theorem setEyelet_nodes (s : State) (t : Nat) (x : Eyelet) : (s.setEyelet t x).nodes = s.nodes := rfl
@[simp] theorem setEyelet_parts (s : State) (t : Nat) (x : Eyelet) : (s.setEyelet t x).parts = s.parts := rfl
@[simp] theorem setEyelet_ctl (s : State) (t : Nat) (x : Eyelet) : (s.setEyelet t x).ctl = s.ctl := rfl
@[simp] theorem setEyelet_host (s : State) (t : Nat) (x : Eyelet) : (s.setEyelet t x).host = s.host := rfl
@[simp] theorem setEyelet_flaws (s : State) (t : Nat) (x : Eyelet) : (s.setEyelet t x).flaws = s.flaws := rfl
@[simp] theorem setEyelet_reloading (s : State) (t : Nat) (x : Eyelet) : (s.setEyelet t x).reloading = s.reloading := rfl
@[simp] theorem setEyelet_arrivals (s : State) (t : Nat) (x : Eyelet) : (s.setEyelet t x).arrivals = s.arrivals := rfl
@[simp] theorem setEyelet_agenda (s : State) (t : Nat) (x : Eyelet) : (s.setEyelet t x).agenda = s.agenda := rfl
@[simp] theorem setEyelet_timers (s : State) (t : Nat) (x : Eyelet) : (s.setEyelet t x).timers = s.timers := rfl
@[simp] theorem setEyelet_sched (s : State) (t : Nat) (x : Eyelet) : (s.setEyelet t x).sched = s.sched := rfl
@[simp] theorem setEyelet_free (s : State) (t : Nat) (x : Eyelet) : (s.setEyelet t x).free = s.free := rfl
@[simp] theorem setEyelet_cur (s : State) (t : Nat) (x : Eyelet) : (s.setEyelet t x).cur = s.cur := rfl
@[simp] theorem setEyelet_eyelet_same (s : State) (t : Nat) (x : Eyelet) : (s.setEyelet t x).eyelet t = x := tabGet_tabPut_same ..
theorem setEyelet_eyelet_other (s : State) (t : Nat) (x : Eyelet) (u : Nat) (h : u ≠ t) : (s.setEyelet t x).eyelet u = s.eyelet u :=
  tabGet_tabPut_other _ _ _ _ _ h
@[simp] theorem setEyelet_tile (s : State) (t : Nat) (x : Eyelet) (u : Nat) : (s.setEyelet t x).tile u = s.tile u := rfl
@[simp] theorem setEyelet_pe (s : State) (t : Nat) (x : Eyelet) (u : Nat) : (s.setEyelet t x).pe u = s.pe u := rfl
@[simp] theorem setEyelet_region (s : State) (t : Nat) (x : Eyelet) (u : Nat) : (s.setEyelet t x).region u = s.region u := rfl
@[simp] theorem setEyelet_chan (s : State) (t : Nat) (x : Eyelet) (u : Nat) : (s.setEyelet t x).chan u = s.chan u := rfl
@[simp] theorem setEyelet_tx (s : State) (t : Nat) (x : Eyelet) (u : Nat) : (s.setEyelet t x).tx u = s.tx u := rfl
@[simp] theorem setEyelet_part (s : State) (t : Nat) (x : Eyelet) (u : Nat) : (s.setEyelet t x).part u = s.part u := rfl
@[simp] theorem setEyelet_triple (s : State) (t : Nat) (x : Eyelet) (u : Nat) : (s.setEyelet t x).triple u = s.triple u := rfl
@[simp] theorem setEyelet_node (s : State) (t : Nat) (x : Eyelet) (u : Nat) : (s.setEyelet t x).node u = s.node u := rfl

/-! ### setTriple -/

@[simp] theorem setTriple_cycle (s : State) (t : Nat) (x : Triple) : (s.setTriple t x).cycle = s.cycle := rfl
@[simp] theorem setTriple_gslot (s : State) (t : Nat) (x : Triple) : (s.setTriple t x).gslot = s.gslot := rfl
@[simp] theorem setTriple_number (s : State) (t : Nat) (x : Triple) : (s.setTriple t x).number = s.number := rfl
@[simp] theorem setTriple_slotError (s : State) (t : Nat) (x : Triple) : (s.setTriple t x).slotError = s.slotError := rfl
@[simp] theorem setTriple_halt (s : State) (t : Nat) (x : Triple) : (s.setTriple t x).halt = s.halt := rfl
@[simp] theorem setTriple_suspend (s : State) (t : Nat) (x : Triple) : (s.setTriple t x).suspend = s.suspend := rfl
@[simp] theorem setTriple_tiles (s : State) (t : Nat) (x : Triple) : (s.setTriple t x).tiles = s.tiles := rfl
@[simp] theorem setTriple_pes (s : State) (t : Nat) (x : Triple) : (s.setTriple t x).pes = s.pes := rfl
@[simp] theorem setTriple_regions (s : State) (t : Nat) (x : Triple) : (s.setTriple t x).regions = s.regions := rfl
@[simp] theorem setTriple_chans (s : State) (t : Nat) (x : Triple) : (s.setTriple t x).chans = s.chans := rfl
@[simp] theorem setTriple_txs (s : State) (t : Nat) (x : Triple) : (s.setTriple t x).txs = s.txs := rfl
@[simp] theorem setTriple_groups (s : State) (t : Nat) (x : Triple) : (s.setTriple t x).groups = s.groups := rfl
@[simp] theorem setTriple_travels (s : State) (t : Nat) (x : Triple) : (s.setTriple t x).travels = s.travels := rfl
@[simp] theorem setTriple_nextTravel (s : State) (t : Nat) (x : Triple) : (s.setTriple t x).nextTravel = s.nextTravel := rfl
@[simp] theorem setTriple_links (s : State) (t : Nat) (x : Triple) : (s.setTriple t x).links = s.links := rfl
@[simp] theorem setTriple_nodes (s : State) (t : Nat) (x : Triple) : (s.setTriple t x).nodes = s.nodes := rfl
@[simp] theorem setTriple_parts (s : State) (t : Nat) (x : Triple) : (s.setTriple t x).parts = s.parts := rfl
@[simp] theorem setTriple_eyelets (s : State) (t : Nat) (x : Triple) : (s.setTriple t x).eyelets = s.eyelets := rfl
@[simp] theorem setTriple_ctl (s : State) (t : Nat) (x : Triple) : (s.setTriple t x).ctl = s.ctl := rfl
@[simp] theorem setTriple_host (s : State) (t : Nat) (x : Triple) : (s.setTriple t x).host = s.host := rfl
@[simp] theorem setTriple_flaws (s : State) (t : Nat) (x : Triple) : (s.setTriple t x).flaws = s.flaws := rfl
@[simp] theorem setTriple_reloading (s : State) (t : Nat) (x : Triple) : (s.setTriple t x).reloading = s.reloading := rfl
@[simp] theorem setTriple_arrivals (s : State) (t : Nat) (x : Triple) : (s.setTriple t x).arrivals = s.arrivals := rfl
@[simp] theorem setTriple_agenda (s : State) (t : Nat) (x : Triple) : (s.setTriple t x).agenda = s.agenda := rfl
@[simp] theorem setTriple_timers (s : State) (t : Nat) (x : Triple) : (s.setTriple t x).timers = s.timers := rfl
@[simp] theorem setTriple_sched (s : State) (t : Nat) (x : Triple) : (s.setTriple t x).sched = s.sched := rfl
@[simp] theorem setTriple_free (s : State) (t : Nat) (x : Triple) : (s.setTriple t x).free = s.free := rfl
@[simp] theorem setTriple_cur (s : State) (t : Nat) (x : Triple) : (s.setTriple t x).cur = s.cur := rfl
@[simp] theorem setTriple_triple_same (s : State) (t : Nat) (x : Triple) : (s.setTriple t x).triple t = x := tabGet_tabPut_same ..
theorem setTriple_triple_other (s : State) (t : Nat) (x : Triple) (u : Nat) (h : u ≠ t) : (s.setTriple t x).triple u = s.triple u :=
  tabGet_tabPut_other _ _ _ _ _ h
@[simp] theorem setTriple_tile (s : State) (t : Nat) (x : Triple) (u : Nat) : (s.setTriple t x).tile u = s.tile u := rfl
@[simp] theorem setTriple_pe (s : State) (t : Nat) (x : Triple) (u : Nat) : (s.setTriple t x).pe u = s.pe u := rfl
@[simp] theorem setTriple_region (s : State) (t : Nat) (x : Triple) (u : Nat) : (s.setTriple t x).region u = s.region u := rfl
@[simp] theorem setTriple_chan (s : State) (t : Nat) (x : Triple) (u : Nat) : (s.setTriple t x).chan u = s.chan u := rfl
@[simp] theorem setTriple_tx (s : State) (t : Nat) (x : Triple) (u : Nat) : (s.setTriple t x).tx u = s.tx u := rfl
@[simp] theorem setTriple_part (s : State) (t : Nat) (x : Triple) (u : Nat) : (s.setTriple t x).part u = s.part u := rfl
@[simp] theorem setTriple_eyelet (s : State) (t : Nat) (x : Triple) (u : Nat) : (s.setTriple t x).eyelet u = s.eyelet u := rfl
@[simp] theorem setTriple_node (s : State) (t : Nat) (x : Triple) (u : Nat) : (s.setTriple t x).node u = s.node u := rfl

/-! ### setNode -/

@[simp] theorem setNode_cycle (s : State) (t : Nat) (x : TreeNode) : (s.setNode t x).cycle = s.cycle := rfl
@[simp] theorem setNode_gslot (s : State) (t : Nat) (x : TreeNode) : (s.setNode t x).gslot = s.gslot := rfl
@[simp] theorem setNode_number (s : State) (t : Nat) (x : TreeNode) : (s.setNode t x).number = s.number := rfl
@[simp] theorem setNode_slotError (s : State) (t : Nat) (x : TreeNode) : (s.setNode t x).slotError = s.slotError := rfl
@[simp] theorem setNode_halt (s : State) (t : Nat) (x : TreeNode) : (s.setNode t x).halt = s.halt := rfl
@[simp] theorem setNode_suspend (s : State) (t : Nat) (x : TreeNode) : (s.setNode t x).suspend = s.suspend := rfl
@[simp] theorem setNode_tiles (s : State) (t : Nat) (x : TreeNode) : (s.setNode t x).tiles = s.tiles := rfl
@[simp] theorem setNode_pes (s : State) (t : Nat) (x : TreeNode) : (s.setNode t x).pes = s.pes := rfl
@[simp] theorem setNode_regions (s : State) (t : Nat) (x : TreeNode) : (s.setNode t x).regions = s.regions := rfl
@[simp] theorem setNode_chans (s : State) (t : Nat) (x : TreeNode) : (s.setNode t x).chans = s.chans := rfl
@[simp] theorem setNode_txs (s : State) (t : Nat) (x : TreeNode) : (s.setNode t x).txs = s.txs := rfl
@[simp] theorem setNode_groups (s : State) (t : Nat) (x : TreeNode) : (s.setNode t x).groups = s.groups := rfl
@[simp] theorem setNode_travels (s : State) (t : Nat) (x : TreeNode) : (s.setNode t x).travels = s.travels := rfl
@[simp] theorem setNode_nextTravel (s : State) (t : Nat) (x : TreeNode) : (s.setNode t x).nextTravel = s.nextTravel := rfl
@[simp] theorem setNode_links (s : State) (t : Nat) (x : TreeNode) : (s.setNode t x).links = s.links := rfl
@[simp] theorem setNode_triples (s : State) (t : Nat) (x : TreeNode) : (s.setNode t x).triples = s.triples := rfl
@[simp] theorem setNode_parts (s : State) (t : Nat) (x : TreeNode) : (s.setNode t x).parts = s.parts := rfl
@[simp] theorem setNode_eyelets (s : State) (t : Nat) (x : TreeNode) : (s.setNode t x).eyelets = s.eyelets := rfl
@[simp] theorem setNode_ctl (s : State) (t : Nat) (x : TreeNode) : (s.setNode t x).ctl = s.ctl := rfl
@[simp] theorem setNode_host (s : State) (t : Nat) (x : TreeNode) : (s.setNode t x).host = s.host := rfl
@[simp] theorem setNode_flaws (s : State) (t : Nat) (x : TreeNode) : (s.setNode t x).flaws = s.flaws := rfl
@[simp] theorem setNode_reloading (s : State) (t : Nat) (x : TreeNode) : (s.setNode t x).reloading = s.reloading := rfl
@[simp] theorem setNode_arrivals (s : State) (t : Nat) (x : TreeNode) : (s.setNode t x).arrivals = s.arrivals := rfl
@[simp] theorem setNode_agenda (s : State) (t : Nat) (x : TreeNode) : (s.setNode t x).agenda = s.agenda := rfl
@[simp] theorem setNode_timers (s : State) (t : Nat) (x : TreeNode) : (s.setNode t x).timers = s.timers := rfl
@[simp] theorem setNode_sched (s : State) (t : Nat) (x : TreeNode) : (s.setNode t x).sched = s.sched := rfl
@[simp] theorem setNode_free (s : State) (t : Nat) (x : TreeNode) : (s.setNode t x).free = s.free := rfl
@[simp] theorem setNode_cur (s : State) (t : Nat) (x : TreeNode) : (s.setNode t x).cur = s.cur := rfl
@[simp] theorem setNode_node_same (s : State) (t : Nat) (x : TreeNode) : (s.setNode t x).node t = x := tabGet_tabPut_same ..
theorem setNode_node_other (s : State) (t : Nat) (x : TreeNode) (u : Nat) (h : u ≠ t) : (s.setNode t x).node u = s.node u :=
  tabGet_tabPut_other _ _ _ _ _ h
@[simp] theorem setNode_tile (s : State) (t : Nat) (x : TreeNode) (u : Nat) : (s.setNode t x).tile u = s.tile u := rfl
@[simp] theorem setNode_pe (s : State) (t : Nat) (x : TreeNode) (u : Nat) : (s.setNode t x).pe u = s.pe u := rfl
@[simp] theorem setNode_region (s : State) (t : Nat) (x : TreeNode) (u : Nat) : (s.setNode t x).region u = s.region u := rfl
@[simp] theorem setNode_chan (s : State) (t : Nat) (x : TreeNode) (u : Nat) : (s.setNode t x).chan u = s.chan u := rfl
@[simp] theorem setNode_tx (s : State) (t : Nat) (x : TreeNode) (u : Nat) : (s.setNode t x).tx u = s.tx u := rfl
@[simp] theorem setNode_part (s : State) (t : Nat) (x : TreeNode) (u : Nat) : (s.setNode t x).part u = s.part u := rfl
@[simp] theorem setNode_eyelet (s : State) (t : Nat) (x : TreeNode) (u : Nat) : (s.setNode t x).eyelet u = s.eyelet u := rfl
@[simp] theorem setNode_triple (s : State) (t : Nat) (x : TreeNode) (u : Nat) : (s.setNode t x).triple u = s.triple u := rfl

/-! ### enqueue -/

@[simp] theorem enqueue_cycle (s : State) (w : Work) : (s.enqueue w).cycle = s.cycle := rfl
@[simp] theorem enqueue_gslot (s : State) (w : Work) : (s.enqueue w).gslot = s.gslot := rfl
@[simp] theorem enqueue_number (s : State) (w : Work) : (s.enqueue w).number = s.number := rfl
@[simp] theorem enqueue_slotError (s : State) (w : Work) : (s.enqueue w).slotError = s.slotError := rfl
@[simp] theorem enqueue_halt (s : State) (w : Work) : (s.enqueue w).halt = s.halt := rfl
@[simp] theorem enqueue_suspend (s : State) (w : Work) : (s.enqueue w).suspend = s.suspend := rfl
@[simp] theorem enqueue_tiles (s : State) (w : Work) : (s.enqueue w).tiles = s.tiles := rfl
@[simp] theorem enqueue_pes (s : State) (w : Work) : (s.enqueue w).pes = s.pes := rfl
@[simp] theorem enqueue_regions (s : State) (w : Work) : (s.enqueue w).regions = s.regions := rfl
@[simp] theorem enqueue_chans (s : State) (w : Work) : (s.enqueue w).chans = s.chans := rfl
@[simp] theorem enqueue_txs (s : State) (w : Work) : (s.enqueue w).txs = s.txs := rfl
@[simp] theorem enqueue_groups (s : State) (w : Work) : (s.enqueue w).groups = s.groups := rfl
@[simp] theorem enqueue_travels (s : State) (w : Work) : (s.enqueue w).travels = s.travels := rfl
@[simp] theorem enqueue_nextTravel (s : State) (w : Work) : (s.enqueue w).nextTravel = s.nextTravel := rfl
@[simp] theorem enqueue_links (s : State) (w : Work) : (s.enqueue w).links = s.links := rfl
@[simp] theorem enqueue_triples (s : State) (w : Work) : (s.enqueue w).triples = s.triples := rfl
@[simp] theorem enqueue_nodes (s : State) (w : Work) : (s.enqueue w).nodes = s.nodes := rfl
@[simp] theorem enqueue_parts (s : State) (w : Work) : (s.enqueue w).parts = s.parts := rfl
@[simp] theorem enqueue_eyelets (s : State) (w : Work) : (s.enqueue w).eyelets = s.eyelets := rfl
@[simp] theorem enqueue_ctl (s : State) (w : Work) : (s.enqueue w).ctl = s.ctl := rfl
@[simp] theorem enqueue_host (s : State) (w : Work) : (s.enqueue w).host = s.host := rfl
@[simp] theorem enqueue_flaws (s : State) (w : Work) : (s.enqueue w).flaws = s.flaws := rfl
@[simp] theorem enqueue_reloading (s : State) (w : Work) : (s.enqueue w).reloading = s.reloading := rfl
@[simp] theorem enqueue_arrivals (s : State) (w : Work) : (s.enqueue w).arrivals = s.arrivals := rfl
@[simp] theorem enqueue_timers (s : State) (w : Work) : (s.enqueue w).timers = s.timers := rfl
@[simp] theorem enqueue_sched (s : State) (w : Work) : (s.enqueue w).sched = s.sched := rfl
@[simp] theorem enqueue_free (s : State) (w : Work) : (s.enqueue w).free = s.free := rfl
@[simp] theorem enqueue_cur (s : State) (w : Work) : (s.enqueue w).cur = s.cur := rfl
@[simp] theorem enqueue_tile (s : State) (w : Work) (u : Nat) : (s.enqueue w).tile u = s.tile u := rfl
@[simp] theorem enqueue_pe (s : State) (w : Work) (u : Nat) : (s.enqueue w).pe u = s.pe u := rfl
@[simp] theorem enqueue_region (s : State) (w : Work) (u : Nat) : (s.enqueue w).region u = s.region u := rfl
@[simp] theorem enqueue_chan (s : State) (w : Work) (u : Nat) : (s.enqueue w).chan u = s.chan u := rfl
@[simp] theorem enqueue_tx (s : State) (w : Work) (u : Nat) : (s.enqueue w).tx u = s.tx u := rfl
@[simp] theorem enqueue_part (s : State) (w : Work) (u : Nat) : (s.enqueue w).part u = s.part u := rfl
@[simp] theorem enqueue_eyelet (s : State) (w : Work) (u : Nat) : (s.enqueue w).eyelet u = s.eyelet u := rfl
@[simp] theorem enqueue_triple (s : State) (w : Work) (u : Nat) : (s.enqueue w).triple u = s.triple u := rfl
@[simp] theorem enqueue_node (s : State) (w : Work) (u : Nat) : (s.enqueue w).node u = s.node u := rfl

/-! ### event -/

@[simp] theorem event_cycle (s : State) (e : Event) : (s.event e).cycle = s.cycle := rfl
@[simp] theorem event_gslot (s : State) (e : Event) : (s.event e).gslot = s.gslot := rfl
@[simp] theorem event_number (s : State) (e : Event) : (s.event e).number = s.number := rfl
@[simp] theorem event_slotError (s : State) (e : Event) : (s.event e).slotError = s.slotError := rfl
@[simp] theorem event_halt (s : State) (e : Event) : (s.event e).halt = s.halt := rfl
@[simp] theorem event_suspend (s : State) (e : Event) : (s.event e).suspend = s.suspend := rfl
@[simp] theorem event_tiles (s : State) (e : Event) : (s.event e).tiles = s.tiles := rfl
@[simp] theorem event_pes (s : State) (e : Event) : (s.event e).pes = s.pes := rfl
@[simp] theorem event_regions (s : State) (e : Event) : (s.event e).regions = s.regions := rfl
@[simp] theorem event_chans (s : State) (e : Event) : (s.event e).chans = s.chans := rfl
@[simp] theorem event_txs (s : State) (e : Event) : (s.event e).txs = s.txs := rfl
@[simp] theorem event_groups (s : State) (e : Event) : (s.event e).groups = s.groups := rfl
@[simp] theorem event_travels (s : State) (e : Event) : (s.event e).travels = s.travels := rfl
@[simp] theorem event_nextTravel (s : State) (e : Event) : (s.event e).nextTravel = s.nextTravel := rfl
@[simp] theorem event_links (s : State) (e : Event) : (s.event e).links = s.links := rfl
@[simp] theorem event_triples (s : State) (e : Event) : (s.event e).triples = s.triples := rfl
@[simp] theorem event_nodes (s : State) (e : Event) : (s.event e).nodes = s.nodes := rfl
@[simp] theorem event_parts (s : State) (e : Event) : (s.event e).parts = s.parts := rfl
@[simp] theorem event_eyelets (s : State) (e : Event) : (s.event e).eyelets = s.eyelets := rfl
@[simp] theorem event_ctl (s : State) (e : Event) : (s.event e).ctl = s.ctl := rfl
@[simp] theorem event_host (s : State) (e : Event) : (s.event e).host = s.host := rfl
@[simp] theorem event_flaws (s : State) (e : Event) : (s.event e).flaws = s.flaws := rfl
@[simp] theorem event_reloading (s : State) (e : Event) : (s.event e).reloading = s.reloading := rfl
@[simp] theorem event_arrivals (s : State) (e : Event) : (s.event e).arrivals = s.arrivals := rfl
@[simp] theorem event_timers (s : State) (e : Event) : (s.event e).timers = s.timers := rfl
@[simp] theorem event_sched (s : State) (e : Event) : (s.event e).sched = s.sched := rfl
@[simp] theorem event_free (s : State) (e : Event) : (s.event e).free = s.free := rfl
@[simp] theorem event_cur (s : State) (e : Event) : (s.event e).cur = s.cur := rfl
@[simp] theorem event_tile (s : State) (e : Event) (u : Nat) : (s.event e).tile u = s.tile u := rfl
@[simp] theorem event_pe (s : State) (e : Event) (u : Nat) : (s.event e).pe u = s.pe u := rfl
@[simp] theorem event_region (s : State) (e : Event) (u : Nat) : (s.event e).region u = s.region u := rfl
@[simp] theorem event_chan (s : State) (e : Event) (u : Nat) : (s.event e).chan u = s.chan u := rfl
@[simp] theorem event_tx (s : State) (e : Event) (u : Nat) : (s.event e).tx u = s.tx u := rfl
@[simp] theorem event_part (s : State) (e : Event) (u : Nat) : (s.event e).part u = s.part u := rfl
@[simp] theorem event_eyelet (s : State) (e : Event) (u : Nat) : (s.event e).eyelet u = s.eyelet u := rfl
@[simp] theorem event_triple (s : State) (e : Event) (u : Nat) : (s.event e).triple u = s.triple u := rfl
@[simp] theorem event_node (s : State) (e : Event) (u : Nat) : (s.event e).node u = s.node u := rfl

/-! ### after -/

@[simp] theorem after_cycle (s : State) (n : Nat) (e : Event) : (s.after n e).cycle = s.cycle := rfl
@[simp] theorem after_gslot (s : State) (n : Nat) (e : Event) : (s.after n e).gslot = s.gslot := rfl
@[simp] theorem after_number (s : State) (n : Nat) (e : Event) : (s.after n e).number = s.number := rfl
@[simp] theorem after_slotError (s : State) (n : Nat) (e : Event) : (s.after n e).slotError = s.slotError := rfl
@[simp] theorem after_halt (s : State) (n : Nat) (e : Event) : (s.after n e).halt = s.halt := rfl
@[simp] theorem after_suspend (s : State) (n : Nat) (e : Event) : (s.after n e).suspend = s.suspend := rfl
@[simp] theorem after_tiles (s : State) (n : Nat) (e : Event) : (s.after n e).tiles = s.tiles := rfl
@[simp] theorem after_pes (s : State) (n : Nat) (e : Event) : (s.after n e).pes = s.pes := rfl
@[simp] theorem after_regions (s : State) (n : Nat) (e : Event) : (s.after n e).regions = s.regions := rfl
@[simp] theorem after_chans (s : State) (n : Nat) (e : Event) : (s.after n e).chans = s.chans := rfl
@[simp] theorem after_txs (s : State) (n : Nat) (e : Event) : (s.after n e).txs = s.txs := rfl
@[simp] theorem after_groups (s : State) (n : Nat) (e : Event) : (s.after n e).groups = s.groups := rfl
@[simp] theorem after_travels (s : State) (n : Nat) (e : Event) : (s.after n e).travels = s.travels := rfl
@[simp] theorem after_nextTravel (s : State) (n : Nat) (e : Event) : (s.after n e).nextTravel = s.nextTravel := rfl
@[simp] theorem after_links (s : State) (n : Nat) (e : Event) : (s.after n e).links = s.links := rfl
@[simp] theorem after_triples (s : State) (n : Nat) (e : Event) : (s.after n e).triples = s.triples := rfl
@[simp] theorem after_nodes (s : State) (n : Nat) (e : Event) : (s.after n e).nodes = s.nodes := rfl
@[simp] theorem after_parts (s : State) (n : Nat) (e : Event) : (s.after n e).parts = s.parts := rfl
@[simp] theorem after_eyelets (s : State) (n : Nat) (e : Event) : (s.after n e).eyelets = s.eyelets := rfl
@[simp] theorem after_ctl (s : State) (n : Nat) (e : Event) : (s.after n e).ctl = s.ctl := rfl
@[simp] theorem after_host (s : State) (n : Nat) (e : Event) : (s.after n e).host = s.host := rfl
@[simp] theorem after_flaws (s : State) (n : Nat) (e : Event) : (s.after n e).flaws = s.flaws := rfl
@[simp] theorem after_reloading (s : State) (n : Nat) (e : Event) : (s.after n e).reloading = s.reloading := rfl
@[simp] theorem after_arrivals (s : State) (n : Nat) (e : Event) : (s.after n e).arrivals = s.arrivals := rfl
@[simp] theorem after_agenda (s : State) (n : Nat) (e : Event) : (s.after n e).agenda = s.agenda := rfl
@[simp] theorem after_sched (s : State) (n : Nat) (e : Event) : (s.after n e).sched = s.sched := rfl
@[simp] theorem after_free (s : State) (n : Nat) (e : Event) : (s.after n e).free = s.free := rfl
@[simp] theorem after_cur (s : State) (n : Nat) (e : Event) : (s.after n e).cur = s.cur := rfl
@[simp] theorem after_tile (s : State) (n : Nat) (e : Event) (u : Nat) : (s.after n e).tile u = s.tile u := rfl
@[simp] theorem after_pe (s : State) (n : Nat) (e : Event) (u : Nat) : (s.after n e).pe u = s.pe u := rfl
@[simp] theorem after_region (s : State) (n : Nat) (e : Event) (u : Nat) : (s.after n e).region u = s.region u := rfl
@[simp] theorem after_chan (s : State) (n : Nat) (e : Event) (u : Nat) : (s.after n e).chan u = s.chan u := rfl
@[simp] theorem after_tx (s : State) (n : Nat) (e : Event) (u : Nat) : (s.after n e).tx u = s.tx u := rfl
@[simp] theorem after_part (s : State) (n : Nat) (e : Event) (u : Nat) : (s.after n e).part u = s.part u := rfl
@[simp] theorem after_eyelet (s : State) (n : Nat) (e : Event) (u : Nat) : (s.after n e).eyelet u = s.eyelet u := rfl
@[simp] theorem after_triple (s : State) (n : Nat) (e : Event) (u : Nat) : (s.after n e).triple u = s.triple u := rfl
@[simp] theorem after_node (s : State) (n : Nat) (e : Event) (u : Nat) : (s.after n e).node u = s.node u := rfl

/-! ### nextFree -/

@[simp] theorem nextFree_cycle (s : State) : (s.nextFree).cycle = s.cycle := rfl
@[simp] theorem nextFree_gslot (s : State) : (s.nextFree).gslot = s.gslot := rfl
@[simp] theorem nextFree_number (s : State) : (s.nextFree).number = s.number := rfl
@[simp] theorem nextFree_slotError (s : State) : (s.nextFree).slotError = s.slotError := rfl
@[simp] theorem nextFree_halt (s : State) : (s.nextFree).halt = s.halt := rfl
@[simp] theorem nextFree_suspend (s : State) : (s.nextFree).suspend = s.suspend := rfl
@[simp] theorem nextFree_tiles (s : State) : (s.nextFree).tiles = s.tiles := rfl
@[simp] theorem nextFree_pes (s : State) : (s.nextFree).pes = s.pes := rfl
@[simp] theorem nextFree_regions (s : State) : (s.nextFree).regions = s.regions := rfl
@[simp] theorem nextFree_chans (s : State) : (s.nextFree).chans = s.chans := rfl
@[simp] theorem nextFree_txs (s : State) : (s.nextFree).txs = s.txs := rfl
@[simp] theorem nextFree_groups (s : State) : (s.nextFree).groups = s.groups := rfl
@[simp] theorem nextFree_travels (s : State) : (s.nextFree).travels = s.travels := rfl
@[simp] theorem nextFree_nextTravel (s : State) : (s.nextFree).nextTravel = s.nextTravel := rfl
@[simp] theorem nextFree_links (s : State) : (s.nextFree).links = s.links := rfl
@[simp] theorem nextFree_triples (s : State) : (s.nextFree).triples = s.triples := rfl
@[simp] theorem nextFree_nodes (s : State) : (s.nextFree).nodes = s.nodes := rfl
@[simp] theorem nextFree_parts (s : State) : (s.nextFree).parts = s.parts := rfl
@[simp] theorem nextFree_eyelets (s : State) : (s.nextFree).eyelets = s.eyelets := rfl
@[simp] theorem nextFree_ctl (s : State) : (s.nextFree).ctl = s.ctl := rfl
@[simp] theorem nextFree_host (s : State) : (s.nextFree).host = s.host := rfl
@[simp] theorem nextFree_flaws (s : State) : (s.nextFree).flaws = s.flaws := rfl
@[simp] theorem nextFree_reloading (s : State) : (s.nextFree).reloading = s.reloading := rfl
@[simp] theorem nextFree_arrivals (s : State) : (s.nextFree).arrivals = s.arrivals := rfl
@[simp] theorem nextFree_agenda (s : State) : (s.nextFree).agenda = s.agenda := rfl
@[simp] theorem nextFree_timers (s : State) : (s.nextFree).timers = s.timers := rfl
@[simp] theorem nextFree_sched (s : State) : (s.nextFree).sched = s.sched := rfl
@[simp] theorem nextFree_cur (s : State) : (s.nextFree).cur = s.cur := rfl
@[simp] theorem nextFree_tile (s : State)  (u : Nat) : (s.nextFree).tile u = s.tile u := rfl
@[simp] theorem nextFree_pe (s : State)  (u : Nat) : (s.nextFree).pe u = s.pe u := rfl
@[simp] theorem nextFree_region (s : State)  (u : Nat) : (s.nextFree).region u = s.region u := rfl
@[simp] theorem nextFree_chan (s : State)  (u : Nat) : (s.nextFree).chan u = s.chan u := rfl
@[simp] theorem nextFree_tx (s : State)  (u : Nat) : (s.nextFree).tx u = s.tx u := rfl
@[simp] theorem nextFree_part (s : State)  (u : Nat) : (s.nextFree).part u = s.part u := rfl
@[simp] theorem nextFree_eyelet (s : State)  (u : Nat) : (s.nextFree).eyelet u = s.eyelet u := rfl
@[simp] theorem nextFree_triple (s : State)  (u : Nat) : (s.nextFree).triple u = s.triple u := rfl
@[simp] theorem nextFree_node (s : State)  (u : Nat) : (s.nextFree).node u = s.node u := rfl

@[simp] theorem event_agenda (s : State) (e : Event) : (s.event e).agenda = s.agenda ++ [.event e] := rfl
@[simp] theorem enqueue_agenda (s : State) (w : Work) : (s.enqueue w).agenda = s.agenda ++ [w] := rfl
@[simp] theorem after_timers (s : State) (n : Nat) (e : Event) : (s.after n e).timers = s.timers ++ [(s.cycle + n, .event e)] := rfl
@[simp] theorem nextFree_free (s : State) : s.nextFree.free = s.free + 1 := rfl

/-! ### A register or a predicate of a thread -/

@[simp] theorem setReg_st (h : Thread) (r : GReg) (v : Word) : (h.setReg r v).st = h.st := by unfold Thread.setReg; split <;> rfl
@[simp] theorem setReg_pc (h : Thread) (r : GReg) (v : Word) : (h.setReg r v).pc = h.pc := by unfold Thread.setReg; split <;> rfl
@[simp] theorem setReg_lo (h : Thread) (r : GReg) (v : Word) : (h.setReg r v).lo = h.lo := by unfold Thread.setReg; split <;> rfl
@[simp] theorem setReg_hi (h : Thread) (r : GReg) (v : Word) : (h.setReg r v).hi = h.hi := by unfold Thread.setReg; split <;> rfl
@[simp] theorem setReg_p (h : Thread) (r : GReg) (v : Word) : (h.setReg r v).p = h.p := by unfold Thread.setReg; split <;> rfl
@[simp] theorem setReg_next (h : Thread) (r : GReg) (v : Word) : (h.setReg r v).next = h.next := by unfold Thread.setReg; split <;> rfl
@[simp] theorem setReg_rptAt (h : Thread) (r : GReg) (v : Word) : (h.setReg r v).rptAt = h.rptAt := by unfold Thread.setReg; split <;> rfl
@[simp] theorem setReg_fflags (h : Thread) (r : GReg) (v : Word) : (h.setReg r v).fflags = h.fflags := by unfold Thread.setReg; split <;> rfl
@[simp] theorem setReg_paramv (h : Thread) (r : GReg) (v : Word) : (h.setReg r v).paramv = h.paramv := by unfold Thread.setReg; split <;> rfl
@[simp] theorem setReg_pl (h : Thread) (r : GReg) (v : Word) : (h.setReg r v).pl = h.pl := by unfold Thread.setReg; split <;> rfl
@[simp] theorem setReg_ppl (h : Thread) (r : GReg) (v : Word) : (h.setReg r v).ppl = h.ppl := by unfold Thread.setReg; split <;> rfl
@[simp] theorem setReg_inh (h : Thread) (r : GReg) (v : Word) : (h.setReg r v).inh = h.inh := by unfold Thread.setReg; split <;> rfl
@[simp] theorem setReg_cause (h : Thread) (r : GReg) (v : Word) : (h.setReg r v).cause = h.cause := by unfold Thread.setReg; split <;> rfl
@[simp] theorem setReg_sub (h : Thread) (r : GReg) (v : Word) : (h.setReg r v).sub = h.sub := by unfold Thread.setReg; split <;> rfl
@[simp] theorem setReg_tepc (h : Thread) (r : GReg) (v : Word) : (h.setReg r v).tepc = h.tepc := by unfold Thread.setReg; split <;> rfl
@[simp] theorem setReg_tval (h : Thread) (r : GReg) (v : Word) : (h.setReg r v).tval = h.tval := by unfold Thread.setReg; split <;> rfl
@[simp] theorem setReg_tscr (h : Thread) (r : GReg) (v : Word) : (h.setReg r v).tscr = h.tscr := by unfold Thread.setReg; split <;> rfl
@[simp] theorem setReg_wake (h : Thread) (r : GReg) (v : Word) : (h.setReg r v).wake = h.wake := by unfold Thread.setReg; split <;> rfl
@[simp] theorem setReg_lastCnum (h : Thread) (r : GReg) (v : Word) : (h.setReg r v).lastCnum = h.lastCnum := by unfold Thread.setReg; split <;> rfl
@[simp] theorem setReg_relaxed (h : Thread) (r : GReg) (v : Word) : (h.setReg r v).relaxed = h.relaxed := by unfold Thread.setReg; split <;> rfl
@[simp] theorem setReg_remoteOut (h : Thread) (r : GReg) (v : Word) : (h.setReg r v).remoteOut = h.remoteOut := by unfold Thread.setReg; split <;> rfl
@[simp] theorem setReg_globalOut (h : Thread) (r : GReg) (v : Word) : (h.setReg r v).globalOut = h.globalOut := by unfold Thread.setReg; split <;> rfl
@[simp] theorem setReg_redOut (h : Thread) (r : GReg) (v : Word) : (h.setReg r v).redOut = h.redOut := by unfold Thread.setReg; split <;> rfl
@[simp] theorem setReg_writebackOut (h : Thread) (r : GReg) (v : Word) : (h.setReg r v).writebackOut = h.writebackOut := by unfold Thread.setReg; split <;> rfl
@[simp] theorem setReg_redFlags (h : Thread) (r : GReg) (v : Word) : (h.setReg r v).redFlags = h.redFlags := by unfold Thread.setReg; split <;> rfl
@[simp] theorem setReg_redSeq (h : Thread) (r : GReg) (v : Word) : (h.setReg r v).redSeq = h.redSeq := by unfold Thread.setReg; split <;> rfl
@[simp] theorem setReg_faults (h : Thread) (r : GReg) (v : Word) : (h.setReg r v).faults = h.faults := by unfold Thread.setReg; split <;> rfl
@[simp] theorem setReg_arrivals (h : Thread) (r : GReg) (v : Word) : (h.setReg r v).arrivals = h.arrivals := by unfold Thread.setReg; split <;> rfl
@[simp] theorem setReg_walkFault (h : Thread) (r : GReg) (v : Word) : (h.setReg r v).walkFault = h.walkFault := by unfold Thread.setReg; split <;> rfl
@[simp] theorem setReg_debug (h : Thread) (r : GReg) (v : Word) : (h.setReg r v).debug = h.debug := by unfold Thread.setReg; split <;> rfl
@[simp] theorem setReg_writesOut (h : Thread) (r : GReg) (v : Word) : (h.setReg r v).writesOut = h.writesOut := by unfold Thread.setReg; split <;> rfl
@[simp] theorem setReg_slow (h : Thread) (r : GReg) (v : Word) : (h.setReg r v).slow = h.slow := by unfold Thread.setReg; split <;> rfl
@[simp] theorem setReg_storeUntil (h : Thread) (r : GReg) (v : Word) : (h.setReg r v).storeUntil = h.storeUntil := by unfold Thread.setReg; split <;> rfl
@[simp] theorem setReg_issued (h : Thread) (r : GReg) (v : Word) : (h.setReg r v).issued = h.issued := by unfold Thread.setReg; split <;> rfl
@[simp] theorem setReg_mismatch (h : Thread) (r : GReg) (v : Word) : (h.setReg r v).mismatch = h.mismatch := by unfold Thread.setReg; split <;> rfl
@[simp] theorem setPred_st (h : Thread) (r : PReg) (v : Bool) : (h.setPred r v).st = h.st := by unfold Thread.setPred; split <;> rfl
@[simp] theorem setPred_pc (h : Thread) (r : PReg) (v : Bool) : (h.setPred r v).pc = h.pc := by unfold Thread.setPred; split <;> rfl
@[simp] theorem setPred_lo (h : Thread) (r : PReg) (v : Bool) : (h.setPred r v).lo = h.lo := by unfold Thread.setPred; split <;> rfl
@[simp] theorem setPred_hi (h : Thread) (r : PReg) (v : Bool) : (h.setPred r v).hi = h.hi := by unfold Thread.setPred; split <;> rfl
@[simp] theorem setPred_g (h : Thread) (r : PReg) (v : Bool) : (h.setPred r v).g = h.g := by unfold Thread.setPred; split <;> rfl
@[simp] theorem setPred_next (h : Thread) (r : PReg) (v : Bool) : (h.setPred r v).next = h.next := by unfold Thread.setPred; split <;> rfl
@[simp] theorem setPred_rptAt (h : Thread) (r : PReg) (v : Bool) : (h.setPred r v).rptAt = h.rptAt := by unfold Thread.setPred; split <;> rfl
@[simp] theorem setPred_fflags (h : Thread) (r : PReg) (v : Bool) : (h.setPred r v).fflags = h.fflags := by unfold Thread.setPred; split <;> rfl
@[simp] theorem setPred_paramv (h : Thread) (r : PReg) (v : Bool) : (h.setPred r v).paramv = h.paramv := by unfold Thread.setPred; split <;> rfl
@[simp] theorem setPred_pl (h : Thread) (r : PReg) (v : Bool) : (h.setPred r v).pl = h.pl := by unfold Thread.setPred; split <;> rfl
@[simp] theorem setPred_ppl (h : Thread) (r : PReg) (v : Bool) : (h.setPred r v).ppl = h.ppl := by unfold Thread.setPred; split <;> rfl
@[simp] theorem setPred_inh (h : Thread) (r : PReg) (v : Bool) : (h.setPred r v).inh = h.inh := by unfold Thread.setPred; split <;> rfl
@[simp] theorem setPred_cause (h : Thread) (r : PReg) (v : Bool) : (h.setPred r v).cause = h.cause := by unfold Thread.setPred; split <;> rfl
@[simp] theorem setPred_sub (h : Thread) (r : PReg) (v : Bool) : (h.setPred r v).sub = h.sub := by unfold Thread.setPred; split <;> rfl
@[simp] theorem setPred_tepc (h : Thread) (r : PReg) (v : Bool) : (h.setPred r v).tepc = h.tepc := by unfold Thread.setPred; split <;> rfl
@[simp] theorem setPred_tval (h : Thread) (r : PReg) (v : Bool) : (h.setPred r v).tval = h.tval := by unfold Thread.setPred; split <;> rfl
@[simp] theorem setPred_tscr (h : Thread) (r : PReg) (v : Bool) : (h.setPred r v).tscr = h.tscr := by unfold Thread.setPred; split <;> rfl
@[simp] theorem setPred_wake (h : Thread) (r : PReg) (v : Bool) : (h.setPred r v).wake = h.wake := by unfold Thread.setPred; split <;> rfl
@[simp] theorem setPred_lastCnum (h : Thread) (r : PReg) (v : Bool) : (h.setPred r v).lastCnum = h.lastCnum := by unfold Thread.setPred; split <;> rfl
@[simp] theorem setPred_relaxed (h : Thread) (r : PReg) (v : Bool) : (h.setPred r v).relaxed = h.relaxed := by unfold Thread.setPred; split <;> rfl
@[simp] theorem setPred_remoteOut (h : Thread) (r : PReg) (v : Bool) : (h.setPred r v).remoteOut = h.remoteOut := by unfold Thread.setPred; split <;> rfl
@[simp] theorem setPred_globalOut (h : Thread) (r : PReg) (v : Bool) : (h.setPred r v).globalOut = h.globalOut := by unfold Thread.setPred; split <;> rfl
@[simp] theorem setPred_redOut (h : Thread) (r : PReg) (v : Bool) : (h.setPred r v).redOut = h.redOut := by unfold Thread.setPred; split <;> rfl
@[simp] theorem setPred_writebackOut (h : Thread) (r : PReg) (v : Bool) : (h.setPred r v).writebackOut = h.writebackOut := by unfold Thread.setPred; split <;> rfl
@[simp] theorem setPred_redFlags (h : Thread) (r : PReg) (v : Bool) : (h.setPred r v).redFlags = h.redFlags := by unfold Thread.setPred; split <;> rfl
@[simp] theorem setPred_redSeq (h : Thread) (r : PReg) (v : Bool) : (h.setPred r v).redSeq = h.redSeq := by unfold Thread.setPred; split <;> rfl
@[simp] theorem setPred_faults (h : Thread) (r : PReg) (v : Bool) : (h.setPred r v).faults = h.faults := by unfold Thread.setPred; split <;> rfl
@[simp] theorem setPred_arrivals (h : Thread) (r : PReg) (v : Bool) : (h.setPred r v).arrivals = h.arrivals := by unfold Thread.setPred; split <;> rfl
@[simp] theorem setPred_walkFault (h : Thread) (r : PReg) (v : Bool) : (h.setPred r v).walkFault = h.walkFault := by unfold Thread.setPred; split <;> rfl
@[simp] theorem setPred_debug (h : Thread) (r : PReg) (v : Bool) : (h.setPred r v).debug = h.debug := by unfold Thread.setPred; split <;> rfl
@[simp] theorem setPred_writesOut (h : Thread) (r : PReg) (v : Bool) : (h.setPred r v).writesOut = h.writesOut := by unfold Thread.setPred; split <;> rfl
@[simp] theorem setPred_slow (h : Thread) (r : PReg) (v : Bool) : (h.setPred r v).slow = h.slow := by unfold Thread.setPred; split <;> rfl
@[simp] theorem setPred_storeUntil (h : Thread) (r : PReg) (v : Bool) : (h.setPred r v).storeUntil = h.storeUntil := by unfold Thread.setPred; split <;> rfl
@[simp] theorem setPred_issued (h : Thread) (r : PReg) (v : Bool) : (h.setPred r v).issued = h.issued := by unfold Thread.setPred; split <;> rfl
@[simp] theorem setPred_mismatch (h : Thread) (r : PReg) (v : Bool) : (h.setPred r v).mismatch = h.mismatch := by unfold Thread.setPred; split <;> rfl

end Sys2Proof.Machine
end

