-- ==== Sys2Proof/Laws/Thread.lean ====
section
/-! SUPPORT. Laws of threads and of the sequencer's shared operations: what `setMe`, a register write, `seq` and `finish`
do, said once. -/

namespace Sys2Proof.Machine

open Sys2Proof.Safety

/-! ### Threads of tiles and of the module -/

theorem tile_thread_setThread (x : Tile) (t n : Nat) (h : Thread) :
    (x.setThread t h).thread n = if n % 8 = t % 8 then h else x.thread n := by
  unfold Tile.setThread Tile.thread
  simp only [Vector.getElem_set]
  by_cases e : t % 8 = n % 8
  · simp [e]
  · simp [e, Ne.symm e]

@[simp] theorem thread_setThread (s : State) (tile t : Nat) (h : Thread) : (s.setThread tile t h).thread tile t = h := by
  simp [State.setThread, State.thread, tile_thread_setThread]

theorem thread_setThread_other (s : State) (tile t u n : Nat) (h : Thread) (d : u ≠ tile ∨ n % 8 ≠ t % 8) :
    (s.setThread tile t h).thread u n = s.thread u n := by
  unfold State.setThread State.thread
  by_cases e : u = tile
  · subst e
    rw [setTile_tile_same, tile_thread_setThread, if_neg (by simpa using d)]
  · rw [setTile_tile_other _ _ _ _ e]

@[simp] theorem setMe_cur (s : State) (h : Thread) : (s.setMe h).cur = s.cur := rfl
@[simp] theorem setMe_me (s : State) (h : Thread) : (s.setMe h).me = h := thread_setThread ..
@[simp] theorem setMe_rest (s : State) (h : Thread) : { s.setMe h with tiles := s.tiles } = s := rfl
@[simp] theorem setMe_chan (s : State) (h : Thread) (c : Nat) : (s.setMe h).chan c = s.chan c := rfl
@[simp] theorem setMe_pe (s : State) (h : Thread) (c : Nat) : (s.setMe h).pe c = s.pe c := rfl
@[simp] theorem setMe_part (s : State) (h : Thread) (c : Nat) : (s.setMe h).part c = s.part c := rfl
@[simp] theorem setMe_host (s : State) (h : Thread) : (s.setMe h).host = s.host := rfl

/-- A tile after a thread of it has changed: all but its threads is as it was. -/
theorem setMe_tile (s : State) (h : Thread) (t : Nat) :
    { (s.setMe h).tile t with core := { ((s.setMe h).tile t).core with threads := (s.tile t).core.threads } } = s.tile t := by
  by_cases e : t = s.cur.tile
  · subst e
    simp [State.setMe, State.setThread, Tile.setThread]
  · simp [State.setMe, State.setThread, setTile_tile_other _ _ _ _ e]

/-- The store of a tile after a thread of it has changed. -/
@[simp] theorem setMe_store (s : State) (h : Thread) (t : Nat) : ((s.setMe h).tile t).store = (s.tile t).store := by
  have := congrArg Tile.store (setMe_tile s h t)
  simpa using this

theorem onlyThread_setMe (s : State) (h : Thread) : OnlyThread s (s.setMe h) where
  threads _ _ d := thread_setThread_other _ _ _ _ _ _ d
  tiles t := setMe_tile s h t
  rest := rfl

/-- A state that differs in the issuing thread alone has every byte of memory as before. -/
theorem sameBytes_of_onlyThread {s t : State} (h : OnlyThread s t) : SameBytes s t where
  imem tile a := by
    unfold imemByte
    rw [← h.tiles tile]
  hbm ch a := by
    unfold hbmByte State.chan
    rw [← h.rest]
  host a := by
    unfold hostByte
    rw [← h.rest]
  scratch pe a := by
    unfold scratchByte State.pe
    rw [← h.rest]
  store tile a := by
    unfold storeByte
    rw [← h.tiles tile]

theorem becomes_setMe (s : State) (h : Thread) : Becomes s h (s.setMe h) :=
  ⟨setMe_me s h, onlyThread_setMe s h, sameBytes_of_onlyThread (onlyThread_setMe s h)⟩

/-- Two changes of the issuing thread are one. -/
theorem becomes_setMe_setMe (s : State) (h k : Thread) : Becomes s k ((s.setMe h).setMe k) := by
  have ho : OnlyThread s ((s.setMe h).setMe k) := by
    refine ⟨fun tile n d => ?_, fun t => ?_, rfl⟩
    · rw [(onlyThread_setMe (s.setMe h) k).threads tile n d, (onlyThread_setMe s h).threads tile n d]
    · have h1 := setMe_tile s h t
      have h2 := setMe_tile (s.setMe h) k t
      rw [← h1, ← h2]
  exact ⟨setMe_me _ _, ho, sameBytes_of_onlyThread ho⟩

/-! ### Outcomes of bodies -/

theorem becomes_done (s : State) (h : Thread) : Becomes s { h with pc := s.cur.npc } (finish s (.done (s.setMe h))) := by
  show Becomes s _ ((s.setMe h).setMe { (s.setMe h).me with pc := s.cur.npc })
  rw [setMe_me]
  exact becomes_setMe_setMe s h _

theorem becomes_jump (s : State) (h : Thread) (pc : Word) :
    Becomes s { h with pc := pc } (finish s (.jump (s.setMe h) pc)) := by
  show Becomes s _ ((s.setMe h).setMe { (s.setMe h).me with pc := pc })
  rw [setMe_me]
  exact becomes_setMe_setMe s h _

theorem becomes_hold (s : State) (h : Thread) : Becomes s h (finish s (.hold (s.setMe h))) := becomes_setMe s h

theorem becomes_done_self (s : State) : Becomes s { s.me with pc := s.cur.npc } (finish s (.done s)) := becomes_setMe s _

theorem becomes_jump_self (s : State) (pc : Word) : Becomes s { s.me with pc := pc } (finish s (.jump s pc)) :=
  becomes_setMe s _

/-! ### Registers and predicates -/

theorem reg_setReg (h : Thread) (d r : GReg) (v : Word) :
    (h.setReg d v).reg r = if r = 0 then 0 else if r = d then v else h.reg r := by
  unfold Thread.setReg Thread.reg
  by_cases hr : r = 0
  · rw [if_pos hr, if_pos hr]
  · rw [if_neg hr, if_neg hr, if_neg hr]
    by_cases hd : d = 0
    · rw [if_pos hd, if_neg (fun e => hr (e.trans hd))]
    · rw [if_neg hd, Vector.getElem_set]
      by_cases e : r = d
      · rw [if_pos (congrArg BitVec.toNat e.symm), if_pos e]
      · rw [if_neg (fun k => e (BitVec.eq_of_toNat_eq k.symm)), if_neg e]

@[simp] theorem reg_zero (h : Thread) : h.reg 0 = 0 := rfl
@[simp] theorem pred_zero (h : Thread) : h.pred 0 = true := rfl

/-- Bit `j` of a byte with bit `i` written. -/
theorem getLsbD_putBit (p : BitVec 8) (i j : Nat) (v : Bool) (h : j < 8) :
    ((p &&& ~~~(1#8 <<< i)) ||| (if v then 1#8 <<< i else 0)).getLsbD j = if j = i then v else p.getLsbD j := by
  have hb : (1#8 <<< i).getLsbD j = decide (j = i) := by
    rw [BitVec.getLsbD_shiftLeft, BitVec.getLsbD_one]
    by_cases e : j = i
    · simp [e, e ▸ h]
    · by_cases k : j < i
      · simp [k, e]
      · simp [k, e]
        omega
  rw [BitVec.getLsbD_or, BitVec.getLsbD_and, BitVec.getLsbD_not, hb]
  cases v
  · by_cases e : j = i <;> simp [e, h]
  · rw [if_pos rfl, hb]
    by_cases e : j = i <;> simp [e, h]

theorem pred_setPred (h : Thread) (d r : PReg) (v : Bool) :
    (h.setPred d v).pred r = if r = 0 then true else if r = d then v else h.pred r := by
  unfold Thread.setPred Thread.pred
  by_cases hr : r = 0
  · rw [if_pos hr, if_pos hr]
  · rw [if_neg hr, if_neg hr, if_neg hr]
    by_cases hd : d = 0
    · rw [if_pos hd, if_neg (fun e => hr (e.trans hd))]
    · rw [if_neg hd]
      show ((h.p &&& ~~~(1#8 <<< d.toNat)) ||| (if v then 1#8 <<< d.toNat else 0)).getLsbD r.toNat = _
      rw [getLsbD_putBit _ _ _ _ r.isLt]
      by_cases e : r = d
      · rw [if_pos (congrArg BitVec.toNat e), if_pos e]
      · rw [if_neg (fun k => e (BitVec.eq_of_toNat_eq k)), if_neg e]

/-! ### The sequencer's order of checks (R140) -/

/-- An instruction that every thread may run, with its guard 1, does what its body says. -/
theorem seq_taken {p : PReg} {body : State → Res} {s : State} (h : s.me.pred p = true) :
    seq p body s = .next (finish s (body s)) := by
  simp [seq, seqStep, h]

theorem seq_skipped {p : PReg} {body : State → Res} {s : State} (h : s.me.pred p = false) :
    seq p body s = .next (s.setPc s.cur.npc) := by
  simp [seq, seqStep, h]

theorem seqStep_taken {n : Nat} {t7 : Bool} {p : PReg} {body : State → Res} {s : State} (hn : n ≤ s.me.pl.toNat)
    (ht : t7 = true → s.cur.thread = 7) (h : s.me.pred p = true) :
    seqStep n t7 p body s = .next (finish s (body s)) := by
  have h1 : ¬ s.me.pl.toNat < n := by omega
  cases t7
  · simp [seqStep, h1, h]
  · simp [seqStep, h1, h, ht rfl]

/-- A thread that has one register written, and goes on. -/
theorem writesReg_of_becomes {s t : State} {d : GReg} {v : Word}
    (h : Becomes s { s.me.setReg d v with pc := s.cur.npc } t) : WritesReg s d v t := by
  refine ⟨?_, fun r k => ?_, ?_, ?_, h.others, h.bytes⟩
  · rw [h.thread]
    show (s.me.setReg d v).reg d = _
    rw [reg_setReg, if_pos rfl]
  · rw [h.thread]
    show (s.me.setReg d v).reg r = _
    rw [reg_setReg, if_neg k]
    by_cases e : r = 0
    · rw [if_pos e, e, reg_zero]
    · rw [if_neg e]
  · rw [h.thread]
  · rw [h.thread]
    unfold Thread.setReg
    split <;> rfl

/-- A thread that has one predicate written, and goes on. -/
theorem writesPred_of_becomes {s t : State} {d : PReg} {v : Bool}
    (h : Becomes s { s.me.setPred d v with pc := s.cur.npc } t) : WritesPred s d v t := by
  refine ⟨?_, fun r k => ?_, ?_, ?_, h.others, h.bytes⟩
  · rw [h.thread]
    show (s.me.setPred d v).pred d = _
    rw [pred_setPred, if_pos rfl]
  · rw [h.thread]
    show (s.me.setPred d v).pred r = _
    rw [pred_setPred, if_neg k]
    by_cases e : r = 0
    · rw [if_pos e, e, pred_zero]
    · rw [if_neg e]
  · rw [h.thread]
  · rw [h.thread]
    unfold Thread.setPred
    split <;> rfl

/-- An instruction that writes one register completes, and writes it. -/
theorem writesReg_putReg {p : PReg} {d : GReg} {f : State → Word} {s : State} (h : s.me.pred p = true) :
    ∃ t, seq p (putReg d f) s = .next t ∧ WritesReg s d (f s) t :=
  ⟨_, seq_taken h, writesReg_of_becomes (becomes_done s _)⟩

/-- An instruction that writes one predicate completes, and writes it. -/
theorem writesPred_putPred {p : PReg} {d : PReg} {f : State → Bool} {s : State} (h : s.me.pred p = true) :
    ∃ t, seq p (putPred d f) s = .next t ∧ WritesPred s d (f s) t :=
  ⟨_, seq_taken h, writesPred_of_becomes (becomes_done s _)⟩

/-- A trap of the issuing thread with INH = 0 is taken in its first form (R316). -/
theorem takesTrap_takeTrap {s : State} {c sub : BitVec 8} {v e : Word} (h : s.me.inh = false) :
    TakesTrap s c sub v e (takeTrap s s.cur.tile s.cur.thread c sub v e) := by
  have hi : ((s.tile s.cur.tile).thread s.cur.thread).inh = false := h
  have : takeTrap s s.cur.tile s.cur.thread c sub v e =
      s.setMe (trapThread s.me s.here.core.tvec s.here.core.mtvec c sub v e) := by
    simp [takeTrap, hi]
    rfl
  rw [this]
  exact becomes_setMe s _

end Sys2Proof.Machine
end

