-- ==== Sys2Proof/Tests/Slice0.lean ====
section
/-! SUPPORT. Tests: ill-formed terms that the check refuses, words written out from the encoding tables, single steps with
values of the specification's examples and tables, and for every statement with hypotheses a witness that meets them. -/

namespace Sys2Proof.Tests

open Sys2Proof.Machine Sys2Proof.Safety

/-! ### Small states: right after reset, with one part changed. The issuing thread is thread 0 of tile 0. -/

def me (f : Thread → Thread) : State := State.reset.setMe (f State.reset.me)
def here (f : Tile → Tile) : State := State.reset.setHere (f State.reset.here)
def part (f : Partition → Partition) : State := State.reset.setPart 0 (f (State.reset.part 0))
/-- Some general registers set. -/
def withRegs (l : List (GReg × Word)) (h : Thread) : Thread := l.foldl (fun h r => h.setReg r.1 r.2) h
def regs (l : List (GReg × Word)) : State := me (withRegs l)
/-- A property of the next state of an instruction; false if there is none. -/
def after (i : Instr) (s : State) (P : State → Bool) : Bool := match exec i s with | .next t => P t | _ => false
/-- Register 3 of the issuing thread behind an instruction. -/
def gives (i : Instr) (s : State) (v : Word) : Bool := after i s (fun t => t.me.reg 3 == v)
/-- A placement of 2 by 2 tiles with its origin at tile 0, launch 1 of partition 0. -/
def square : Place := ⟨0, 1, 0, 0, 2, 2, 0⟩

/-- An image of 1 by 1 tiles with nothing in it. -/
def bare : Image := ⟨[], 1, 1, 1, [], [], none, [], [], [], [], [], [], [], [], [], [], [], [], [], 1⟩

/-! ### Ill-formed terms, one for each check -/

theorem test_wf_sequencer : [Instr.cmp 1 2 3 0 6, .cmpi 1 2 0 7 0, .br 0 1 4, .jal 0 1 4, .lds 1 2 0 3 0, .atom 1 2 3 0 0 0 13,
    .atom 1 2 3 0 0 1 9, .red 2 3 0 0 0 8, .send 1 2 0 1, .sendp 1 2 0 0, .qpoll 1 0 2, .qwait 1 0 3,
    .rpt 4 1 1 1 false 0xFFFFFFFF, .rpt 1023 1 0 0 false 0x00611000, .rpt 4 1 1 1 false 0x04611000, .rlx 0x00611000,
    .debugStop 4096 0, .debugStop 0 8].all (fun i => !i.wf) = true := by decide

theorem test_wf_engines : [Instr.pld 0 30 1 1, .pst 0 30 1 1, .pst 0 1 30 1, .pred 0 30 1, .mma 0 0 1 2 3 0x12 0,
    .mmas 0 0 1 2 3 0 0, .mdrain 0 0 0 3 0, .mdrain 0 0 0 0 1].all (fun i => !i.wf) = true := by decide

theorem test_wf_units : [Instr.refreshDebtRise 1536, .refreshKeeperRefresh 0 2, .threadWake 0 8, .launchStart 64 1,
    .matrixStart 4096, .streamElement 0 16, .latchArrival 262144 .n 0, .transmitterSlot 1536, .edgeTokenArrival 512 0 0 [],
    .barrierArrival 0 1 16 2 0 0, .bindComplete 0 1024 bare, .agingStep 0 64, .laneTrained 0 17, .laserFault 2176,
    .sretire 48, .registerWrite (.tepc 4096 0) 0, .registerWrite (.shared 0 16) 0, .registerWrite (.qcfg 0 64) 0].all
      (fun i => !i.wf) = true := by decide

theorem test_wf_legal : [Instr.cmp 1 2 3 0 5, .br 0 0 4, .lds 1 2 0 2 0, .atom 1 2 3 0 1 0 12, .send 1 2 0 2, .qwait 1 0 1,
    .rpt 4 1 1 1 false 0x00611000, .rlx 0x60E81808, .pld 0 31 1 1, .mma 0 0 1 2 3 0x11 1, .mdrain 0 0 0 2 1,
    .threadWake 4095 7, .registerWrite (.qstat 63 63) 0].all (fun i => i.wf) = true := by decide

/-! ### Decoding: words written out from Tables 06-2 to 06-16 and 09-8, every constructor that has an encoding -/

theorem test_decode_alu :
    [
      0x012A5A00, 0x012A5A01, 0x012A5A02, 0x012A5A03, 0x012A5A04, 0x012A5A05, 0x012A5A06, 0x012A5A07, 0x012A5A08,
      0x012A5A09, 0x012A5A0A, 0x012A5A0B, 0x012A5A0C, 0x012A5A0D, 0x012A020E, 0x012A020F].map (decodeTableWord 32) =
    ([
      .add 9 10 11 2, .sub 9 10 11 2, .and 9 10 11 2, .or 9 10 11 2, .xor 9 10 11 2, .andn 9 10 11 2, .shl 9 10 11 2,
      .shr 9 10 11 2, .sar 9 10 11 2, .rotl 9 10 11 2, .min 9 10 11 2, .max 9 10 11 2, .minu 9 10 11 2, .maxu 9 10 11 2,
      .clz 9 10 2, .popc 9 10 2] : List Instr).map some := by decide

theorem test_decode_multiply :
    [
      0x012A5A10, 0x012A5A11, 0x012A5A12, 0x012A5A13, 0x012A5A14, 0x012A5A15, 0x012A5A16].map (decodeTableWord 32) =
    ([
      .mul 9 10 11 2, .mulh 9 10 11 2, .mulhu 9 10 11 2, .div 9 10 11 2, .divu 9 10 11 2, .rem 9 10 11 2, .remu 9 10 11 2] : List Instr).map some := by decide

theorem test_decode_immediate :
    [
      0x052A5FFE, 0x092A5FFE, 0x0D2A5FFE, 0x112A5FFE, 0x152A403F, 0x192A403F, 0x1D2A403F, 0x212BFFFF].map (decodeTableWord 32) =
    ([
      .addi 9 10 2 0x1FFE, .andi 9 10 2 0x1FFE, .ori 9 10 2 0x1FFE, .xori 9 10 2 0x1FFE, .shli 9 10 2 63,
      .shri 9 10 2 63, .sari 9 10 2 63, .lui 9 2 0x3FFFF] : List Instr).map some := by decide

theorem test_decode_compare :
    [
      0x28AA5A00, 0x28AA5A01, 0x28AA5A02, 0x28AA5A03, 0x28AA5A04, 0x28AA5A05, 0x2CAA57FF].map (decodeTableWord 32) =
    ([
      .cmp 5 10 11 2 0, .cmp 5 10 11 2 1, .cmp 5 10 11 2 2, .cmp 5 10 11 2 3, .cmp 5 10 11 2 4, .cmp 5 10 11 2 5,
      .cmpi 5 10 2 5 0x3FF] : List Instr).map some := by decide

theorem test_decode_predicate :
    [
      0x30A63A00, 0x30A63A01, 0x30A63A02, 0x30A60203, 0x30A60204, 0x31200205, 0x352A5A00].map (decodeTableWord 32) =
    ([
      .pand 5 6 7 2, .por 5 6 7 2, .pxor 5 6 7 2, .pnot 5 6 2, .pmov 5 6 2, .pget 9 2, .sel 9 10 11 2] : List Instr).map some := by decide

theorem test_decode_address :
    [
      0x392A5A00, 0x392A5A01, 0x392A5A02, 0x392A5A03, 0x392A5A04, 0x392A5A05, 0x392A5A06, 0x392A0207, 0x3D200200,
      0x3D200201, 0x3D200202, 0x3D200203].map (decodeTableWord 32) =
    ([
      .addr1 9 10 11 2, .addr2 9 10 11 2, .addr4 9 10 11 2, .addr8 9 10 11 2, .bfx 9 10 11 2, .bfi 9 10 11 2,
      .cpack 9 10 11 2, .cunpk 9 10 2, .tileid 9 2, .thid 9 2, .ccnt 9 2, .scnt 9 2] : List Instr).map some := by decide

theorem test_decode_branch :
    [
      0x41FFFFFB, 0x45800005, 0x492A5FFC, 0x4D205FFC].map (decodeTableWord 32) =
    ([
      .br 3 1 0x3FFFFB, .jal 3 0 5, .jalr 9 10 2 0x1FFC, .loop 9 2 0x1FFC] : List Instr).map some := by decide

theorem test_decode_thread :
    [
      0x50000200, 0x50000201, 0x500A0202, 0x500A0203, 0x500A0204, 0x50000205].map (decodeTableWord 32) =
    ([
      .yield 2, .park 2, .wake 10 2, .waitt 10 2, .waite 10 2, .haltt 2] : List Instr).map some := by decide

theorem test_decode_memory :
    [
      0x612A5FFD, 0x652A57FD, 0x692A4FFD, 0x752A47FD, 0x792A5FFD, 0x6D2A47FD, 0x6D2A4FFD, 0x6D2A57FD, 0x6D2A5FFD,
      0x700A47FD, 0x700A4FFD, 0x712A57FD].map (decodeTableWord 32) =
    ([
      .ld 9 10 2 3 0x7FD, .lds 9 10 2 2 0x7FD, .st 9 10 2 1 0x7FD, .ldg 9 10 2 0 0x7FD, .stg 9 10 2 3 0x7FD,
      .ldf 9 10 2 0x7FD, .ldfe 9 10 2 0x7FD, .stef 9 10 2 0x7FD, .stf 9 10 2 0x7FD, .sete 10 2 0x7FD, .setf 10 2 0x7FD,
      .peekf 9 10 2 0x7FD] : List Instr).map some := by decide

theorem test_decode_atomic :
    [
      0x7D2A5A98, 0x7D2A5A0C, 0x812A5A90, 0x840A5A89].map (decodeTableWord 32) =
    ([
      .atom 9 10 11 2 1 1 8, .atom 9 10 11 2 0 0 12, .cas 9 10 11 2 1 1, .red 10 11 2 1 0 9] : List Instr).map some := by decide

theorem test_decode_fence :
    [
      0x88000200, 0x88000201, 0x88000202, 0x88000203, 0x88000204].map (decodeTableWord 32) =
    ([
      .fenceT 2, .fenceC 2, .fenceP 2, .fenceS 2, .drain 2] : List Instr).map some := by decide

theorem test_decode_message :
    [
      0x8C0A5AC0, 0x8C0A5A81, 0x8D200242, 0x8D200203].map (decodeTableWord 32) =
    ([
      .send 10 11 2 3, .sendp 10 11 2 2, .qpoll 9 2 1, .qwait 9 2 0] : List Instr).map some := by decide

theorem test_decode_stream :
    [
      0x900A5A00, 0x900A0201, 0x900A0202, 0x912A0203, 0x912A5A04, 0x900A5A05].map (decodeTableWord 32) =
    ([
      .strmBind 10 11 2, .strmStart 10 2, .strmCancel 10 2, .strmStat 9 10 2, .scopy 9 10 11 2, .vxfer 10 11 2] : List Instr).map some := by decide

theorem test_decode_tensor :
    [
      0x940A5A00, 0x952A5A01, 0x952A5A02, 0x940A5A03, 0x940A5A04, 0x940A0205, 0x940A0206, 0x952A5A07].map (decodeTableWord 32) =
    ([
      .ltdef 10 11 2, .ltld 9 10 11 2, .ltst 9 10 11 2, .ltpf 10 11 2, .lthalo 10 11 2, .ltinv 10 2, .ltwb 10 2,
      .ltq 9 10 11 2] : List Instr).map some := by decide

theorem test_decode_coordination :
    [
      0x980A0200, 0x980A0201, 0x980A0202, 0x980A0203, 0x9D2A5A00, 0xA92A5A00, 0xA80A0201, 0xA80A0202].map (decodeTableWord 32) =
    ([
      .bar 10 2, .bara 10 2, .barw 10 2, .cstep 10 2, .rndk 9 10 11 2, .lnch 9 10 11 2, .evsig 10 2, .evwait 10 2] : List Instr).map some := by decide

theorem test_decode_engine :
    [
      0xA00A5A00, 0xA00A5A01, 0xA00A5A02, 0xA00A0203, 0xA12A0204, 0xA40A5A00, 0xA40A0201, 0xA40A5A02, 0xA40A0203,
      0xA52A0204].map (decodeTableWord 32) =
    ([
      .fload 10 11 2, .fgo 10 11 2, .fphase 10 11 2, .fstop 10 2, .fstat 9 10 2, .mxload 10 11 2, .mxgo 10 2,
      .mxdrain 10 11 2, .mxclr 10 2, .mxstat 9 10 2] : List Instr).map some := by decide

theorem test_decode_system :
    [
      0xC1289A00, 0xC1380201, 0xC0000202, 0xC00A5A03, 0xC00A0204, 0xC00A5A05, 0xC0000206, 0xC40BFFFF].map (decodeTableWord 32) =
    ([
      .csrr 9 0x113 2, .csrw 9 0x300 2, .tret 2, .tlbinv 10 11 2, .cutm 10 2, .cfgld 10 11 2, .haltc 2, .trap 2 0x3FFFF] : List Instr).map some := by decide

theorem test_decode_two_words :
    [
      0x8000000025280000, 0x61101808F0042400, 0x712A5001F4000000].map (decodeTableWord 64) =
    ([
      .lix 9 2 0x80000000, .rpt 4 1 1 0 false 0x61101808, .rlx 0x712A5001] : List Instr).map some := by decide

theorem test_decode_fabric_float :
    [
      0x12E06F, 0x16E06F, 0x1AE06F, 0x1EE06F, 0x22E06F, 0x26E06F, 0x2AE3EF, 0x2EE3EF, 0x32E06F, 0x36E06F, 0x42E06F,
      0x46E06F, 0x4AE06F, 0x4EE06F, 0xD2E3EF, 0xD6E3EF, 0xDAE3EF, 0xDEE3EF].map (decodeTableWord 24) =
    ([
      .fadd 5 24 3 7 1, .fsub 5 24 3 7 1, .fmul 5 24 3 7 1, .ffma 5 24 3 7 1, .fmin 5 24 3 7 1, .fmax 5 24 3 7 1,
      .fabs 5 24 7 1, .fneg 5 24 7 1, .fcmplt 5 24 3 7 1, .fcmpeq 5 24 3 7 1, .hadd2 5 24 3 7 1, .hmul2 5 24 3 7 1,
      .hfma2 5 24 3 7 1, .hmax2 5 24 3 7 1, .frcp 5 24 7 1, .frsq 5 24 7 1, .fexp2 5 24 7 1, .flog2 5 24 7 1] : List Instr).map some := by decide

theorem test_decode_fabric_integer :
    [
      0x02FFEE, 0x06E3EF, 0x0AE06F, 0x62E06F, 0x66E06F, 0x6AE06F, 0x6EE06F, 0x72E06F, 0x76E06F, 0x7AE06F, 0x7EE06F,
      0x82E06F, 0x86E06F, 0x8AE06F, 0x8EE06F, 0x92E06F, 0x96E06F].map (decodeTableWord 24) =
    ([
      .nop 5 7, .mov 5 24 7 1, .selp 5 24 3 7 1, .iadd 5 24 3 7 1, .isub 5 24 3 7 1, .imul 5 24 3 7 1, .imad 5 24 3 7 1,
      .iand 5 24 3 7 1, .ior 5 24 3 7 1, .ixor 5 24 3 7 1, .ishl 5 24 3 7 1, .ishr 5 24 3 7 1, .isar 5 24 3 7 1,
      .imin 5 24 3 7 1, .imax 5 24 3 7 1, .icmplt 5 24 3 7 1, .icmpeq 5 24 3 7 1] : List Instr).map some := by decide

theorem test_decode_fabric_convert :
    [
      0xA2E3EF, 0xA6E3EF, 0xAAE3EF, 0xAEE06F, 0xB2E3EF, 0xB6E3EF, 0xBAE06F, 0xBEE06F, 0xC2E3EF].map (decodeTableWord 24) =
    ([
      .cvtif 5 24 7 1, .cvtfi 5 24 7 1, .cvtbf 5 24 7 1, .cvtbfs 5 24 3 7 1, .cvte4 5 24 7 1, .cvte5 5 24 7 1,
      .cvte4s 5 24 3 7 1, .pack2 5 24 3 7 1, .unpk 5 24 7 1] : List Instr).map some := by decide

theorem test_decode_fabric_memory :
    [
      0xE2E06F, 0xEAE3EF, 0xEEE06E, 0xF2E3EE, 0xFAE06F, 0xFEE06F].map (decodeTableWord 24) =
    ([
      .prnd 5 24 3 7 1, .pld 5 24 7 1, .pst 5 24 3 7, .pred 5 24 7, .jnx 5 24 3 7 1, .jnu 5 24 3 7 1] : List Instr).map some := by decide

theorem test_decode_route :
    [
      0x0120, 0xFEDC].map (decodeTableWord 16) =
    ([
      .route 0 1 2 0, .route 15 14 13 12] : List Instr).map some := by decide

theorem test_decode_matrix :
    [
      0x001C000000000000, 0x041C48C820100000, 0x081C48C910000000, 0x0C1C014000000000, 0x101C000000090000,
      0x17FC000000090000, 0x181C014006A00000, 0x1C1C000000000000].map (decodeMatrix) =
    ([
      .mnop 7, .mma 7 1 2 3 4 2 1, .mmas 7 1 2 3 4 0x11 0, .mzero 7 5, .msig 7 9, .mwait 255 9, .mdrain 7 5 6 2 1, .mend 7] : List Instr).map some := by decide

theorem test_decode_command :
    [
      0x004B2A0000000000, 0x044B2BB048D00000, 0x084B2BB000000000, 0x0C4B2B0000000000, 0x10010BB048D08A48,
      0x144B2BB048D08E11, 0x184B2BB048D08DF8, 0x1C4B2BB048D08E10, 0x204B2B0000000000, 0x244B2BB000000000,
      0x284B2BB000000000, 0x2C4B2A0000000000, 0x304B2A0000000000, 0x344B2A0000000001, 0x384B2A000001F800,
      0x3C4B2A01FFFC0000, 0x404B2A0000000000, 0x444B2B0016940000].map (decodeD) =
    ([
      .dnop 300 21, .dact 300 21 1 2 3 0x1234, .dpre 300 21 1 2 3, .dprea 300 21 1, .drd 4 5 1 2 3 0x1234 17 1 9 0,
      .drda 300 21 1 2 3 0x1234 17 3 2 1, .dwr 300 21 1 2 3 0x1234 17 2 63, .dwra 300 21 1 2 3 0x1234 17 3 2,
      .drefab 300 21 1, .drefpb 300 21 1 2 3, .drfm 300 21 1 2 3, .dsre 300 21, .dsrx 300 21, .dframe 300 21 1,
      .ddem 300 21 63, .dloop 300 21 0x7FFF, .dend 300 21, .dmrs 300 21 1 5 0xA5] : List Instr).map some := by decide

/-! ### Words of the specification's examples, and illegal words of Table 06-9 -/

/-- Examples 06-1 to 06-4 (06-2: RPT of LD.D g8, 0x40(g16)). -/
theorem test_decode_examples :
    [decodeTableWord 32 0x04A67FFD, decodeTableWord 64 0x61101808F0042400, decodeTableWord 24 0x1CE06B,
      decodeTableWord 16 0x0120, decodeD 0x10010BB048D08A48] =
    ([.addi 5 6 3 0x1FFD, .rpt 4 1 1 0 false 0x61101808, .ffma 1 24 3 5 1, .route 0 1 2 0,
      .drd 4 5 1 2 3 0x1234 17 1 9 0] : List Instr).map some := by decide

/-- Op 0x3F, ALU fn 0x17, CLZ with rb, CMP with rd = 8, SHLI with bit 6, CMPI condition 6, LDS with sz 3, BR with pg 0 and
ps 1, ATOM OP 0xD, a float OP with W, RED EXCH, CAS OP 1, SEND with QN 1, QPOLL with QN 2, MSG fn[3]. -/
theorem test_decode_illegal :
    [0xFFFFFFFF, 0x00000017, 0x0022080E, 0x29000000, 0x14210040, 0x2C201800, 0x64211800, 0x40400000, 0x7C00000D, 0x7C000019,
      0x84000008, 0x80000001, 0x8C000040, 0x8C000082, 0x8C000088].map (decodeTableWord 32) = List.replicate 15 none := by decide
/-- RLX before ADD; RPT of BR; RPT with a bit of [6:0] set; LIX with a bit of [17:0] set. -/
theorem test_decode_illegal_pairs :
    [0x00611000F4000000, 0x40BFFFFEF0042400, 0x61101808F0042401, 0x0000000524C00001].map (decodeTableWord 64) =
      List.replicate 4 none := by decide
/-- A reserved fabric op, WE on NOP, an unused source that is not code 31; a matrix word with OP 8, OFMT 3 and an unused field;
a D-word with OP 0x12 and with ROW[17]. -/
theorem test_decode_illegal_words :
    [0x0C0000, 0x007FE1, 0x040060].map (decodeTableWord 24) = [none, none, none] ∧
    [0x2000000000000000, 0x1800000000C00000, 0x0000000000010000].map decodeMatrix = [none, none, none] ∧
    [0x4800000000000000, 0x0000000800000000].map decodeD = [none, none] := by decide
/-- The all-zero word is ADD g0, g0, g0 (Table 06-9). -/
theorem test_decode_zero : decodeTableWord 32 0 = some (.add 0 0 0 0) := by decide

/-! ### Single steps of the sequencer core -/

/-- R177: the sum wraps. -/
theorem test_add_wraps : gives (.add 3 1 2 0) (regs [(1, -1), (2, 3)]) 2 = true := by decide
/-- R138: g0 reads 0 and discards a write; the pc goes behind the word. -/
theorem test_add_g0 : after (.add 0 1 1 0) (regs [(1, 5)]) (fun t => t.me.reg 0 == 0 && t.me.pc == State.reset.cur.npc) = true := by
  decide
theorem test_sub : gives (.sub 3 0 1 0) (regs [(1, 1)]) (-1) = true := by decide
/-- Example 08-1. -/
theorem test_multiply : gives (.mul 3 1 2 0) (regs [(1, -1), (2, 2)]) 0xFFFFFFFFFFFFFFFE ∧
    gives (.mulhu 3 1 2 0) (regs [(1, -1), (2, 2)]) 1 ∧ gives (.mulh 3 1 2 0) (regs [(1, -1), (2, 2)]) (-1) := by decide
/-- Example 08-1: -7 by 2 and by 0. -/
theorem test_divide : gives (.div 3 1 2 0) (regs [(1, -7), (2, 2)]) (-3) ∧ gives (.rem 3 1 2 0) (regs [(1, -7), (2, 2)]) (-1) ∧
    gives (.div 3 1 2 0) (regs [(1, -7)]) (-1) ∧ gives (.rem 3 1 2 0) (regs [(1, -7)]) (-7) := by decide
/-- R178: -2^63 by -1 wraps, with remainder 0. -/
theorem test_divide_least : gives (.div 3 1 2 0) (regs [(1, 1#64 <<< 63), (2, -1)]) (1#64 <<< 63) ∧
    gives (.rem 3 1 2 0) (regs [(1, 1#64 <<< 63), (2, -1)]) 0 := by decide
/-- Table 08-2: a shift takes the count modulo 64. -/
theorem test_shifts : gives (.shl 3 1 2 0) (regs [(1, 3), (2, 65)]) 6 ∧ gives (.sar 3 1 2 0) (regs [(1, -8), (2, 2)]) (-2) ∧
    gives (.shr 3 1 2 0) (regs [(1, -1), (2, 63)]) 1 ∧ gives (.rotl 3 1 2 0) (regs [(1, 1#64 <<< 63), (2, 1)]) 1 := by decide
theorem test_order : gives (.min 3 1 2 0) (regs [(1, -1), (2, 1)]) (-1) ∧ gives (.minu 3 1 2 0) (regs [(1, -1), (2, 1)]) 1 ∧
    gives (.max 3 1 2 0) (regs [(1, -1), (2, 1)]) 1 ∧ gives (.maxu 3 1 2 0) (regs [(1, -1), (2, 1)]) (-1) := by decide
theorem test_counts : gives (.clz 3 1 0) (regs []) 64 ∧ gives (.clz 3 1 0) (regs [(1, 1)]) 63 ∧
    gives (.popc 3 1 0) (regs [(1, -1)]) 64 := by decide
/-- Table 06-3: ADDI sign-extends, ANDI zero-extends, LUI shifts its signed field by 14, LIX sign-extends. -/
theorem test_immediates : gives (.addi 3 1 0 0x1FFD) (regs [(1, 5)]) 2 ∧ gives (.andi 3 1 0 0x1FFF) (regs [(1, -1)]) 0x1FFF ∧
    gives (.lui 3 0 0x3FFFF) (regs []) (-16384) ∧ gives (.lix 3 0 0x80000000) (regs []) 0xFFFFFFFF80000000 := by decide
/-- Example 06-1: with p3 = 0 the word changes nothing but the pc. -/
theorem test_guard : after (.addi 5 6 3 0x1FFD) (regs [(5, 9)]) (fun t => t.me.reg 5 == 9) = true := by decide
theorem test_compare : after (.cmp 2 1 0 0 2) (regs [(1, -1)]) (fun t => t.me.pred 2) ∧
    after (.cmp 2 1 0 0 4) (regs [(1, -1)]) (fun t => !t.me.pred 2) ∧
    after (.cmpi 2 1 0 2 0x3FF) (regs [(1, -2)]) (fun t => t.me.pred 2) ∧
    after (.cmpi 2 1 0 4 0x3FF) (regs [(1, 1022)]) (fun t => t.me.pred 2) := by decide
/-- R182: p0 reads 1; PGET has 1 in bit 0. -/
theorem test_predicates : after (.pand 3 0 2 0) (me (fun h => { h with p := 4 })) (fun t => t.me.pred 3) ∧
    gives (.pget 3 0) (me (fun h => { h with p := 0x84 })) 0x85 := by decide
/-- R184: the field of width 8 at bit 4; its insertion. -/
theorem test_fields : gives (.bfx 3 1 2 0) (regs [(1, 0xABCD), (2, 0x804)]) 0xBC ∧
    gives (.bfi 3 1 2 0) (regs [(1, 0xEF), (2, 0x804), (3, 0xABCD)]) 0xAEFD := by decide
/-- Example 01-1: relative tile (5, 5) is 0x145, at U; the packing of a coordinate outside the placement. -/
theorem test_identifiers :
    let s := { me id with cur := { State.reset.cur with tile := 64 * 21 + 37 } }
    let t := s.setHere { s.here with place := some ⟨0, 1, 32, 16, 8, 8, 0⟩ }
    gives (.tileid 3 0) t 0x145 ∧ gives (.cpack 3 1 2 0) (t.setMe (withRegs [(1, 5), (2, 5)] t.me)) 0x145 ∧
      gives (.cpack 3 1 2 0) (t.setMe (withRegs [(1, 8), (2, 5)] t.me)) (-1) := by decide
/-- Example 03-3. -/
theorem test_generator : gives (.rndk 3 1 2 0) (regs [(1, 0x105), (2, 0x104)]) 0x31251BA7 = true := by decide
/-- Example 08-2: LOOP at 0x8 with displacement -1. -/
theorem test_loop :
    let at_ := fun v => { regs [(5, v)] with cur := { State.reset.cur with ipc := 8, npc := 12 } }
    after (.loop 5 0 0x1FFF) (at_ 40) (fun t => t.me.reg 5 == 39 && t.me.pc == 4) ∧
      after (.loop 5 0 0x1FFF) (at_ 1) (fun t => t.me.reg 5 == 0 && t.me.pc == 12) := by decide
/-- R137: JAL links to g30 when taken; a JALR target that is no multiple of 4 is cause 0x03 without a link. -/
theorem test_calls :
    let s := { regs [(1, 0x42)] with cur := { State.reset.cur with ipc := 0x20, npc := 0x24 } }
    after (.jal 0 0 4) s (fun t => t.me.reg 30 == 0x24 && t.me.pc == 0x30) ∧
    after (.jalr 3 1 0 0) s (fun t => t.me.reg 3 == 0 && t.me.cause == 3 && t.me.tval == 0x42 && t.me.tepc == 0x20) := by decide
/-- Example 14-1: `trap 5` at 0x120, from U; and the double trap of `trap 6` in the handler. -/
theorem test_trap :
    let s := { me id with cur := { State.reset.cur with ipc := 0x120, npc := 0x124 } }
    after (.trap 0 5) s (fun t => t.me.cause == 0x12 && t.me.tval == 5 && t.me.tepc == 0x124 && t.me.inh && t.me.pl == 1 &&
      t.me.pc == 0xE000) ∧
    after (.trap 0 6) (s.setMe { s.me with inh := true, pl := 1, cause := 0x12, tepc := 0x124 }) (fun t =>
      t.me.st == .halted && t.me.cause == 0x12 && t.me.tepc == 0x124) := by decide
theorem test_tret : after (.tret 0) (me (fun h => { h with pl := 1, inh := true, tepc := 0x124 })) (fun t =>
    t.me.pc == 0x124 && t.me.pl == 0 && t.me.ppl == 0 && !t.me.inh) = true := by decide
/-- R142: TRET at U is cause 0x02; QPOLL of queue 0 on thread 0 is cause 0x01 (R35). -/
theorem test_levels : after (.tret 0) (me id) (fun t => t.me.cause == 2) ∧ after (.qpoll 3 0 0) (me id) (fun t => t.me.cause == 1) := by
  decide
/-- R191, R192, Example 08-3: YIELD waits, PARK parks, WAKE of a parked thread clears W. -/
theorem test_parking : after (.yield 0) (me id) (fun t => t.me.st == .waiting .yield) ∧
    after (.park 0) (me id) (fun t => t.me.st == .parked .park) ∧
    after (.park 0) (me (fun h => { h with wake := true })) (fun t => t.me.st == .halted && !t.me.wake) ∧
    after (.wake 7 0) (State.reset.setThread 0 2 { Thread.reset with st := .running } |>.setMe (withRegs [(7, 2)] Thread.reset))
      (fun t => (t.thread 0 2).wake) := by decide
theorem test_wait_number : after (.waite 1 0) (regs [(1, 1)]) (fun t => t.me.cause == 6) ∧
    after (.waite 1 0) ((here (fun x => { x with eng := { x.eng with cnum := 2, pending := [2] } })).setMe
      (withRegs [(1, 2)] Thread.reset)) (fun t => t.me.st == .parked (.waite 2)) := by decide

/-! ### The activation store -/

/-- R5, R196: little-endian; LD zero-extends and LDS sign-extends. -/
theorem test_store : after (.st 1 0 0 1 2) (regs [(1, 0x8182)]) (fun t => storeByte t 0 4 == 0x82 && storeByte t 0 5 == 0x81 &&
      storeByte t 0 6 == 0) ∧
    (let s := here (fun x => { x with store := { x.store with mem := memStore [] 4 2 0x8182 } })
     gives (.ld 3 0 0 1 2) s 0x8182 ∧ gives (.lds 3 0 0 1 2) s 0xFFFFFFFFFFFF8182) := by decide
/-- R75: 8 bytes at 4 are misaligned; the last word lies inside, the next one outside. -/
theorem test_store_bounds : after (.ld 3 1 0 3 0) (regs [(1, 4)]) (fun t => t.me.cause == 3 && t.me.tval == 4) ∧
    after (.ld 3 1 0 3 0) (regs [(1, 0x17FFFF8)]) (fun t => t.me.cause == 0) ∧
    after (.ld 3 1 0 3 0) (regs [(1, 0x1800000)]) (fun t => t.me.cause == 6 && t.me.tval == 0x1800000) := by decide
/-- Table 04-2: STF fills, LDFE empties, LDF of an empty word parks, STEF fills. -/
theorem test_full_empty : after (.stf 1 0 0 0) (regs [(1, 7)]) (fun t => isFull t.here 0 && storeByte t 0 0 == 7) ∧
    after (.ldfe 3 0 0 0) (here (fun x => { x with store := { x.store with full := [0] } })) (fun t => !isFull t.here 0) ∧
    after (.ldf 3 0 0 0) (me id) (fun t => t.me.st == .parked (.word 0)) ∧
    after (.stef 1 0 0 0) (regs [(1, 7)]) (fun t => isFull t.here 0) := by decide
/-- Example 04-1: STEF of 7 with LDF (thread 1) and LDFE (thread 3) waiting grants both and leaves the word empty. -/
theorem test_waiters : after (.stef 1 0 0 0) ((here (fun x => { x with store := { x.store with
      waiters := [⟨0, .ldf 1 4⟩, ⟨0, .ldfe 3 4⟩] } })).setMe (withRegs [(1, 7)] Thread.reset)) (fun t =>
    (t.thread 0 1).reg 4 == 7 && (t.thread 0 3).reg 4 == 7 && !isFull t.here 0 && t.here.store.waiters == []) = true := by decide
/-- Example 08-5: FMIN32 of a signalling NaN and 2.0, and of +0 and -0. -/
theorem test_atomics :
    let at_ := fun v b => (here (fun x => { x with store := { x.store with mem := memStore [] 0 4 v } })).setMe
      (withRegs [(2, b)] Thread.reset)
    after (.atom 3 0 2 0 0 0 10) (at_ 0x7F800001 0x40000000) (fun t => t.me.reg 3 == 0x7F800001 && t.me.fflags == 0x10 &&
      memLoad t.here.store.mem 0 4 == 0x40000000) ∧
    after (.atom 3 0 2 0 0 0 10) (at_ 0 0x80000000) (fun t => memLoad t.here.store.mem 0 4 == 0x80000000) ∧
    after (.atom 3 0 2 0 0 1 8) (at_ 0x80000000 5) (fun t => t.me.reg 3 == 0xFFFFFFFF80000000) ∧
    after (.cas 3 0 2 0 0 1) (at_ 0 5) (fun t => memLoad t.here.store.mem 0 4 == 5) := by decide
theorem test_red : after (.red 0 2 0 0 0 0) (regs [(2, 5)]) (fun t => t.me.redOut == 1 && (t.tile 0).mem.units[0].window.length == 1) =
    true := by decide
/-- R206: FENCE.C waits for a remote write; DRAIN delivers the flags of REDs. -/
theorem test_fences : after (.fenceC 0) (me (fun h => { h with remoteOut := 1 })) (fun t => t.me.st == .waiting .retry) ∧
    after (.fenceT 0) (me (fun h => { h with remoteOut := 1 })) (fun t => t.me.st == .halted) ∧
    after (.drain 0) (me (fun h => { h with redFlags := 5 })) (fun t => t.me.fflags == 5 && t.me.redFlags == 0) := by decide
/-- Example 19-1: a wake of tile (13, 2) and of tile (50, 2) takes 5,200 cycles. -/
theorem test_wake_cycles : wakeCycles (64 * 2 + 13) = 5200 ∧ wakeCycles (64 * 2 + 50) = 5200 := by decide

/-! ### Messages, engines, coordination -/

/-- Table 08-5's example: tile 0x145, offset 0x2000, VC 3 and KIND 1, sent at S. -/
theorem test_sendp :
    let s := (part (fun p => { p with present := true, w := 64, h := 64 })).setMe
      (withRegs [(1, 0x04628A002000), (2, 9)] { Thread.reset with pl := 1 })
    after (.sendp 1 2 0 2) s (fun t => t.travels.map (fun e => e.2.flit) == [⟨0x145, 0, 3, 1, 40, .write 0x2000 9 1⟩]) = true := by
  decide
theorem test_receive : gives (.qwait 3 0 1) (here (fun x => setRecv x true [8, 9])) 8 ∧
    gives (.qpoll 3 0 1) (here (fun x => setRecv x true [8, 9])) 2 ∧
    after (.qwait 3 0 1) (me id) (fun t => t.me.st == .parked (.queue 1 3)) := by decide
set_option maxRecDepth 4000 in
/-- Example 09-1: SCOPY of 65,536 bytes to a tile 3 hops away at CCNT 0x1_0000 and CSDIV 2; then one of 4,096 bytes. -/
theorem test_promises :
    let whole := part (fun p => { p with present := true, w := 64, h := 64 })
    let s := fun (cycle : Nat) (copies : List Copy) (n dst : Word) =>
      ({ whole with cycle := cycle }.setTile 0 { Tile.reset with eng := { Engines.reset with csdiv := 2, copies := copies } }).setMe
        (withRegs [(3, n), (2, dst)] { Thread.reset with pl := 1 })
    gives (.scopy 3 1 2 0) (s 0x10000 [] 65536 (2 ^ 60 + 3 * 2 ^ 25)) 0x1101E ∧
    gives (.scopy 3 1 2 0) (s 0x10008 [⟨1, 0, 0, 2 ^ 60 + 3 * 2 ^ 25, 65536, 0x1101E, true, 0, 0, 3, 1, 0⟩] 4096 0x100000) 0x11076 := by
  decide
theorem test_stream_status : gives (.strmStat 3 1 0) ((here (fun x => x.setStream 2 { Stream.reset with
      st := 2, can := true, done := 5, cnum := 9 })).setMe (withRegs [(1, 2)] Thread.reset)) 0x0000000900000056 = true := by decide
/-- R251: BARA arrives and goes on; BARW without an arrival is cause 0x06. -/
theorem test_barriers :
    let s := (here (fun x => { x with place := some square })).setMe (withRegs [(1, 0x20000)] Thread.reset)
    after (.bara 1 0) s (fun t => t.me.arrivals == [(0, .sent 0)] && t.agenda == [.event (.barrierArrival 0 1 0 2 0 0)]) ∧
    after (.barw 1 0) s (fun t => t.me.cause == 6) := by decide
/-- R254: EVSIG counts; EVWAIT goes on at its target, also past a wrap, and parks before it. -/
theorem test_events :
    let s := fun (v : Word) => ((part (fun p => { p with counters := [(7, 0x80000000)] })).setHere { Tile.reset with place := some square }).setMe
      (withRegs [(1, v)] Thread.reset)
    after (.evsig 1 0) (s 7) (fun t => tabGet 0 (t.part 0).counters 7 == 0x80000001) ∧
    after (.evwait 1 0) (s (7 + 2 ^ 32)) (fun t => t.me.st == .halted) ∧
    after (.evwait 1 0) (s 7) (fun t => t.me.st == .parked (.event 7 0)) := by decide
/-- Table 14-2 and R314: TSTAT reads PL, PPL and INH; PPL keeps its value for 2; TVEC refuses an address outside the area. -/
theorem test_csrs :
    let s := fun v => me (fun h => withRegs [(1, v)] { h with pl := 1, ppl := 1 })
    gives (.csrr 3 0x100 0) (s 0) 5 ∧ after (.csrw 1 0x100 0) (s 0x18) (fun t => t.me.ppl == 1 && t.me.inh) ∧
    after (.csrw 1 0x101 0) (s 0xE040) (fun t => t.here.core.tvec == 0xE040) ∧
    after (.csrw 1 0x101 0) (s 0xDFFC) (fun t => t.here.core.tvec == 0xE000 && t.me.cause == 6) := by decide
/-- Example 16-1 with the walk of Table 16-6: the page, and the failures of its changed entries. -/
theorem test_walk :
    let mem := fun (l2 l3 : Nat) => [(0, 0x2280004001), (0x4020, 0x2280006001), (0x6000, l2), (0x8918, l3)].foldl
      (fun m e => memStore m e.1 8 e.2) []
    let s := fun l2 l3 => State.reset.setChan 69 { Chan.reset with mem := mem l2 l3 }
    let p : Partition := { Partition.reset with channels := [69], ptroot := 0x0000002280000001 }
    walk (s 0x2280008001 0x228123001F) p 0x4001234560 false true = .page ⟨0x4001230000, 0x2281230000, 65536, true, true, true⟩ ∧
    walk (s 0x2280008001 0x228123000F) p 0x4001234560 false true = .fail 3 ∧
    walk (s 0x2280008001 0x2281230017) p 0x4001234560 true true = .fail 3 ∧
    walk (s 0x2280000003 0) p 0x4001234560 false true = .fail 3 ∧
    walk (s 0x2280008001 0x230123001F) p 0x4001234560 false true = .access := by decide

/-! ### Fabric, matrix engine, memory sequencer -/

/-- A PE of region 0 with stage 0 valid: c0 = 1.5, c1 = 2.0, c2 = 0.25 (Example 10-1), k2 and k3 as given. -/
def pe0 (k2 k3 : Word32) (ra : BitVec 16) : State :=
  { (State.reset.setRegion 0 { Region.reset with sv := 1 }).setPe 0 { PE.reset with
      c := #v[0x3FC00000, 0x40000000, 0x3E800000, 0, 0, 0, 0, 0], k := (PE.reset.k.set 2 k2).set 3 k3 } with
    cur := { State.reset.cur with ra := ra } }
/-- Value, flags and remaining cycles of the newest result in flight. -/
def lands (i : Instr) (s : State) (v : Word32) (flags : BitVec 5) (left : Nat) : Bool :=
  after i s (fun t => (t.pe 0).inflight.getLast?.map (fun f => (f.value, f.flags, f.left)) == some (v, flags, left))

/-- Example 10-1: 1.5 times 2.0; its sum with 0.25; the immediate 0x3F8 is 1.0 (R151). -/
theorem test_fabric_arithmetic : lands (.fmul 0 16 17 4 1) (pe0 0 0 0) 0x40400000 0 3 ∧
    lands (.ffma 0 16 17 4 1) (pe0 0 0 0xA000) 0x40500000 0 3 ∧ lands (.fadd 0 16 30 4 1) (pe0 0 0 0x3F8) 0x40200000 0 3 ∧
    after (.fmul 1 16 17 4 1) (pe0 0 0 0) (fun t => (t.pe 0).inflight == []) := by decide
/-- Example 03-1: 470.0 to E4M3 and 80,000.0 to E5M2, each with OF and NX. -/
theorem test_fabric_narrow : lands (.cvte4 0 2 4 1) (pe0 0x43EB0000 0 0) 0x7E 5 1 ∧
    lands (.cvte5 0 2 4 1) (pe0 0x479C4000 0 0) 0x7C 5 1 := by decide
/-- Example 03-4: 1/3 to BF16 with the bits of Example 03-3, and to nearest. -/
theorem test_fabric_stochastic : lands (.cvtbfs 0 2 3 4 1) (pe0 0x3EAAAAAB 0x31251BA7 0) 0x3EAA 1 1 ∧
    lands (.cvtbf 0 2 4 1) (pe0 0x3EAAAAAB 0 0) 0x3EAB 1 1 ∧ lands (.prnd 0 2 3 4 1) (pe0 0x105 0x104 0) 0x31251BA7 0 2 := by decide
theorem test_fabric_integer : lands (.isub 0 2 3 4 1) (pe0 1 2 0) 0xFFFFFFFF 0 0 ∧ lands (.ishl 0 2 3 4 1) (pe0 1 33 0) 2 0 0 ∧
    lands (.imad 0 2 3 4 1) (pe0 (-2) 3 0x3000) 0xFFFFFFFD 0 1 ∧ lands (.pack2 0 2 3 4 1) (pe0 0x1111 0x2222 0) 0x22221111 0 0 ∧
    lands (.iadd 0 2 30 4 1) (pe0 5 0 0xFFF) 4 0 0 := by decide
/-- R271: FRCP of +0 is +Inf with DZ; FRSQ of a negative number is NaN with NV; FEXP2 of 3.0; FLOG2 of 8.0. -/
theorem test_fabric_functions : lands (.frcp 0 2 4 1) (pe0 0 0 0) 0x7F800000 8 4 ∧
    lands (.frsq 0 2 4 1) (pe0 0xBF800000 0 0) 0x7FC00000 16 4 ∧ lands (.fexp2 0 2 4 1) (pe0 0x40400000 0 0) 0x41000000 0 4 ∧
    lands (.flog2 0 2 4 1) (pe0 0x41000000 0 0) 0x40400000 0 4 := by decide
/-- Example 10-3: `jnx k2, n, w` is 0xF8_6365; its first firing consumes A alone, the second joins A and B. -/
theorem test_join :
    let s := fun (n w : Word32) => (pe0 0 0 0).setPe 0 { (pe0 0 0 0).pe 0 with n := ⟨n, true⟩, w := ⟨w, true⟩ }
    decodeTableWord 24 0xF86365 = some (.jnx 0 24 27 2 1) ∧
    after (.jnx 0 24 27 2 1) (s 0x00023F80 0x00053F00) (fun t => (t.pe 0).keeps == [.w]) ∧
    lands (.jnx 0 24 27 2 1) (s 0x00023F80 0x00053F00) 0 0 0 ∧ lands (.jnx 0 24 27 2 1) (s 0x00054000 0x00053F00) 0x3F004000 0 0 ∧
    lands (.jnx 0 24 27 2 1) (s 0xFFFF0000 0xFFFF0000) 0x80008000 0 0 := by decide
/-- R153: the N latch goes out on W, physical k1 on E, under RBASE 1 as k0. -/
theorem test_route : after (.route 0 8 0 2) ((pe0 0 0 0).setPe 0 { PE.reset with n := ⟨5, true⟩, k := PE.reset.k.set 1 7 }
      |>.setRegion 0 { Region.reset with rbase := 1 }) (fun t => (t.pe 0).drives == [(.e, 7), (.w, 5)] && (t.pe 0).reads == [.n]) =
    true := by decide
/-- R262: SV shifts in 1 while iterations are left, ITER rises, RBASE falls; the last period of TRIP 1 ends the region. -/
theorem test_region_boundary :
    let s := fun r => State.reset.setRegion 0 r
    let run : Region := { Region.reset with st := 1, sv := 1, iter := 1, trip := 2, smax := 1 }
    after (.regionBoundary 0) (s run) (fun t => (t.region 0).sv == 3 && (t.region 0).iter == 2 && (t.region 0).rbase == 15 &&
      (t.region 0).st == 1) ∧
    after (.regionBoundary 0) (s { run with trip := 1, smax := 0 }) (fun t => (t.region 0).st == 3) := by decide
/-- Example 03-2: the block term is 21.0, and the accumulator becomes 22.0; the drain gives 11.0. -/
theorem test_matrix_term :
    let a := [expandE4m3 0x3C, expandE4m3 0xB0]
    let w := [expandE4m3 0x40, expandE4m3 0x34]
    blockTerm true 0x7F 0x82 a w = (0x41A80000, 0) ∧ fpAdd fp32 0x3F800000 0x41A80000 = (0x41B00000, 0) ∧
      drainConv 1 false 0 0x41300000 = (0x4130, 0) := by decide
/-- Example 11-1: the codes of weights (0, 0) and (1, 0), with the scale's bits 0 and 1. -/
theorem test_expansion : encodeElem false (expandE4m3 0x40) = 0x01D0 ∧ encodeElem false (expandE4m3 0x34) + 2 ^ 12 = 0x1198 := by decide
theorem test_matrix_words :
    let s := State.reset.setTile 0 { Tile.reset with matrix := { Matrix.reset with st := 2, due := [0], rounds := 3 } }
    after (.msig 6 4) s (fun t => (t.tile 0).matrix.signals == [⟨4, 0x0000000300000006, []⟩] && (t.tile 0).matrix.due == []) ∧
    after (.mma 0 0 1 2 3 2 0) s (fun t => (t.tile 0).matrix.st == 3 && (t.tile 0).matrix.due == [0]) := by decide
/-- Example 09-3: an ACT at MCK 8, a read with DELTA 16 is one MCK early and one with DELTA 17 issues at 25. -/
theorem test_command_timing :
    let bank : Bank := { Bank.reset with row := some 0x40, act := some 8 }
    let s := State.reset.setChan 0 { Chan.reset with
      banks := Chan.reset.banks.set 0 bank, history := [⟨1, 0, 0, 8⟩], last := 8, words := [0, 0], launch := some (0, 1), keeper := false }
    after (.drd 17 0 0 0 0 0x40 3 1 2 0) s (fun t => (t.chan 0).last == 25 && !(t.chan 0).halted && (t.chan 0).index == 1) ∧
    after (.drd 16 0 0 0 0 0x40 3 1 2 0) s (fun t => (t.chan 0).halted) := by decide
theorem test_activate : after (.dact 5 0 0 1 2 0x40) State.reset (fun t => ((t.chan 0).bank 6).row == some 0x40 &&
    (t.chan 0).history == [⟨1, 0, 6, 5⟩]) = true := by decide

/-! ### Events -/

set_option maxRecDepth 4000 in
set_option exponentiation.threshold 1100 in
/-- Example 05-3 (R124): the root combines one contribution of each child, once. -/
theorem test_tree :
    let f := fun (src seq : Nat) => (⟨9, src, 0, seq, 255, .tree 0 0 1⟩ : MeshFlit)
    let s := fun w l => State.reset.setNode (4096 * 9) { TreeNode.reset with children := [1, 2], waiting := w, last := l }
    after (.treeNodeCombine 9 (f 1 1)) (s [(2, [(false, 1)])] []) (fun t => (t.node (4096 * 9)).results == [2]) ∧
    after (.treeNodeCombine 9 (f 1 1)) (s [] [(32 * (4096 * 1 + 9), 1)]) (fun t => (t.node (4096 * 9)).results == []) := by decide
/-- R123: a flit with another SEQ than the expected one is dropped. -/
theorem test_mesh_order :
    let f : MeshFlit := ⟨1, 0, 3, 2, 255, .message false 5⟩
    let s := fun e => { State.reset with cycle := 2, travels := [(0, ⟨f, 1, false, 0, 0, .clean⟩)], triples := [(32 * 1 + 3, { Triple.reset with expected := e })] }
    after (.meshFlitArrival 0 .clean) (s 2) (fun t => (t.triple 35).expected == 3 && t.agenda.length == 1) ∧
    after (.meshFlitArrival 0 .clean) (s 1) (fun t => (t.triple 35).expected == 1 && t.agenda == []) := by decide +kernel
/-- R77: a remote STEF to a full word waits at its bank. -/
theorem test_remote_write :
    let f : MeshFlit := ⟨0, 1, 3, 1, 255, .write 8 5 2⟩
    after (.remoteWrite 0 f) (me id) (fun t => isFull t.here 1 && storeByte t 0 8 == 5) ∧
    after (.remoteWrite 0 f) (here (fun x => { x with store := { x.store with full := [1] } })) (fun t =>
      t.here.store.waiters == [⟨1, .remote 5 3 1 255⟩]) := by decide
/-- R331: a packet at a queue that is not enabled sets OVF. -/
theorem test_queue_closed : after (.launchPacket 0 2 .host []) State.reset (fun t => ((t.part 0).queue 2).ovf) = true := by decide
/-- R330: QCFG.EN and PRIO, by the register's own write. -/
theorem test_register_write : after (.registerWrite (.qcfg 0 2) 0x7) State.reset (fun t => ((t.part 0).queue 2).en &&
    ((t.part 0).queue 2).prio == 3 && !((t.part 0).queue 2).host) = true := by decide
/-- R244: a refresh interval of 4,680 MCK raises every debt. -/
theorem test_refresh_debt : after (.refreshDebtRise 3) State.reset (fun t =>
    ((t.chan 3).bank 31).debt == 1 && (t.chan 3).interval == 4680) = true := by decide +kernel
/-- Example 00-1's W1C rule on QSTAT: a bit is cleared where the written bit is 1 and kept where it is 0. -/
theorem test_write_one_clears : after (.registerWrite (.qstat 0 0) 0x100) ({ part (fun p => p.setQueue 0 { p.queue 0 with
      ovf := true, perr := true }) with cycle := 5 }) (fun t => !((t.part 0).queue 0).ovf && ((t.part 0).queue 0).perr) = true := by decide
/-- R391: a flit out of order, and the expected one with a bit turned over, ask for a replay. -/
theorem test_eyelet_replay : after (.eyeletFlitReceive 3 ⟨1, 0, 5, 0⟩ []) State.reset (fun t =>
    (t.eyelet 3).rx.requested && (t.eyelet 3).tx.queue.length == 1) ∧
    after (.eyeletFlitReceive 3 ⟨3, 0, 0, 7⟩ [300]) State.reset (fun t => (t.eyelet 3).rx.requested) ∧
    after (.eyeletFlitReceive 3 ⟨3, 0, 0, 7⟩ []) State.reset (fun t => (t.eyelet 3).rx.expected == 1) = true := by decide +kernel
theorem test_management : after .suspend State.reset (fun t => t.ctl.responses == [(3, 0, [])]) ∧
    after .resume State.reset (fun t => t.ctl.responses == [(4, 2, [])]) ∧
    after (.palloc 0 5) State.reset (fun t => t.ctl.responses == [(2, 2, [])]) := by decide

/-! ### Steps -/

/-- A stored word runs as the first instruction: ADDI g1, g0, 5; an illegal word takes cause 0x01; the next cycle with nothing
to do; work of a unit that does not exist is dropped. -/
theorem test_steps :
    let next := fun (s : State) (P : State → Bool) => (match step s with | .next t => P t | _ => false : Bool)
    let first := fun (w : Nat) => next (State.reset.withFetchWord 32 w)
    first 0x04200005 (fun t => (t.thread 0 0).reg 1 == 5) ∧ first 0xFFFFFFFF (fun t => (t.thread 0 0).cause == 1) ∧
    next State.reset (fun t => t.cycle == 1) ∧
    (match step { State.reset with agenda := [.thread 4096 0] } with | .next t => t.agenda == [] | _ => false) = true := by decide


/-! ### Witnesses: for every statement with hypotheses, states and operands that meet them, clause by clause

The states are those right after reset but for what is named; where a statement has several clauses, each has its line. -/

theorem test_witness_GuardsAndLevels :
    let s := me id
    s.me.inh = false ∧ s.me.pl.toNat < needOf (.tret 0) ∧
    (needOf (.cstep 1 0) ≤ s.me.pl.toNat ∧ onlyT7 (.cstep 1 0) = true ∧ s.cur.thread ≠ 7) ∧
    (needOf (.add 3 1 2 1) ≤ s.me.pl.toNat ∧ onlyT7 (.add 3 1 2 1) = false ∧ guardOf (.add 3 1 2 1) = some 1 ∧
      s.me.pred 1 = false) := by decide

theorem test_witness_TrapsAndReturns :
    ((me id).me.pred 0 = true ∧ (me id).me.inh = false) ∧ (me (fun h => { h with inh := true })).me.inh = true ∧
    1 ≤ (me (fun h => { h with pl := 1 })).me.pl.toNat := by decide

theorem test_witness_IntegerResults : (regs [(1, -7), (2, 0)]).me.pred 0 = true := by decide
theorem test_witness_ImmediateResults : (regs [(1, -7), (2, 3)]).me.pred 0 = true ∧ (me (fun h => { h with p := 8 })).me.pred 3 = true := by
  decide
theorem test_witness_ComparesAndPredicates : (regs []).me.pred 0 = true ∧ (0 : BitVec 3).toNat < 6 ∧ (5 : BitVec 3).toNat < 6 := by decide

theorem test_witness_FieldsAndIdentifiers :
    (let s := here (fun x => { x with place := some square })
     s.me.pred 0 = true ∧ s.me.pl = 0 ∧ s.here.place = some square ∧ square.w = 2 ∧ square.h = 2 ∧ s.here.core.shadowOf = none) ∧
    (let s := me (fun h => { h with pl := 1 })
     s.me.pl ≠ 0 ∧ s.here.core.shadowOf = none) := by decide

theorem test_witness_BranchesAndLoops :
    let s := regs [(1, 0x40), (2, 0x42), (3, 1), (4, 2)]
    (s.me.pred 0 ≠ decide ((0 : BitVec 1) = 1)) ∧ ¬ (s.me.pred 1 ≠ decide ((0 : BitVec 1) = 1)) ∧
    ((BitVec.ofInt 64 ((s.me.reg 1).toInt + 0)).toNat % 4 = 0) ∧ ((BitVec.ofInt 64 ((s.me.reg 2).toInt + 0)).toNat % 4 ≠ 0) ∧
    s.me.reg 4 ≠ 1 ∧ s.me.reg 3 = 1 ∧ s.me.reg 0 ≠ 1 ∧ s.me.pred 1 = false ∧ s.me.inh = false := by decide

/-- WAKE of threads 2 (parked), 3 (halted), 4 (running), of the own thread and of 8; WAITT and WAITE on both sides of their
limits, with an unposted promise; HALTT. -/
theorem test_witness_ThreadControl :
    let x : Tile := { Tile.reset with eng := { Engines.reset with cnum := 2, pending := [2], promises := [(2, 0, 5)] } }
    let s := (((({ State.reset with cycle := 10 }.setTile 0 x).setThread 0 2 { Thread.reset with st := .parked .park }).setThread 0 4
      { Thread.reset with st := .running }).setMe
      (withRegs [(1, 1), (2, 2), (3, 3), (4, 4), (8, 8), (11, 11)] { Thread.reset with st := .running }))
    s.me.pred 0 = true ∧ s.me.wake = false ∧ (me (fun h => { h with wake := true })).me.wake = true ∧
    (s.thread 0 2).st = .parked .park ∧ (s.thread 0 3).st = .halted ∧ (s.thread 0 4).st = .running ∧ s.me.st = .running ∧
    8 ≤ (s.me.reg 8).toNat ∧ s.me.inh = false ∧
    ((s.me.reg 2).toNat ≤ (s.ccnt 0).toNat ∧ ∀ n : BitVec 32, n ∈ s.here.eng.pending → n = 2) ∧
    ((s.me.reg 8).toNat ≤ (s.ccnt 0).toNat ∧ 2 ∈ s.here.eng.pending ∧ ((2 : BitVec 32), s.cur.thread, (5 : Word)) ∈ s.here.eng.promises ∧
      (5 : Word).toNat ≤ (s.me.reg 8).toNat) ∧
    (s.ccnt 0).toNat < (s.me.reg 11).toNat ∧
    (s.me.reg 1 ≠ 0 ∧ (s.me.reg 1).truncate 32 ∉ s.here.eng.pending) ∧ (s.me.reg 2).truncate 32 ∈ s.here.eng.pending ∧
    s.here.eng.cnum.toNat < (s.me.reg 3).toNat ∧ allPerformed s.me = true ∧ s.me.relaxed = [] ∧ s.me.faults = 0 := by
  refine ⟨by decide, by decide, by decide, by decide, by decide, by decide, by decide, by decide, by decide, ⟨by decide, ?_⟩,
    by decide⟩
  intro n h
  exact List.mem_singleton.mp h

theorem test_witness_FencesAndDrain :
    (me id).me.pred 0 = true ∧ (me id).me.pred 1 = false ∧ (me id).me.relaxed = [] ∧ allPerformed (me id).me = true ∧
    (me (fun h => { h with remoteOut := 1 })).me.remoteOut ≠ 0 ∧ (me (fun h => { h with faults := 1 })).me.faults ≠ 0 ∧
    relaxedHeld (me id).here [(0, [1])] = [] ∧
    relaxedHeld (here (fun x => { x with ctl := { x.ctl with bankOff := 1 } })).here [(0, [1])] ≠ [] := by decide

/-- Whether an access waits for a memory-ordering arc is a free value, so no state shows it; the bank's wait is shown. The last byte and
word inside the store, the first outside, a misaligned one, and a bank without power. -/
theorem test_witness_StoreAccesses :
    let s := regs [(1, 0x17FFFF8), (2, 0x1800000), (3, 4)]
    s.me.pred 0 = true ∧ NoRelaxed s ∧ StoreReady s (s.me.reg 1) 8 ∧ StoreReady s 0x17FFFFF 1 ∧
    ((s.me.reg 2).toNat % 8 = 0 ∧ 0x1800000 < (s.me.reg 2).toNat + 8) ∧ (s.me.reg 3).toNat % 8 ≠ 0 ∧ s.me.inh = false ∧
    bankHeld (here (fun x => { x with ctl := { x.ctl with bankOff := 1 } })).here 0 = true ∧
    lost { s with flaws := [⟨.store 0 1, false⟩] } (inStore 0 8 8) = true := by
  unfold NoRelaxed StoreReady
  decide

theorem test_witness_FullEmptyOperations :
    let s := here (fun x => { x with store := { x.store with full := [1] } })
    s.me.pred 0 = true ∧ NoRelaxed s ∧ StoreReady s 8 8 ∧ StoreReady s 16 8 ∧ isFull s.here 1 = true ∧ isFull s.here 2 = false ∧
    NoWaiter s 1 ∧ NoWaiter s 2 ∧ writesPending s.me = false ∧ writesPending (me (fun h => { h with writesOut := 1 })).me = true := by
  unfold NoRelaxed StoreReady NoWaiter
  decide

/-- A page of 64 KiB at 0x10000 for reads and writes at U, one at 0x20000 for neither at U, one for reads only at 0x30000; and the
register window. -/
theorem test_witness_GlobalAccesses :
    let x : Tile := { Tile.reset with tlb := [⟨0x10000, 0, 0x10000, true, true, true⟩, ⟨0x20000, 0, 0x10000, true, true, false⟩,
      ⟨0x30000, 0, 0x10000, true, false, true⟩] }
    let s := (part (fun p => { p with ptroot := 1 })).setTile 0 x
    s.me.pred 0 = true ∧ (0 : BitVec 4).toNat ≤ 12 ∧ (12 : BitVec 4).toNat ≤ 12 ∧ PageReady s 0x10000 false ∧ PageReady s 0x1FFF8 true ∧
    (0x10001 % 8 ≠ 0 ∧ 0x10001 / 2 ^ 48 ≠ 0x1FF) ∧ s.me.inh = false ∧ (s.me.pl = 0 ∧ (0x1FF * 2 ^ 48) / 2 ^ 48 = 0x1FF) ∧
    (tlbFind s.here.tlb 0x20000 = some ⟨0x20000, 0, 0x10000, true, true, false⟩ ∧ s.me.walkFault = []) ∧
    (tlbFind s.here.tlb 0x30000 = some ⟨0x30000, 0, 0x10000, true, false, true⟩) := by
  refine ⟨by decide, by decide, by decide, ⟨by decide, by decide, by decide, by decide, _, rfl, by decide⟩,
    ⟨by decide, by decide, by decide, by decide, _, rfl, by decide⟩, by decide⟩

theorem test_witness_StoreAtomics :
    let s := regs [(1, 8), (2, 0x1800000), (3, 6), (4, 0x17FFFFC)]
    let full : ScatterUnit := ⟨List.replicate 64 ⟨0, 0, 0, 0, 0, 0, 0, 0, 0⟩, []⟩
    s.me.pred 0 = true ∧ (12 : BitVec 4).toNat ≤ 12 ∧ NoRelaxed s ∧ StoreReady s (s.me.reg 1) 8 ∧ StoreReady s (s.me.reg 4) 4 ∧
    unitHasRoom s.here 8 0 32 = true ∧
    unitHasRoom (here (fun x => { x with mem := { x.mem with units := x.mem.units.set 0 full } })).here 8 0 32 = false ∧
    (s.me.reg 3).toNat % 4 ≠ 0 ∧ ((s.me.reg 2).toNat % 8 = 0 ∧ 0x1800000 < (s.me.reg 2).toNat + 8) ∧ s.me.inh = false := by
  unfold NoRelaxed StoreReady
  decide

/-- At M and at S, queue 63 and the last tile of the own partition 0; another partition. -/
theorem test_witness_RegisterWindow :
    let m := me (fun h => { h with pl := 3 })
    let s := (part (fun p => { p with present := true, w := 64, h := 64 })).setMe { Thread.reset with pl := 1 }
    (m.me.pred 0 = true ∧ m.me.pl ≠ 0 ∧ 0 = pidOf m m.cur.tile) ∧
    (∃ va : Word, va.toNat = 0x1FF * 2 ^ 48 + (0x3F000000000 + 0x40000 * 0 + 0x1000 * 63 + 0x40)) ∧
    (∃ va : Word, va.toNat = 0x1FF * 2 ^ 48 + (0x3F800000000 + 0x40 * 4095 + 0x18)) ∧
    (s.me.pl ≠ 0 ∧ 0 = pidOf s s.cur.tile ∧ holdsTile (s.part (pidOf s s.cur.tile)) 4095 = true) ∧
    (s.me.inh = false ∧ 1 ≠ pidOf s s.cur.tile) := by
  refine ⟨by decide, ⟨0x1FF03F00003F040, by decide⟩, ⟨0x1FF03F80003FFD8, by decide⟩, by decide⟩

theorem test_witness_Messages :
    let s := here (fun x => { x with place := some square })
    let f := here (fun x => { x with core := { x.core with send := x.core.send.set 0 (List.replicate 32 ⟨0, 0, 0, 0, 0, .picot⟩) } })
    (s.me.pred 0 = true ∧ NoRelaxed s ∧ NamesTile s 65 65) ∧ (sendQueue s.here 2).length < 32 ∧ ¬ (sendQueue f.here 2).length < 32 ∧
    writesPending s.me = false ∧ s.me.inh = false ∧ (∀ dst, ¬ NamesTile s 2 dst) ∧ recvQueue s.here true = [] ∧
    recvQueue (here (fun x => setRecv x true [8])).here true = [8] ∧ s.here.core.heldMsgs = [] := by
  refine ⟨⟨by decide, rfl, fun _ => ⟨square, rfl, by decide⟩, fun h => absurd rfl h⟩, by decide, by decide, by decide, by decide, ?_,
    by decide⟩
  intro dst h
  obtain ⟨q, e, w, -⟩ := h.1 rfl
  have : q = square := by
    have e' : some square = some q := e
    exact (Option.some.inj e').symm
  subst this
  exact absurd w (by decide)

/-- A descriptor of one 8-byte element from offset 0x100 to 0x200 of the tile's store, at offset 0x40; and one whose destination
0x204 is no multiple of 8. -/
theorem test_witness_StreamContexts :
    let mem := fun (dst : Nat) => [(0x40, 8, 0x100), (0x48, 8, dst), (0x50, 8, 0x0001000100010001), (0x78, 1, 3)].foldl
      (fun m e => memStore m e.1 e.2.1 e.2.2) []
    let s := fun dst => (here (fun x => { x with store := { x.store with mem := mem dst } })).setMe
      (withRegs [(1, 0x40), (2, 15), (3, 16), (4, 0x20), (5, 0x21), (6, 0x41)] Thread.reset)
    let f := fun dst => readDescriptor (storeBytes (s dst).here 0x40 64)
    let bs := storeBytes (s 0x200).here 0x40 64
    ((s 0).me.pred 0 = true ∧ NoRelaxed (s 0x200)) ∧ (((s 0).me.reg 2).toNat < 16 ∧ heldIn (s 0x200).here 0x40 64 = none) ∧
    ((s 0x200).here.stream 15).st = 0 ∧ formOk bs (f 0x200) = true ∧ alignedOk (f 0x200) = true ∧
    (formOk (storeBytes (s 0x204).here 0x40 64) (f 0x204) = true ∧ alignedOk (f 0x204) = false ∧ (s 0x204).me.inh = false) ∧
    insideOk (s 0x200) (f 0x200) (f 0x200).src (f 0x200).sstr 8 = true ∧
    insideOk (s 0x200) (f 0x200) (f 0x200).dst (f 0x200).dstr 8 = true ∧
    patternPages (s 0x200) (srcAddr (f 0x200)) false 0 0 [] = ([], none) ∧ (s 0x200).flaws = [] ∧ pinned (s 0x200).here ≤ 128 ∧
    ((here (fun x => x.setStream 15 { Stream.reset with st := 1 })).here.stream 15).st = 1 ∧
    ((here (fun x => x.setStream 15 { Stream.reset with st := 2 })).here.stream 15).st = 2 ∧
    (((s 0).here.eng.pending.all (fun k => decide ((s 0).here.eng.cnum.toNat + 1 < k.toNat + 256)) = true) ∧ (s 0).here.eng.cnum ≠ BitVec.allOnes 32) ∧
    (let e := (here (fun x => { x with eng := { x.eng with pending := [1], cnum := 256 } })).here.eng
     e.pending.all (fun k => decide (e.cnum.toNat + 1 < k.toNat + 256)) = false) ∧
    (((s 0).me.reg 3).toNat = 0x10 + 0 ∧ (s 0).me.reg 4 = 0x20 ∧ (s 0).me.reg 5 = 0x21) ∧
    (16 ≤ ((s 0).me.reg 3).toNat ∧ 0x14 ≤ ((s 0).me.reg 6).toNat ∧ ((s 0).me.reg 6).toNat % 64 ≠ 0) := by
  unfold NoRelaxed
  decide +kernel

/-- A copy within the store, to and from another tile, and to a peer; lengths at both limits; a transfer. -/
theorem test_witness_CopiesAndTransfers :
    let s := (part (fun p => { p with edges := [(3, 0x200)] })).setTile 0 { Tile.reset with place := some square }
    let far : Word := 2 ^ 60 + 65 * 2 ^ 25 + 0x1000
    let peer : Word := 8 * 2 ^ 60 + 3 * 2 ^ 37
    (s.me.pred 0 = true ∧ NoRelaxed s) ∧ ((8 : Word).toNat % 8 = 0 ∧ (8 : Word) ≠ 0 ∧ (2 ^ 24 : Word).toNat ≤ 2 ^ 24) ∧
    ((s.here.eng.pending.all (fun k => decide (s.here.eng.cnum.toNat + 1 < k.toNat + 256)) = true) ∧ s.here.eng.cnum ≠ BitVec.allOnes 32) ∧
    (endOk [0] 0x100 = true ∧ endOk [0] 0x108 = true ∧ 0x100 + 8 ≤ 0x108) ∧
    (endOk [1] far = true ∧ far.toNat / 2 ^ 25 % 2 ^ 12 = 65 ∧ far.toNat % 2 ^ 25 = 0x1000) ∧ NamesTile s 65 65 ∧
    (endOk [8] peer = true ∧ (tabGet 0 (s.part (pidOf s s.cur.tile)).edges (peer.toNat / 2 ^ 37 % 32)).getLsbD 9 = true) ∧
    (s.me.inh = false ∧ (2 ^ 24 + 8 : Word).toNat > 2 ^ 24 ∧ 2 ≤ (peer.toNat / 2 ^ 60)) ∧
    ((∃ (soff : Nat) (acc : Bool) (unit uoff : Nat) (toStore : Bool) (len : Nat), soff % 64 = 0 ∧ soff < 2 ^ 25 ∧ unit < 16 ∧ uoff % 64 = 0 ∧ uoff < 2 ^ 15 ∧ 1 ≤ len ∧ len ≤ 512 ∧
      soff + 64 * len ≤ 0x1800000 ∧ uoff + 64 * len ≤ (if acc then 32768 else 18432) ∧
      (BitVec.ofNat 64 (soff + 2 ^ 25 * (if acc then 1 else 0) + 2 ^ 27 * unit + 2 ^ 31 * uoff + 2 ^ 46 * (if toStore then 1 else 0))).toNat =
        soff + 2 ^ 25 * (if acc then 1 else 0) + 2 ^ 27 * unit + 2 ^ 31 * uoff + 2 ^ 46 * (if toStore then 1 else 0))) ∧
    2 ^ 47 ≤ (2 ^ 47 : Word).toNat := by
  refine ⟨⟨by decide, rfl⟩, by decide, by decide, by decide, by decide, ⟨fun _ => ⟨square, rfl, by decide⟩, fun h => absurd rfl h⟩,
    by decide, by decide, ⟨0, true, 15, 0, true, 512, by decide⟩, by decide⟩

/-- An FP32 tensor of 16 by 16 tiles, TID 7, with HALO 2 and its one line (0, 0); its pages in the core's TLB; TID 0. -/
def tensor7 : Tensor := { Tensor.reset with
  base := 0x10000, fmt := 1, rank := 2, halo := 2, dims := #v[16, 16, 1, 1], strides := #v[64, 0, 0], ts := #v[4, 4, 0, 0] }
def withTensor : State :=
  (part (fun p => { p with w := 1, h := 1, ptroot := 1, tensors := [(7, tensor7)] })).setTile 0 { Tile.reset with
    place := some square, tlb := [⟨0x10000, 0, 0x10000, true, true, true⟩] }
/-- The hypothesis `PageReady`, computed. -/
def pageReady (s : State) (write : Bool) (va : Nat) : Bool :=
  decide (va < 2 ^ 57) && decide (va / 2 ^ 48 ≠ 0x1FF) && (s.part (pidOf s s.cur.tile)).ptroot.getLsbD 0 && s.me.walkFault.isEmpty &&
    (tlbFind s.here.tlb va).any (fun g => permits g write (s.me.pl == 0))
theorem pageReady_iff {s : State} {write : Bool} {va : Nat} (h : pageReady s write va = true) : PageReady s va write := by
  simp only [pageReady, Bool.and_eq_true, decide_eq_true_eq, List.isEmpty_iff, Option.any_eq_true] at h
  obtain ⟨⟨⟨⟨a, b⟩, c⟩, d⟩, g, e, k⟩ := h
  exact ⟨a, b, c, d, g, e, k⟩

theorem test_witness_TensorOperations :
    let s := withTensor
    let w : Word := 7 * 2 ^ 48
    let p := s.part (pidOf s s.cur.tile)
    let line : Line := ⟨List.replicate 1024 0, List.replicate 16 0, 0, true, 0⟩
    let block := [(8, 1), (9, 2), (16, 16), (20, 16), (24, 1), (28, 1), (56, 4), (57, 4)].foldl (fun m e => memPut m e.1 e.2) []
    (s.me.pred 0 = true ∧ NoRelaxed s ∧ tagValid p w = true ∧ s.flaws = [] ∧ s.me.walkFault = [] ∧ threadWaits s = false) ∧
    (∀ va ∈ lineAddresses p (w.truncate 60), PageReady s va true) ∧
    ((0x17FFBC0 % 64 = 0 ∧ 0x17FFBC0 + 1040 ≤ 0x1800000) ∧ heldIn s.here 0x17FFBC0 1040 = none) ∧
    ((s.here.eng.pending.all (fun k => decide (s.here.eng.cnum.toNat + 1 < k.toNat + 256)) = true) ∧ s.here.eng.cnum ≠ BitVec.allOnes 32 ∧ lineHit p (w.truncate 60) = none) ∧
    (lineHit { p with lines := [(7 * 2 ^ 48, line)] } (w.truncate 60)).isSome = true ∧
    ((tabGet Tensor.reset p.tensors (w.toNat / 2 ^ 48)) = tensor7 ∧ 1 < tensor7.rank.toNat ∧ tensor7.halo ≠ 0 ∧ tensor7.g64 = false ∧
      stripSize tensor7 1 = 128) ∧ NamesTile s 65 65 ∧
    (ownWaiting s 7 = [] ∧ ownWaiting s 0 = []) ∧ (s.me.inh = false ∧ tagValid p (6 * 2 ^ 48 : Word) = false ∧ 3 ≤ (3 : Word).toNat) ∧
    ((tensor7.gen.toNat + 1) % 2 ^ 16 ≠ 0 ∧ tensorOk (memBytes block 0 64) (readTensor (memBytes block 0 64) 0) = true ∧
      tensorOk (memBytes [] 0 64) (readTensor (memBytes [] 0 64) 0) = false) ∧ (∀ e ∈ p.lines, e.2.dirty = false) ∧
    (4096 ≤ (4096 : Word).toNat ∧ (0x1800000 : Nat) < 0x17FFFFF + 64 ∧ s.me.pl = 0) := by
  have ready : (lineAddresses (withTensor.part (pidOf withTensor withTensor.cur.tile)) ((7 * 2 ^ 48 : Word).truncate 60)).all
      (pageReady withTensor true) = true := by decide +kernel
  refine ⟨⟨by decide, rfl, by decide +kernel, by decide +kernel⟩, fun va h => pageReady_iff (List.all_eq_true.mp ready va h),
    by decide, by decide +kernel, by decide +kernel, by decide +kernel, ⟨fun _ => ⟨square, rfl, by decide⟩, fun h => absurd rfl h⟩, by decide +kernel⟩

/-- A collective of two paths to eyelets 0 and 1 on tile 0, node 0, bound by an image; eyelet 0 carries light. -/
def collImage : Image := { bare with pw := 2, ph := 2, colls := [⟨0, 2, [some 0, some 1], 8, [0], [], none, 0, [], []⟩] }
/-- Launch 1 of binding 0 of partition 0, live in the placement `square`, with an image. -/
def live (i : Image) : State :=
  (part (fun p => { p with
    present := true, w := 2, h := 2, bindings := [(0, { Binding.reset with image := some i, bound := true })]
    launches := [(1, { Launch.reset with phase := .live })], queues := p.queues.set 0 { Queue.reset with en := true, packets := [1] }
    })).setTile 0 { Tile.reset with place := some square }

theorem test_witness_BarriersAndEvents :
    let s := live collImage
    let set := fun (f : Thread → Thread) => s.setMe (f s.me)
    let lit := { s with eyelets := [(0, { Eyelet.reset with tx := { LinkDir.reset with lst := 2 } })] }
    (s.me.pred 0 = true ∧ NoRelaxed s ∧ s.here.place = some square) ∧
    ((0x00010000 % 2 ^ 16 < 16 ∧ 1 ≤ 0x00010000 / 2 ^ 16) ∧ 0x8000000F % 2 ^ 16 < 16 ∧ 0x8000000F / 2 ^ 16 ≤ 32768) ∧
    (tabFind s.me.arrivals 0 = none ∧ s.me.remoteOut = 0 ∧ s.me.globalOut = 0 ∧ s.me.writebackOut = 0 ∧ s.me.faults = 0) ∧
    (set (fun h => { h with remoteOut := 1 })).me.remoteOut ≠ 0 ∧
    tabFind (set (fun h => { h with arrivals := [(0, .complete)] })).me.arrivals 0 = some .complete ∧
    tabFind (set (fun h => { h with arrivals := [(0, .sent 4)] })).me.arrivals 0 = some (.sent 4) ∧
    (s.me.inh = false ∧ ¬ 1 ≤ 0x0000FFFF / 2 ^ 16 ∧ 4096 ≤ 4096 ∧ (4096 : Nat) / 4096 % 2 ^ 20 ≠ 0) ∧
    boundColl s 0 1 = none ∧ (boundColl s 0 0).isSome = true ∧ tabGet (0, 0) s.here.core.calls 0 = (0, 0) ∧ 0 < 0 + 2 ∧ 0 + 2 ≤ 2 ∧
    splitBlocks (s.setPart 0 { s.part 0 with edges := [(0, 0x200), (1, 0x201)] }) s.here 0 0 ⟨0, 2, [some 0, some 1], 8, [0], [], none, 0, [], []⟩ = none ∧
    splitBlocks (lit.setPart 0 { lit.part 0 with edges := [(0, 0x200), (1, 0x201)] }) s.here 0 0 ⟨0, 2, [some 0, some 1], 8, [0], [], none, 0, [], []⟩ =
      some [8, 0] ∧
    (s.part 0).snapi = 0 ∧ (5 + 2 ^ 32 - 5) % 2 ^ 32 < 2 ^ 31 ∧ ¬ (0 + 2 ^ 32 - 1) % 2 ^ 32 < 2 ^ 31 := by
  unfold NoRelaxed
  decide +kernel

theorem test_witness_CsrAccess :
    let s := fun (l : BitVec 2) (g : Nat) => (part (fun p => { p with channels := [69] })).setMe
      (withRegs [(1, 0xE000), (2, 0xFFFC), (3, 0xDFFC), (4, 0x0000002280000001), (5, 0x31), (6, 4095), (7, 4096), (8, 32)]
        { Thread.reset with pl := l, globalOut := g })
    let t := { live collImage with cur := { Cur.reset with thread := 7 } }
    ((s 0 0).me.pred 0 = true ∧ (s 0 0).me.inh = false ∧ csrOf 0x200 = none ∧ csrOf 0x3FF = none) ∧
    ((s 1 0).me.globalOut = 0 ∧ (s 1 1).me.globalOut ≠ 0 ∧ 1 ≤ (s 1 0).me.pl.toNat ∧ (s 3 0).me.pl = 3) ∧
    (0xE000 ≤ ((s 1 0).me.reg 1).toNat ∧ ((s 1 0).me.reg 2).toNat < 0x10000 ∧ ((s 1 0).me.reg 2).toNat % 4 = 0 ∧
      ((s 1 0).me.reg 3).toNat < 0xE000) ∧
    (t.cur.thread = 7 ∧ boundColl t 0 4095 = none ∧ (boundColl t 0 t.here.core.csel.toNat).isSome = true ∧
      ((boundColl t 0 0).map (fun c => c.paths.length)) = some 2) ∧
    (((s 1 0).me.reg 6).toNat < 4096 ∧ 4096 ≤ ((s 1 0).me.reg 7).toNat ∧ 32 ≤ ((s 1 0).me.reg 8).toNat) ∧
    (let v := ((s 1 0).me.reg 4).toNat
     v / 2 % 2 ^ 13 = 0 ∧ v < 2 ^ 52 ∧ owned ((s 1 0).part 0) (v / 2 ^ 14 % 2 ^ 38 * 2 ^ 14) = true) ∧
    (((s 1 0).me.reg 1).getLsbD 0 = false ∧ ((s 1 0).me.reg 5).getLsbD 0 = true ∧ ((s 1 0).me.reg 5).toNat / 2 ^ 51 % 2 = 0) := by
  decide +kernel

theorem test_witness_SystemOperations :
    let s := (live collImage).setMe (withRegs [(1, 1), (2, 2), (3, 64), (4, 0x20000004)] { Thread.reset with pl := 1 })
    (s.me.pred 0 = true ∧ 1 ≤ s.me.pl.toNat ∧ s.me.inh = false) ∧ ((s.me.reg 1).toNat < 2 ∧ 2 ≤ (s.me.reg 2).toNat) ∧
    (1 ∈ liveLaunches (s.part (pidOf s 0)) ∧ 2 ∉ liveLaunches (s.part (pidOf s 0)) ∧ (s.me.reg 1).toNat % 64 ≠ 0) ∧
    (holdsTile (s.part 0) 0 = true ∧ holdsTile (s.part 0) 2 = false) ∧
    ((s.me.reg 3).toNat % 64 = 0 ∧ (s.me.reg 4).toNat = 4 + 2 ^ 16 * 8192 ∧ 4 % 4 = 0) ∧
    ((0x2000 : Word).toNat = 8192 + 2 ^ 16 * 0 ∧ 0 + 8192 ≤ 8192 ∧ 64 + 8192 ≤ 0x1800000 ∧ otherPrivileged s = false ∧
      heldIn s.here 64 8192 = none) := by decide +kernel

/-- A page that holds the packet at 0x10000 of host memory, whose queue 0 is open; a launch, a patch, a bind, an unbind packet, one
of a TYPE that does not exist, and a closed queue; a snapshot interval. -/
theorem test_witness_LaunchInstruction :
    let pk := fun (l : List (Nat × Byte)) => l.foldl (fun m e => memPut m e.1 e.2) ([] : Mem)
    let x : Tile := { (live bare).here with tlb := [⟨0x10000, 2 ^ 51, 0x10000, true, true, true⟩] }
    let s := fun (l : List (Nat × Byte)) (k : Nat) => { ((live bare).setPart 0 { (live bare).part 0 with ptroot := 1, snapi := k }).setTile 0 x with
      host := pk l }
    let bs := fun (l : List (Nat × Byte)) => memBytes (pk l) 0 64
    let launch : List (Nat × Byte) := [(0, 1)]
    let bind : List (Nat × Byte) := [(0, 3), (2, 1)]
    let src := PacketSource.thread 0 0
    ((s launch 0).me.pred 0 = true ∧ NoRelaxed (s launch 0) ∧ (s launch 0).me.inh = false) ∧ (64 ≤ 64 ∧ 63 < 64) ∧
    ((s launch 0).me.remoteOut = 0 ∧ (s launch 0).me.globalOut = 0 ∧ (s launch 0).me.writebackOut = 0 ∧ (s launch 0).me.faults = 0) ∧
    ((s launch 0).me.walkFault = [] ∧ threadWaits (s launch 0) = false ∧ arrivalWaits (s launch 0) 0 = false ∧
      arrivalWaits { s launch 0 with arrivals := [.event (.launchPacket 0 0 .host [])] } 0 = true) ∧
    ((lineSpans 0x10000 64).map (fun e => e.2.2)).all (pageReady (s launch 0) false) = true ∧
    ((((s launch 0).part 0).queue 0).en = true ∧ queueCount ((s launch 0).part 0) 0 < 64 ∧ (((s launch 0).part 0).queue 1).en = false) ∧
    (packetOk ((s launch 0).part 0) (src 0) (bs launch) = true ∧ field (bs launch) 0 1 = 1 ∧ ((s launch 0).part 0).snapi = 0) ∧
    (packetOk ((s launch 0).part 0) (src 0) (bs [(0, 5)]) = false ∧ field (bs [(0, 5)]) 0 1 ≠ 3 ∧ field (bs [(0, 5)]) 0 1 ≠ 4) ∧
    (packetOk ((s launch 0).part 0) (src 1) (bs bind) = true ∧ field (bs bind) 0 1 = 3 ∧ (s bind 0).me.pl = 0) ∧
    (let p := { (s launch 0).part 0 with launches := [], bindings := [(0, { Binding.reset with psize := 64, bound := true })] }
     packetOk p (src 0) (bs [(0, 2), (6, 8)]) = true ∧ packetOk p (src 1) (bs [(0, 4)]) = true) ∧
    (((s launch 5).part 0).snapi ≠ 0 ∧ (s launch 5).here.place = some square ∧ square.pid = pidOf (s launch 5) 0) := by
  refine ⟨⟨by decide, rfl, by decide⟩, by decide +kernel⟩

/-- `rlx` before LD.D g7, 8(g8), before STF, before ADD and before ST; an RPT of ADD with strides 1, 2, 3, one whose last number
exceeds 31, the first and a later repetition, and one of LD that traps. -/
theorem test_witness_Prefixes :
    let s := regs []
    let stored := (State.reset.setThread 0 0 { Thread.reset with hi := 64, lo := 0, next := 2 }).setTile 0
      { Tile.reset with core := { Core.reset with
          imem := memStore [] 0 8 0x00611000F0042980, threads := Core.reset.threads.set 0 { Thread.reset with hi := 64, next := 2 } } }
    decodeSeqWord 0x60E81808 = some (.ld 7 8 0 3 8) ∧ decodeSeqWord 0x6C201800 = some (.stf 1 0 0 0) ∧
    decodeSeqWord 0x68201800 = some (.st 1 0 0 3 0) ∧ decodeSeqWord 0xFFFFFFFF = none ∧
    (s.me.pred 0 = true ∧ s.me.pred 1 = false ∧ s.me.inh = false ∧ NoRelaxed s ∧ StoreReady s 0 8) ∧
    rptAllowed 4 1 2 3 false 0x00611000 = true ∧ rptAllowed 32 1 2 3 false 0x00611000 = false ∧
    (∃ p body t, repetition 1 2 3 false 0x00611000 0 = some (p, body) ∧ s.me.pred p = true ∧
      body (s.setMe { s.me with next := BitVec.ofNat 10 0, rptAt := some s.cur.ipc }) = .done t) ∧
    (∃ p body e, repetition 0 0 0 false 0x60611800 0 = some (p, body) ∧ rptAllowed 1 0 0 0 false 0x60611800 = true ∧
      let u := regs [(1, 1)]
      u.me.pred p = true ∧ body (u.setMe { u.me with next := BitVec.ofNat 10 0, rptAt := some u.cur.ipc }) = .trap 3 0 1 e) ∧
    (decodeSeq (fetchWords stored.here stored.me 0) = .instr (.rpt 4 1 2 3 false 0x00611000) 2 ∧ stored.me.next.toNat = 2 ∧
      decodeSeqWord 0x00611000 = some (.add 3 1 2 0) ∧ 3 + 2 * 1 < 32 ∧ 1 + 2 * 2 < 32 ∧ 2 + 2 * 3 < 32) := by
  refine ⟨by decide, by decide, by decide, by decide, ⟨by decide, by decide, by decide, rfl, by unfold StoreReady; decide⟩, by decide,
    by decide, ⟨_, _, _, rfl, by decide, rfl⟩, ⟨_, _, _, rfl, by decide, by decide, rfl⟩, by decide +kernel⟩

/-- Region 3 of the placement `square`, over the PEs of tile 0, idle and loaded with one phase whose PEs do nothing. -/
def plainRegion : Region := { Region.reset with number := 3, w := 8, h := 8, sv := 1, loaded := true, phases := [⟨[], []⟩] }
def withRegion3 (r : Region) : State :=
  ({ State.reset with cur := { Cur.reset with region := 3, ra := 0x7005 } }.setTile 0 { Tile.reset with place := some square }).setRegion 3 r

theorem test_witness_FabricOps :
    ((withRegion3 plainRegion).region (withRegion3 plainRegion).cur.region).sv.getLsbD (0 : BitVec 3).toNat = true ∧
    ((withRegion3 plainRegion).region (withRegion3 plainRegion).cur.region).sv.getLsbD (7 : BitVec 3).toNat = false := by decide

/-- IMM12 = 5: a scatter binding, a tree binding whose flit has been begun, and one whose flit has not. -/
theorem test_witness_FabricMemoryAndJoins :
    let s := withRegion3 plainRegion
    let m := fun (b : BitVec 64) => { MemInterface.reset with preds := [(5, b)], predFlits := [⟨5, 0, 0, 0, [], 0, 3⟩] }
    s.cur.ra.toNat % 2 ^ 12 = 5 ∧ (s.region s.cur.region).sv.getLsbD (0 : BitVec 3).toNat = true ∧
    (s.region s.cur.region).sv.getLsbD (1 : BitVec 3).toNat = false ∧ (31 : BitVec 5) = 31 ∧ (30 : BitVec 5) ≠ 31 ∧
    (tabGet 0 (m 1).preds 5).toNat % 4 = 1 ∧ (tabGet 0 (m 2).preds 5).toNat % 4 = 2 ∧
    ((m 2).predFlits.find? (fun f => f.rid == 5 && f.q == 0)).isSome = true ∧
    ((m 2).predFlits.find? (fun f => f.rid == 5 && f.q == 1)).isSome = false := by decide

/-- Phase 0 passes its checks, phase 1 has a ring window outside the memory; a running region; a rewrite pending and not; a region
that the launch does not have; the limits of the fields. -/
theorem test_witness_FabricInstructions :
    let bad : PeImage := ⟨0, 0, (31, 2), (0, 1), (0, 1), [], [], [], [], []⟩
    let r := { plainRegion with phases := [⟨[], []⟩, ⟨[bad], []⟩] }
    let s := withRegion3 r
    (s.me.pred 0 = true ∧ NoRelaxed s ∧ s.me.inh = false) ∧
    (namedRegion s (3 % 4096) = some 3 ∧ namedRegion s (4 % 4096) = none ∧ (4095 : Word).toNat < 4096) ∧
    ((7 : Word).toNat < 8 ∧ (0 : Word).toNat < 8 ∧ (s.region 3).st = 0 ∧ (s.region 3).phases[0]? = some ⟨[], []⟩ ∧
      checkPhase s 3 ⟨[], []⟩ = none) ∧
    ((s.region 3).phases[1]? = some ⟨[bad], []⟩ ∧ (checkPhase s 3 ⟨[bad], []⟩).isSome = true) ∧
    ((2 ^ 32 - 1 : Word).toNat < 2 ^ 32 ∧ 2 ^ 32 ≤ (2 ^ 32 : Word).toNat ∧ (s.region 3).loaded = true) ∧
    ((0xFFFFFFFF00000101 : Word).toNat % 2 ^ 32 < 2 ^ 9 ∧ (0xFFFFFFFF00000101 : Word).toNat / 8 % 32 = 0 ∧
      ((s.region 3).phases[(0xFFFFFFFF00000101 : Word).toNat % 8]?).isSome = true ∧ (s.region 3).rewrite = none) ∧
    (2 ^ 9 ≤ (0x200 : Word).toNat % 2 ^ 32 ∧ (8 : Word).toNat / 8 % 32 ≠ 0 ∧ 8 ≤ (8 : Word).toNat) ∧
    (withRegion3 { r with rewrite := some (0, false, 0, 0, 0) }).region 3 = { r with rewrite := some (0, false, 0, 0, 0) } ∧
    ((withRegion3 { r with st := 1 }).region 3).st ≠ 0 ∧ ((withRegion3 { r with st := 1 }).region 3).st ≠ 3 ∧
    namedRegion (withRegion3 { r with st := 1 }) 3 = some 3 ∧
    ((0x0003 : Word).toNat / 4096 = 0 ∧ (0x1003 : Word).toNat / 4096 = 1 ∧ (0x2003 : Word).toNat / 4096 = 2 ∧
      3 * 4096 ≤ (0x3000 : Word).toNat ∧ 4096 ≤ (4096 : Word).toNat) := by
  unfold NoRelaxed
  decide +kernel

/-- One MNOP with a zero parameter block passes the checks; one of another period fails; the last place in the store; a table with
MEND; an engine that runs. -/
theorem test_witness_MatrixInstructions :
    let ps : List Byte := List.replicate 256 0
    let s := regs [(1, 0x17FFEF8), (2, 0), (3, 0x17FFF00), (4, 0x10000), (5, 0x1FF), (6, 2 ^ 32), (7, 0x300)]
    let m := { Matrix.reset with st := 1, table := Matrix.reset.table.set 0 (7 * 2 ^ 58) }
    (s.me.pred 0 = true ∧ NoRelaxed s ∧ s.me.inh = false) ∧ s.here.matrix.st ≠ 2 ∧ s.here.matrix.st ≠ 3 ∧
    (s.flaws = [] ∧ s.reloading = [] ∧ s.here.matrix.reload = [] ∧ heldIn s.here s.here.matrix.sigbase.toNat 128 = none) ∧
    (0x17FFEF8 % 8 = 0 ∧ 0x17FFEF8 + 8 * 1 + 256 ≤ 0x1800000 ∧ (0 : Word).toNat / 64 % 4 = 0 ∧ heldIn s.here 0x17FFEF8 264 = none) ∧
    (checkTable ps (tableWords (List.replicate 264 0) 1) 1 = none ∧ s.here.bobbin.expanding = []) ∧
    (checkTable ps [2 ^ 50 * 5] 1).isSome = true ∧ ¬ 0x17FFF00 + 8 * 1 + 256 ≤ 0x1800000 ∧
    (2 ^ 16 ≤ (0x10000 : Word).toNat ∧ (0x40 : Word).toNat / 64 % 4 ≠ 0) ∧
    (m.st ≠ 0 ∧ m.st ≠ 2 ∧ (m.table[0]?.getD 0).toNat / 2 ^ 58 = 7 ∧ (1 : Word) ≠ 0 ∧ 2 ^ 32 ≤ (2 ^ 32 : Word).toNat) ∧
    ((0x1FF : Word).extractLsb' 8 2 = 1 ∧ (0x300 : Word).extractLsb' 8 2 = 3 ∧ (0x7FF : Word).toNat < 2 ^ 11 ∧
      (0x400 : Word).getLsbD 10 = true ∧ (0x400 : Word).extractLsb' 8 2 = 0) ∧
    (0x17F8000 % 64 = 0 ∧ 0x17F8000 + 8192 * 4 ≤ 0x1800000 ∧ 0x17F8040 + 8192 * 4 > 0x1800000 ∧
      heldIn s.here 0x17F8000 (8192 * 4) = none) ∧
    ((0xFFFF : Word).toNat < 2 ^ 16 ∧ { m with st := 2 }.st = 2 ∧ (2 : Word) = 2 ∧ 3 ≤ (3 : Word).toNat) := by
  unfold NoRelaxed
  decide +kernel

/-- Channel 0 of sequencer 0 under launch 1 of partition 0, at a word whose MCK is 100, past `last` = 90. -/
def channel (f : Chan → Chan) : State :=
  { State.reset with cycle := 1000 }.setChan 0 (f { Chan.reset with
    launch := some (0, 1), keeper := false, last := 90, loadedAtM := true, words := [0x0D * 2 ^ 58, 10 * 2 ^ 46, 0x0D * 2 ^ 58], index := 1 })
def bank0 (b : Bank) (c : Chan) : Chan := { c with banks := c.banks.set 0 b }
/-- Row 7 open since MCK 20. -/
def open7 : Chan → Chan := bank0 ⟨some 7, some 20, none, 0⟩
/-- The check of a command at MCK 100. -/
def passesAt (f : Chan → Chan) (op bank row : Nat) : Bool := commandFailure ((channel f).chan 0) 100 ⟨op, 0, bank, row⟩ false = none

/-- Each command at MCK 100: ACT, PRE, PREA, REFab and REFpb at a debt of -7 and, in an idle run, of -8, RFM, SRE, SRX, MRS, and
reads and writes of the open row; a lane with and without place; data for both kinds of lane that a write takes from;
LANE_DATA_ENTRY with and without a launch, on both sides of 576 and 1,024 bytes; the words of a program that does not stall. -/
theorem test_witness_MemoryCommands :
    (0 : BitVec 5).toNat = 0 % 32 ∧ passesAt id 1 0 7 = true ∧ passesAt id 2 0 0 = true ∧ passesAt id 3 32 0 = true ∧
    passesAt (bank0 ⟨none, none, none, -7⟩) 8 32 0 = true ∧ passesAt (bank0 ⟨none, none, none, -7⟩) 9 0 0 = true ∧
    (let c := (channel (bank0 ⟨none, none, none, -8⟩)).chan 0
     commandFailure c 100 ⟨8, 0, 32, 0⟩ true = none ∧ commandFailure c 100 ⟨9, 0, 0, 0⟩ true = none ∧ (c.bank 0).debt ≤ -8) ∧
    passesAt id 0x0A 0 0 = true ∧ passesAt id 0x0B 32 0 = true ∧ passesAt (fun c => { c with selfRefresh := true }) 0x0C 32 0 = true ∧
    (passesAt id 0x11 32 0 = true ∧ ((channel id).chan 0).loadedAtM = true) ∧
    passesAt open7 4 0 7 = true ∧ passesAt open7 5 0 7 = true ∧ passesAt open7 6 0 7 = true ∧ passesAt open7 7 0 7 = true ∧
    passesAt open7 4 0 8 = false ∧
    ((1 : BitVec 2) ≠ 0 ∧ laneFull (channel id) 1 0 = false ∧ laneFull (channel id) 2 0 = false) ∧
    ((channel id).flaws = [] ∧ (channel id).reloading = []) ∧
    (heldIn ((channel id).tile 0) 0 32 = none ∧ (storeBytes ((channel id).tile 0) 0 32).length = 32) ∧
    (let s := (channel id).setPart 0 { Partition.reset with lines := [(0, ⟨List.replicate 1024 5, [], 0, true, 0⟩)] }
     ∃ m, lineHit (s.part (s.chan 0).pid) (tabGet Lane.reset (s.chan 0).lanes 192).line = some m ∧
      ((m.data.drop 992).take 32).length = 32 ∧ ¬ 992 + 32 < 1024 ∧ 960 + 32 < 1024) ∧
    ((channel id).chan 0).launch.isSome = true ∧ (State.reset.chan 0).launch = none ∧
    (List.replicate 992 (0 : Byte)).length < 1024 ∧ 1024 ≤ (List.replicate 1024 (0 : Byte)).length ∧
    (List.replicate 575 (0 : Byte)).length < 576 ∧ 576 ≤ (List.replicate 576 (0 : Byte)).length ∧
    (List.replicate 1151 (0 : Byte)).length < 1152 ∧
    (let c := fun f => (channel f).chan 0
     (c id).idlePos = none ∧ (c id).frameStart = none ∧ programStalled (channel id) 0 (c id) = false ∧
      (c id).windowAt + 124 * (c id).window ≤ 90 + 10 ∧ (∀ k, k < 32 → bankOpen ((c id).bank k) 100 = false) ∧
      (c (fun c => { c with loop := some 1 })).loop = some 1 ∧ (c (fun c => { c with halted := true })).halted = true ∧
      (c id).halted = false ∧ ((0x13 * 2 ^ 58 + 10 * 2 ^ 46 : BitVec 64).toNat / 2 ^ 46 % 2 ^ 12 = (10 : BitVec 12).toNat) ∧
      (c id).waiting = none ∧ idleOk (c (fun c => { c with idle := some 0 })) = true) := by
  refine ⟨by decide +kernel, by decide +kernel, by decide +kernel, by decide +kernel, by decide +kernel, by decide +kernel,
    by decide +kernel, by decide +kernel, by decide +kernel, by decide +kernel, by decide +kernel, by decide +kernel,
    by decide +kernel, by decide +kernel, by decide +kernel, by decide +kernel, by decide +kernel, by decide +kernel,
    by decide +kernel, ⟨_, rfl, by decide +kernel⟩, by decide +kernel⟩

/-- Words at MCK 100: with a demand window over and not; a lane full, and with fewer than 32 bytes; boundary words with and without
a frame of 4,096 and 4,097 MCK, with an open bank, in a stall, in an idle run; loops; idle frames that do and do not hold. -/
theorem test_witness_SequencerWords :
    let c := fun f => (channel f).chan 0
    let laden := (channel id).setTx 0 { Transmitter.reset with sends := [(0, { GroupSend.reset with queue := List.replicate 64 ⟨0, 0, 0, false, false, 0, 0, []⟩ })] }
    ((0 : BitVec 5).toNat = 0 % 32 ∧ (1 : BitVec 5).toNat ≠ 0 % 32 ∧ (c id).halted = false) ∧
    ((c id).windowAt + 124 * (c id).window ≤ 100 ∧ ¬ (c (fun c => { c with window := 1 })).windowAt + 124 * 1 ≤ 100) ∧
    ((∀ k, k < 32 → bankOpen ((c id).bank k) 100 = false) ∧ bankOpen ((c open7).bank 0) 100 = true) ∧
    ((c (fun c => { c with loadedAtM := false })).loadedAtM = false ∧ laneFull laden 1 0 = true) ∧
    (lineHit ((channel id).part (c id).pid) (tabGet Lane.reset (c id).lanes (192 + 0)).line = none ∧
      (heldIn { (channel id).tile 0 with ctl := { Control.reset with bankOff := 1 } } 0 32).isSome = true) ∧
    programWaits (channel id) 0 = false ∧
    commandFailure (c open7) 100 ⟨1, 0, 0, 7⟩ false ≠ none ∧ (c id).launch = some (0, 1) ∧
    (let w := BitVec.ofNat 64 (0x12 * 2 ^ 58 + 10 * 2 ^ 46)
     w.toNat / 2 ^ 46 % 2 ^ 12 = (10 : BitVec 12).toNat ∧ 0x12 ≤ w.toNat / 2 ^ 58) ∧
    (let framed := fun f => c (fun c => { c with frameStart := some (0, f) })
     (framed 100).frameStart = some (0, 100) ∧ 4196 ≤ 100 + 4096 ∧ ¬ 4197 ≤ 100 + 4096 ∧
     (∀ k, k < 32 → bankOpen ((framed 100).bank k) 4196 = false)) ∧
    ((c id).idlePos = none ∧ (c (fun c => { c with idlePos := some 1 })).idlePos.isSome = true) ∧
    ((channel id).halt.active = false ∧ (c id).held = false ∧ (c id).launch ≠ none ∧ (c (fun c => { c with held := true })).held = true) ∧
    ((c (fun c => { c with loop := some 1 })).loop = some 1 ∧ (c id).frameStart = none ∧ (c id).loop = none ∧ (c id).noDelta = false ∧
      (1 : BitVec 15).toNat - 1 = 0 ∧ (2 : BitVec 15).toNat - 1 ≠ 0) ∧
    (let i := fun (k : Nat) => c (fun c => { c with idle := some k, waiting := some 2 })
     idleOk (i 0) = true ∧ idleOk (i 2) = false ∧ (i 0).waiting = some 2 ∧ (c (fun c => { c with halted := true })).halted = true) ∧
    (State.reset.chan 0).launch = none := by decide +kernel

/-- A debt of 7 and of 8 before the interval ends, under a program and under the keeper; self-refresh; a slot of an open window, of
the keeper's service, of one whose bank was opened too late; a read, both writes, a stream's element. -/
theorem test_witness_RefreshAndDemandSlots :
    let c := fun f => (channel f).chan 0
    let debt := fun (d : Int) (f : Chan → Chan) => c (fun c => f (bank0 ⟨none, none, none, d⟩ c))
    let keeper := fun (c : Chan) => { c with keeper := true }
    let d := fun (k : DemandKind) => c (fun c => { c with window := 2, windowAt := 800, demands := [⟨0, 0, 3, k, none⟩] })
    ((c (fun c => { c with selfRefresh := true })).selfRefresh = true ∧ (c id).selfRefresh = false) ∧
    ((∀ k, k < 32 → ((debt 7 id).bank k).debt < 8) ∧ 8 ≤ ((debt 8 id).bank 0).debt ∧ (debt 8 id).keeper = false ∧
      (debt 8 id).halted = false ∧ (debt 8 keeper).keeper = true) ∧
    (1 ≤ ((debt 1 keeper).bank (16 * 0 + 0)).debt ∧
      commandFailure (debt 1 keeper) (channel id).mck ⟨8, 0, 32, 0⟩ false = none) ∧
    ((c id).demands = [] ∧ (c (fun c => { c with window := 1 })).window ≠ 0 ∧
      servesSlots (c (fun c => { keeper c with demands := [⟨0, 0, 3, .save 0 1 [], none⟩] })) 750 = true ∧
      (channel id).flaws = [] ∧ [(⟨0, 0, 3, .save 0 1 [], none⟩ : Demand)].find? isSave = some ⟨0, 0, 3, .save 0 1 [], none⟩) ∧
    (let k : DemandKind := .read [(0, 0, 32)]
     (slotCommands { d k with window := 0, windowAt := 924 } (1024 * 3) (isDemandWrite k) 800).isSome = true) ∧
    slotCommands { d (.read []) with window := 0, windowAt := 924, banks := (d (.read [])).banks.set 1 ⟨some 9, some 20, none, 0⟩ }
      (1024 * 3) false 800 = none := by decide +kernel

/-- A running engine on tile 0 with full operand buffers 0 and 1, one M latch full in a second state. -/
def engine0 (f : Matrix → Matrix) : State :=
  State.reset.setTile 0 { Tile.reset with matrix := f { Matrix.reset with
    st := 2, ob := (Matrix.reset.ob.set 0 ⟨[], true⟩).set 1 ⟨[], true⟩, em1 := 0, due := [0] } }
/-- The same with the M latch of the tile's PE 63 full. -/
def latched (s : State) : State := s.setPe (tilePe 0 63) { PE.reset with m := ⟨0, true⟩ }

theorem test_witness_MatrixWords :
    let s := engine0 id
    let m := (s.tile 0).matrix
    let busy := ({ (s.tile 0).eng with vxfers := [(9, (⟨0, true, 15, 0, true, 1, 0, 0, false, 0⟩ : Vxfer))] } : Engines)
    (m.st = 2 ∧ m.ending = false) ∧ (m.ob[(0 : BitVec 4).toNat]?.map (·.full)) = some true ∧
    (m.ob[(15 : BitVec 4).toNat]?.map (·.full)) = some false ∧ (s.tile 0).eng.vxfers = [] ∧
    (m.taken = false ∧ { m with taken := true }.taken = true ∧ bankHeld (s.tile 0) (3 % 32) = false ∧
      bankHeld { s.tile 0 with ctl := { Control.reset with bankOff := 8 } } 3 = true ∧ s.flaws = [] ∧ s.reloading = []) ∧
    (∃ e ∈ busy.vxfers, e.2.acc = true ∧ e.2.unit = (15 : BitVec 4).toNat) ∧ m.signals.length < 4 ∧
    4 ≤ (List.replicate 4 (⟨0, 0, []⟩ : Signal)).length ∧ isFull (s.tile 0) 3 = false ∧
    (let x := { s.tile 0 with store := { Store.reset with full := [3] } }
     (isFull x 3 = true ∧ ∀ e ∈ x.store.waiters, e.word ≠ 3) ∨ isFull x 3 = false) ∧
    (∀ i, i < 64 → (s.pe (tilePe 0 i)).m.full = false) ∧ ((latched s).pe (tilePe 0 63)).m.full = true ∧
    ((engine0 (fun m => { m with st := 4 })).tile 0).matrix.st ≠ 2 ∧
    ((engine0 (fun m => { m with ending := true })).tile 0).matrix.ending = true := by
  decide +kernel

theorem test_witness_MatrixRun :
    let m := fun f => ((engine0 f).tile 0).matrix
    let drain : Vector (BitVec 64) 64 := Matrix.reset.table.set 0 (6 * 2 ^ 58)
    let mma : Vector (BitVec 64) 64 := Matrix.reset.table.set 0 (2 ^ 58 + 2 ^ 42)
    let p : Progress := ⟨0, 1, 8 * mxSlots (2 ^ 58 + 2 ^ 42), 0⟩
    ((engine0 id).flaws = [] ∧ (engine0 id).reloading = [] ∧ (m id).waits ≠ some 3 ∧
      tileWaits (engine0 id) 0 (fun _ n => n == .matrix) (m id).mslot.toNat = false) ∧
    (m (fun m => { m with go := some 5 })).go = some 5 ∧ (m id).held = false ∧ (m (fun m => { m with held := true })).held = true ∧
    ((m (fun m => { m with table := drain, progress := [⟨0, 1, 0, 0⟩] })).progress.map (fun p => (drain.get 0).toNat / 2 ^ 58)) = [6] ∧
    ((latched (engine0 id)).pe (tilePe 0 63)).m.full = true ∧ (m id).st = 2 ∧ (m (fun m => { m with st := 3 })).st = 3 ∧
    (let n := m (fun m => { m with table := mma, progress := [p] })
     n.progress.find? (fun p => p.entry == 0 && decide (8 * mxSlots (n.entry 0) ≤ p.done)) = some p ∧ (n.entry 0).toNat / 2 ^ 58 = 1 ∧
      n.ending = false) ∧
    (let n := m (fun m => { m with signals := [⟨3, 5, [2]⟩], progress := [p] })
     n.signals = [⟨3, 5, [2]⟩] ∧ (∀ q ∈ n.progress, q.fired ∉ [2]) ∧ bankHeld ((engine0 id).tile 0) ((n.sigbase.toNat / 8 + 3) % 32) = false ∧
      bankHeld { (engine0 id).tile 0 with ctl := { Control.reset with bankOff := 8 } } 3 = true) ∧
    (let n := m (fun m => { m with ending := true })
     n.ending = true ∧ n.progress = [] ∧ n.signals = []) := by
  decide +kernel

/-- Thread 2 of tile 0 in a state, with its tile changed. -/
def thread2 (st : ThreadState) (f : Tile → Tile) : State :=
  (State.reset.setTile 0 (f { Tile.reset with place := some square })).setThread 0 2 { Thread.reset with st := st }

/-- Each kind of wait on both sides of its condition; an event counter at its target, one below it, and past a wrap. -/
theorem test_witness_ThreadEvents :
    let h := fun st f => (thread2 st f).thread 0 2
    let late : Tile → Tile := fun x => { x with eng := { Engines.reset with pending := [4, 3], promises := [(4, 2, 0), (3, 2, 0)] } }
    let waits : Tile → Tile := fun x => { x with store := { Store.reset with waiters := [⟨9, .ldf 2 5⟩] } }
    let past := fun (c v : BitVec 32) => decide ((c.toNat + 2 ^ 32 - v.toNat) % 2 ^ 32 < 2 ^ 31)
    (Thread.reset.rptAt ≠ some Thread.reset.pc) ∧ (2 < 8 ∧ 7 < 8) ∧
    (∀ r ∈ [ThreadState.waiting .retry, .waiting .yield, .waiting .reply, .waiting .unit, .parked .park, .parked (.word 9),
      .parked (.queue 1 5), .parked (.waite 3), .parked (.event 1 7), .parked (.barrier 15), .running, .halted, .parked (.waitt 0),
      .parked (.waitt 1)], (h r id).st = r) ∧
    (∃ e ∈ ((thread2 (.parked (.word 9)) waits).tile 0).store.waiters, e.kind = .ldf 2 5) ∧
    ((thread2 (.parked (.word 9)) id).tile 0).store.waiters = [] ∧
    (recvQueue ((thread2 .running id).tile 0) true = [] ∧
      recvQueue ((thread2 .running (fun x => { x with core := { Core.reset with recv := #v[[], [6]] } })).tile 0) true = [6] ∧
      ((thread2 .running id).tile 0).core.heldMsgs = []) ∧
    (3 ∈ ((thread2 .running late).tile 0).eng.pending ∧ (3 : BitVec 32) ∉ ((thread2 .running id).tile 0).eng.pending) ∧
    (past 7 7 = true ∧ past 6 7 = false ∧ past 0 0xFFFFFFFF = true ∧ ((thread2 .running id).tile 0).place = some square) ∧
    (tabFind { Thread.reset with arrivals := [(15, .complete)] }.arrivals 15 = some .complete ∧ tabFind (h .running id).arrivals 15 ≠ some .complete) ∧
    (((thread2 .running id).ccnt 0).toNat < (1 : Word).toNat ∧ (0 : Word).toNat ≤ ((thread2 .running id).ccnt 0).toNat) ∧
    (((thread2 .running late).tile 0).eng.pending.map (·.toNat) = [4, 3] ∧
      ((thread2 .running late).tile 0).eng.promises = [(4, 2, 0), (3, 2, 0)] ∧
      (h .running late).inh = false) ∧ State.reset.me.inh = false := by decide +kernel

/-- Region 3 over tile 0's PEs in launch 1 of partition 0, whose one output arc leaves it for tile 1, or stays within tile 0. -/
def armed (dest : Nat) (f : Region → Region) : State :=
  let a : ArcImage := ⟨0, 1, some (7, .e), some (dest, .w), 2, 4, 4, none, false⟩
  ((State.reset.setPart 0 { Partition.reset with
    present := true, w := 2, h := 2, bindings := [(0, { Binding.reset with image := some { bare with arcs := [a] }, bound := true })]
    launches := [(1, { Launch.reset with phase := .live })] }).setTile 0 { Tile.reset with place := some square }).setRegion 3
      (f { plainRegion with lnum := 1 })

theorem test_witness_RegionEvents :
    let r := fun f => (armed 8 f).region 3
    let ended : Region → Region := fun r => { r with st := 3 }
    let u := (armed 7 ended).setPe 0 { PE.reset with region := some 3 }
    let bad : PhaseImage := ⟨[⟨0, 0, (31, 2), (0, 1), (0, 1), [], [], [], [], []⟩], []⟩
    let rw := r (fun r => { r with rewrite := some (0, true, 5, 0, 2) })
    ((armed 8 id).flaws = [] ∧ (armed 8 id).reloading = [] ∧ (r id).runs = 0 ∧ (r id).drained = false ∧
      owesDrains (r id) = false ∧ owesDrains (r fun r => { r with st := 3, runs := 1 }) = true ∧
      { r id with runs := 1, drained := true }.drained = true) ∧
    ((r id).go = none ∧ (r (fun r => { r with go := some 0 })).go = some 0 ∧ (r id).held = false ∧
      (r (fun r => { r with held := true })).held = true) ∧
    ((r (fun r => { r with st := 1 })).st = 1 ∧ (r (fun r => { r with st := 2 })).st = 2 ∧ (r id).st ≠ 1 ∧ (r id).st ≠ 2) ∧
    regionBlocked (armed 8 id) (r id) = false ∧
    (let b := { r id with sv := 1, smax := 0 }
     let chain := { MemInterface.reset with chains := [(0, { Chain.reset with queue := List.replicate 16 ⟨1, 0, 0, true, 0, 0, 0, 0, 1, 3⟩ })] }
     let op : PE := { PE.reset with opRing := ⟨0, 1⟩, routeRing := ⟨0, 1⟩, raRing := ⟨0, 1⟩, region := some 3, ops := PE.reset.ops.set 0 0xE80000 }
     regionBlocked (((armed 8 id).modTile 0 (fun x => { x with mem := chain })).setPe 0 op) b = true) ∧
    ((r id).faults = 0 ∧ (r (fun r => { r with faults := 1 })).faults ≠ 0 ∧ (r id).trip = 0 ∧
      (2 * (r id).sv.toNat + 1) % 2 ^ ((r id).smax.toNat + 1) ≠ 0 ∧ (2 * 128) % 2 ^ (0 + 1) = 0 ∧
      (r (fun r => { r with stop := true })).stop = true) ∧
    ((r ended).st = 3 ∧ (r ended).drained = false ∧ regionSettled (armed 8 ended) 3 = true ∧
      (regionOutputs (armed 8 ended) (r ended)).map (fun a => (a.2.fromPort, a.2.toPort)) = [(some (7, .e), some (8, .w))] ∧
      peTile (fabricAt (r ended) 7) ≠ peTile (fabricAt (r ended) 8)) ∧
    ((regionOutputs u (u.region 3)).map (fun a => (a.2.fromPort, a.2.toPort)) = [(some (7, .e), some (7, .w))] ∧ regionSettled u 3 = true) ∧
    regionSettled ((armed 8 ended).setPe 0 { PE.reset with inflight := [⟨0, 0, true, 0, 0⟩] }) 3 = false ∧
    (rw.rewrite = some (0, true, 5, 0, 2) ∧ rw.phases[0]? = some ⟨[], []⟩ ∧ rw.st = 0 ∧ rw.runs = 0 ∧ rw.go = none ∧
      checkPhase ((armed 8 id).setRegion 3 { rw with rewrite := none }) 3 ⟨[], []⟩ = none ∧
      (checkPhase ((armed 8 id).setRegion 3 { rw with rewrite := none }) 3 bad).isSome = true) ∧
    ((r ended).st = 3 ∧ regionInputs (armed 4000 ended) (r ended) = []) ∧ (r (fun r => { r with st := 1 })).st ≠ 0 ∧
    ((thread2 (.waiting .unit) id).thread 0 2).st = .waiting .unit ∧ ((thread2 .running id).thread 0 2).st ≠ .waiting .unit := by
  intro r ended u bad rw
  refine ⟨?_, ?_, ?_, ?_, ?_, ?_, ?_, ?_, ?_, ?_, ?_, ?_⟩ <;> decide +kernel

/-- A full and an empty latch of each port; ops at the last aligned place, one place on, misaligned, ahead of their turn and of a new
run; FEM against the word's bit; a bank without power; a flit of the tile. -/
theorem test_witness_StoreOpsAndLatches :
    let op := fun (run seq : Nat) (off : Word32) (load : Bool) (fem : BitVec 2) => (⟨run, seq, 0, load, off, 7, fem, 0, 1, 3⟩ : StoreOp)
    let c := fun (q : List StoreOp) => ({ Chain.reset with queue := q, run := 1, next := 4 } : Chain)
    let x := { Tile.reset with store := { Store.reset with full := [2] } }
    let full : Latch := ⟨5, true⟩
    let p := { PE.reset with n := full, e := full, s := full, w := full, m := full, replies := [1] }
    (PE.reset.n.full = false ∧ PE.reset.e.full = false ∧ PE.reset.s.full = false ∧ PE.reset.w.full = false ∧ PE.reset.m.full = false ∧
      PE.reset.replies = []) ∧
    (p.n.full = true ∧ p.e.full = true ∧ p.s.full = true ∧ p.w.full = true ∧ p.m.full = true ∧ p.replies ≠ []) ∧
    (State.reset.flaws = [] ∧ State.reset.reloading = [] ∧ x.matrix.waits ≠ some 2 ∧
      tileWaits State.reset 0 (fun _ n => n == .fabric 0) 0 = false) ∧
    Chain.reset.queue = [] ∧ { c [] with faulted := true }.faulted = true ∧
    (let q := [op 1 5 16 true 0, op 1 4 16 true 0]
     op 1 4 16 true 0 ∈ (c q).queue ∧ (c q).faulted = false ∧
       ∀ p ∈ q, p = op 1 4 16 true 0 ∨ (op 1 4 16 true 0).run < p.run ∨ ((op 1 4 16 true 0).run = p.run ∧ (op 1 4 16 true 0).seq < p.seq)) ∧
    (((op 1 4 16 true 0).run = (c []).run ∧ (op 1 4 16 true 0).seq ≤ (c []).next) ∧ ((op 2 0 16 true 0).run ≠ (c []).run ∧ (op 2 0 16 true 0).seq = 0) ∧
      ¬ (op 1 5 16 true 0).seq ≤ (c []).next) ∧
    (0x17FFFFC % 4 = 0 ∧ 0x17FFFFC + 4 ≤ 0x1800000 ∧ 0x1800000 < 0x1800000 + 4 ∧ 0x17FFFFE % 4 ≠ 0) ∧
    (isFull x (16 / 8) = true ∧ isFull x (24 / 8) = false ∧ bankHeld x 2 = false ∧ x.store.waiters = [] ∧
      bankHeld { x with ctl := { Control.reset with bankOff := 4 } } 2 = true) ∧
    (let y := { MemInterface.reset with predFlits := [⟨5, 1, 0, 2, List.replicate 32 0, 32, 3⟩] }
     y.predFlits.find? (fun f => f.rid == 5 && f.q == 1) = some ⟨5, 1, 0, 2, List.replicate 32 0, 32, 3⟩ ∧ (List.replicate 32 (0 : Word32)).length = 32) := by
  decide +kernel

/-- Tokens new, repeated and outside the store, by a thread and by a region; nodes with one of two children's contribution in, with
both, at the root and below it, and an exponent maximum on its way down. -/
theorem test_witness_Reductions :
    let k := fun (off seq kind : Nat) => (⟨off, 0, 0, 5, 0, 3, seq, kind, 1⟩ : RedToken)
    let x := { Tile.reset with mem := { MemInterface.reset with units := MemInterface.reset.units.set 7 ⟨[k 8 2 0], [(0, 3, 1)]⟩ } }
    let filter : List (Nat × Nat × Nat) := [(0, 3, 1)]
    let n := { TreeNode.reset with children := [1, 2], last := [(32 * (4096 * 1 + 0) + 4, 6)] }
    let one := { n with waiting := [(1, [(false, 5)])] }
    let two := { n with waiting := [(1, [(false, 5)]), (2, [(false, 7)])] }
    x.mem.units[6].window = [] ∧ x.mem.units[7].window = [k 8 2 0] ∧
    (0x17FFFF8 + 8 ≤ 0x1800000 ∧ ¬ 0x17FFFFC + 8 ≤ 0x1800000 ∧ bankHeld x 1 = false ∧
      bankHeld { x with ctl := { Control.reset with bankOff := 2 } } 1 = true) ∧
    (filter.find? (fun e => e.1 == 0 && e.2.1 == 3) = some (0, 3, 1) ∧ 1 < (k 8 2 0).seq ∧ ¬ 1 < (k 8 1 0).seq ∧ (k 8 2 0).op.toNat ≤ 12) ∧
    (State.reset.flaws = [] ∧ (k 8 2 0).off % 8 = 0 ∧ (k 12 2 0).off % 8 ≠ 0 ∧
      (let g : MeshFlit := ⟨0, 1, 3, 2, 254, .tree 0 9 7⟩
       g.owner = 254 ∧ { g with owner := 255 }.owner ≠ 254 ∧ 256 ≤ { g with owner := 259 }.owner ∧ g.src ≠ 0 ∧ { g with src := 0 }.src = 0 ∧
        g.src ∈ n.children ∧ { g with src := 5 }.src ∉ n.children)) ∧
    ((k 8 2 0).ctxKind = 0 ∧ (k 8 2 1).ctxKind ≠ 0) ∧
    (MeshBody.tree 0 9 5 = (if false then .exponent 9 5 else .tree 0 9 5) ∧ MeshBody.exponent 9 5 = (if true then .exponent 9 5 else .tree 0 9 5)) ∧
    (6 ≤ tabGet 0 n.last (32 * (4096 * 1 + 0) + 4) ∧ tabGet 0 n.last (32 * (4096 * 1 + 0) + 4) < 7) ∧
    (∃ c ∈ n.children, tabGet [] one.waiting c = []) ∧
    n.children.map (fun c => (tabGet [] two.waiting c).head?) = (((false, 5) :: [(false, (7 : BitVec 1024))]).map some) ∧
    (n.parent = none ∧ { n with parent := some 4 }.parent = some 4 ∧ { n with parent := some 4103 }.parent = some 4103 ∧ n.maxima = none ∧
      n.down = false ∧ { n with down := true }.down = true) := by decide +kernel

/-- Context 15 of tile 0 runs a stream of three elements of 8 bytes from offset 0x100 of the tile's store. -/
def streamTo (dst : Word) : Descriptor := ⟨0x100, dst, #v[3, 1, 1, 1], #v[8, 0, 0, 0], #v[8, 0, 0, 0], 3, true⟩
def context (f : Stream → Stream) : Tile :=
  { Tile.reset with place := some square }.setStream 15 (f { Stream.reset with st := 2, cnum := 1, desc := some (streamTo 0x200) })

/-- The first, the last and no element; each kind of source and destination, with room and without. -/
theorem test_witness_StreamElements :
    let c := fun f => (context f).stream 15
    let d := streamTo 0x200
    let bs : List Byte := List.replicate 8 0
    let line : Line := ⟨List.replicate 1024 0, List.replicate 16 0, 0, true, 0⟩
    let p := { Partition.reset with w := 1, h := 1, lines := [(64, line)] }
    let s := State.reset.setTile 0 (context id)
    let left := s.modTile 0 (fun x => x.setStream 14 { Stream.reset with short := true })
    let used := s.modTile 0 (fun x => { x with eng := { x.eng with moved := x.eng.moved.set 1 (0, 124) } })
    ((c id).desc = some d ∧ (c id).st = 2 ∧ (context id).stopped = false ∧ { context id with stopped := true }.stopped = true ∧
      elementIsCut (State.reset.setTile 0 (context id)) 0 (.stream 0 15) = false ∧ s.flaws = [] ∧
      tileWaits s 0 (fun k _ => (c id).node == some k) 15 = false) ∧
    ((c id).short = false ∧ othersWait s 0 15 = false ∧ othersWait left 0 15 = true ∧ ¬ 128 < movedNow s 0 1 + 8 ∧
      movedNow s 0 1 + 8 ≤ 128 ∧ 128 < movedNow used 0 1 + 8 ∧ (c (fun c => { c with short := true })).short = true) ∧
    ((s.tile (homeSlice p (flatTag 0x10000))).ctl.wayOff ≠ 0xFFFF ∧ (context id).matrix.waits ≠ some (0x200 / 8)) ∧
    ((c (fun c => { c with can := true })).can = true ∧ (c id).asked = false ∧ d.total = 3 ∧ (c id).next < 3 ∧ (c id).next + 1 ≠ 3 ∧
      (c (fun c => { c with next := 2 })).next + 1 = 3 ∧ 3 ≤ (c (fun c => { c with next := 3 })).next) ∧
    (endKind d.src < 2 ∧ srcAddr d 0 = 0x100 ∧ srcAddr d 2 = 0x110 ∧ heldIn (context id) 0x110 8 = none ∧
      bs = storeBytes (context id) 0x110 8) ∧
    (endKind (3 * 2 ^ 60 + 0x10000 : Word) = 3 ∧ lineHit p (flatTag 0x10000) = some line ∧ bs = (line.data.drop (0x10000 % 1024)).take 8) ∧
    (endKind (5 * 2 ^ 60 : Word) = 5 ∧ (c (fun c => { c with fetched := some bs })).fetched = some bs) ∧
    (endKind d.dst = 0 ∧ dstAddr d 2 = 0x210 ∧ heldIn (context id) 0x210 8 = none ∧ (context id).store.waiters = [] ∧
      heldIn { context id with ctl := { Control.reset with bankOff := 4 } } 0x210 8 = some 2) ∧
    endKind (2 ^ 60 : Word) = 1 ∧
    (endKind (2 * 2 ^ 60 + 15 * 2 ^ 15 : Word) = 2 ∧ endBuf (2 * 2 ^ 60 + 15 * 2 ^ 15 : Word) = 15 ∧
      (Matrix.reset.ob[15]?.map (·.full)) = some false ∧ ((⟨[], true⟩ : OperandBuffer).full = true)) ∧
    (endKind (6 * 2 ^ 60 + 63 : Word) = 6 ∧ PE.reset.m.full = false ∧ { PE.reset with m := ⟨0, true⟩ }.m.full = true ∧ (c id).node = none) ∧
    ((c id).out = 0 ∧ (c (fun c => { c with node := some 0 })).node = some 0 ∧ (context id).place = some square) := by decide +kernel

/-- A copy within the store and to another tile, at its promise and one cycle before; transfers to and from an operand buffer and an
accumulator tile, free and in use; a tensor line's load and store. -/
theorem test_witness_EngineCompletions :
    let copy := fun (dst : Word) (out : Nat) (promise : Word) => (⟨1, 0, 0x100, dst, 200, promise, true, 0, 0, 0, out, 0⟩ : Copy)
    let v := fun (acc toS : Bool) => (⟨0, acc, 15, 0, toS, 512, 3, 1, true, 0⟩ : Vxfer)
    let e := { Engines.reset with copies := [copy 0x200 0 9], vxfers := [(0, v false false), (1, v true true)],
                                  lines := [⟨1, 0, false, 0, 0x17FFBC0, List.replicate 1040 0⟩, ⟨2, 0, true, 0, 0, []⟩] }
    let x := { Tile.reset with eng := e }
    let s := State.reset.setTile 0 x
    let used := s.modTile 0 (fun x => { x with eng := { x.eng with moved := x.eng.moved.set 1 (0, 124) } })
    (Engines.reset.copies = [] ∧ x.eng.copies = copy 0x200 0 9 :: [] ∧ endKind (copy 0x200 0 9).dst = 0) ∧
    (endKind (copy (2 ^ 60 + 64) 1 9).dst = 1 ∧ (copy (2 ^ 60 + 64) 1 9).out ≠ 0 ∧ (copy (2 ^ 60) 0 1).out = 0 ∧
      endKind (copy (8 * 2 ^ 60) 0 1).dst = 8 ∧ (copy 0x200 0 9).dstTile = 0) ∧
    ((copy 0x200 0 9).moved ≠ (copy 0x200 0 9).len ∧ { copy 0x200 0 9 with moved := 200 }.moved = 200 ∧ s.flaws = [] ∧
      copyHeld s (copy 0x200 0 9) 128 = none ∧
      copyHeld (s.modTile 0 (fun x => { x with ctl := { x.ctl with bankOff := 1 } })) (copy 0x200 0 9) 128 = some (0, 0)) ∧
    (min (128 - movedNow s 0 1) (512 - 0) / 64 * 64 = 128 ∧ min (128 - movedNow used 0 1) (512 - 0) / 64 * 64 = 0 ∧
      (0 + 128 < 512 ∧ ¬ 384 + 128 < 512)) ∧
    (tabFind e.vxfers 0 = some (v false false) ∧ tabFind e.vxfers 1 = some (v true true) ∧ (v true true).unit < 16 ∧ (v true true).done = 0 ∧
      x.stopped = false ∧ { x with stopped := true }.stopped = true) ∧
    ((Matrix.reset.ob[15]?.map (·.full)) ≠ some true ∧ Matrix.reset.progress = [] ∧
      ((Matrix.reset.ob.set 15 ⟨[], true⟩)[15]?.map (·.full)) = some true ∧
      (nth (Matrix.reset.table.set 0 (15 * 2 ^ 38)).toList 0 0).toNat / 2 ^ 38 % 16 = 15) ∧
    (heldIn x 0 512 = none ∧ heldIn { x with ctl := { Control.reset with bankOff := 1 } } 0 512 = some 0) ∧
    ((e.lines.find? (fun o => o.cnum.toNat == 1)).map (·.store) = some false ∧ (e.lines.find? (fun o => o.cnum.toNat == 2)).map (·.store) = some true ∧
      heldIn x 0x17FFBC0 1040 = none ∧ heldIn { x with ctl := { Control.reset with bankOff := 1 } } 0x17FFBC0 1040 = some 0) := by
  decide +kernel

/-- A line present and absent, with and without an access that waits for it, at a slice with and without a powered way; a number
new and repeated at the filter; a fill in its last step; a walk through a table that points to itself. -/
theorem test_witness_HomeSlices :
    let tag := flatTag 0x10000
    let line : Line := ⟨List.replicate 1024 0, List.replicate 16 0, 0, true, 0⟩
    let t : Nat := 69 * 2 ^ 31
    let p := { Partition.reset with
      w := 1, h := 1, lines := [(tag.toNat, line)], redFilter := [(32 * (4096 * tag.toNat), 5)], channels := [69], ptroot := BitVec.ofNat 64 (t + 1)
      fills := [(7, ⟨0, List.replicate 1040 0, true, 0, []⟩), (8, ⟨1, [], true, 0, []⟩), (9, ⟨0, [], false, 0, []⟩), (10, ⟨0, [], true, 2, []⟩)]
      backs := [(6, ⟨[], []⟩)] }
    let mem := [(0, t + 1), (8, t + 0x10000 + 0x1F), (16, t + 0x10000 + 0x13)].foldl (fun m e => memStore m e.1 8 e.2) []
    let w : Walk := ⟨0x10000, 0, 2, t, none, [.thread 0 2 0x10000 true true], true, false⟩
    let g := { p with walks := [(4, w)] }
    let s := (State.reset.setPart 0 g).setChan 69 { Chan.reset with mem := mem }
    ({ Control.reset with wayOff := 0xFFFF }.wayOff = 0xFFFF ∧ Control.reset.wayOff ≠ 0xFFFF) ∧
    (lineHit p tag = some line ∧ lineHit p 9 = none ∧ p.waitingFills = [] ∧
      (∃ r ∈ [(⟨0, tag, 0, 0, .fill⟩ : GlobalReq)], r.tag = tag)) ∧
    ((State.reset.tile 0).place = none ∧ ((12 : BitVec 4).toNat ≤ 12 ∧ (0 : BitVec 4).toNat ≤ 12)) ∧
    (bytesNat line.data / 2 ^ (8 * 1016) % 2 ^ 64 = (0 : Word).toNat % 2 ^ 64 ∧ bytesNat line.data % 2 ^ 32 ≠ (1 : Word).toNat % 2 ^ 32) ∧
    (5 ≤ tabGet 0 p.redFilter (32 * (4096 * tag.toNat + 0) + 0) ∧ tabGet 0 p.redFilter (32 * (4096 * tag.toNat + 0) + 0) < 6) ∧
    (line.dirty = true ∧ { line with dirty := false }.dirty = false ∧
      (p.lines.filter (fun e => e.2.home == homeSlice p tag && e.1 != tag.toNat)).length < sliceRoom Tile.reset) ∧
    (tabFind p.fills 7 = some ⟨0, List.replicate 1040 0, true, 0, []⟩ ∧ genOf p (tagTid 7) = 0 ∧ lineHit p 7 = none ∧
      tabFind p.fills 8 = some ⟨1, [], true, 0, []⟩ ∧ genOf p (tagTid 8) ≠ 1 ∧ tabFind p.fills 9 = some ⟨0, [], false, 0, []⟩ ∧
      tabFind p.fills 10 = some ⟨0, [], true, 2, []⟩ ∧ tabFind p.fills 11 = none) ∧
    (s.flaws = [] ∧ tabFind p.backs tag.toNat = none ∧ tabFind p.backs 6 = some ⟨[], []⟩ ∧ walkServes p (.back tag) = false ∧
      walkServes { p with walks := [(4, { w with waiting := [.back tag] })] } (.back tag) = true ∧
      missingPages { p with tlb := [(lineField p tag, [⟨0, 0, 2 ^ 30, true, true, true⟩])] } (lineField p tag) []
        (linePieces p tag) = []) ∧
    (w.started = true ∧ { w with started := false }.started = false ∧ w.result = none ∧ owned p w.table = true ∧
      owned { p with channels := [] } w.table = false ∧ inHost (entryAt w.va w.level w.table) = false ∧
      inHost (entryAt 0x10000 2 (2 ^ 51)) = true ∧ { w with result := some (.fail 1) }.result = some (.fail 1) ∧
      judgePage p true true (.fail 1) = .fail 1 ∧ judgePage p true true .access = .access ∧
      judgePage p true true (.page ⟨0x10000, t, 0x10000, true, true, true⟩) = .page ⟨0x10000, t, 0x10000, true, true, true⟩) ∧
    (4 / 2 ^ 47 = 0 ∧ tabFind g.walks 4 = some w ∧ w.discard = false ∧
      { w with discard := true }.discard = true ∧ walk s g 0x10000 true true = .page ⟨0x10000, t + 0x10000, 0x10000, true, true, true⟩ ∧
      walk s g 0x20000 true true = .fail 3 ∧ walk s g 0x30000 true true = .fail 1 ∧
      walk s { g with channels := [] } 0x10000 true true = .access) := by decide +kernel

/-- Transmitter 0 with one timetable entry, for group 1 of 16 wavelengths. -/
def light (entry : Nat) (f : Transmitter → Transmitter) : State :=
  { State.reset with groups := [(1, { Group.reset with wmask := 0xFFFF })] }.setTx 0
    (f { Transmitter.reset with entries := [BitVec.ofNat 64 entry] })
def flit (seq : Nat) (last : Bool) (n : Nat) : ZwiluFlit := ⟨1, 2, seq, last, false, 0, 0, List.replicate n 0⟩

/-- An entry of a new flit and of a resend in all quarters; an empty queue and one with a flit; a refused flit that may and may not yet
be resent, and one that a 64th retained flit evicts; flits below, at and above the expected SEQ, and the 128th and 129th staged; a
whole block of 128 blocks of format 0x13 and an incomplete one. -/
theorem test_witness_ZwiluFlits :
    let t := fun e f => (light e f).tx 0
    let fresh := fun (k : Nat) => k * (1 + 2 ^ 16 + 2 ^ 32 + 2 ^ 48)
    let send := fun (x : GroupSend) (t : Transmitter) => t.setSend 1 x
    let kinds := fun e => ((quarters (timetableEntry (t e id) 0)).filter (fun q => q.1 == 1 || q.1 == 2)).eraseDups
    let l := [flit 4 false 0, flit 6 false 0]
    let whole : List ZwiluFlit := [⟨1, 2, 0, true, false, 0, 0, List.replicate (128 * 25) 0⟩]
    (kinds 0 = [] ∧ kinds (fresh (2 ^ 14 + 1)) = [(1, 1)] ∧ kinds (fresh (2 ^ 15 + 1)) = [(2, 1)] ∧ wavelengths ((light 0 id).group 0 1) = 16 ∧
      (t 0 id).runs = []) ∧
    ((t 0 (fun t => { t with blocked := true })).blocked = true ∧ (t 0 id).blocked = false ∧ (t 0 id).held = false ∧ State.reset.halt.active = false) ∧
    (((t 0 id).send 1).queue = [] ∧ ((t 0 (send { GroupSend.reset with queue := [flit 1 true 0] })).send 1).queue = [flit 1 true 0] ∧
      (t 0 id).retained[63]? = none ∧ (List.replicate 64 (flit 1 true 0))[63]? = some (flit 1 true 0) ∧
      (∃ r ∈ [((1 : Nat), (0 : Nat))], r.1 = (flit 1 true 0).seq)) ∧
    ((light 0 id).flaws = [] ∧ (light 0 id).agenda = [] ∧ (light 0 id).timers = [] ∧
      Work.event (.zwiluFlitReceive 3 (flit 5 false 0) []) ∈ (State.reset.event (.zwiluFlitReceive 3 (flit 5 false 0) [])).agenda) ∧
    ((∀ r ∈ [((1 : Nat), (0 : Nat))], r.1 < 2) ∧ State.reset.reloading = [] ∧ ConfigStore.channels 3 ∈ [ConfigStore.channels 3] ∧
      Matrix.reset.reload = [] ∧ (Thread.reset.st ≠ .waiting .retry ∧ { Thread.reset with st := .waiting .retry }.st = .waiting .retry)) ∧
    ((∀ r ∈ [((1 : Nat), (1 : Nat))], (0 : Nat) < r.2) ∧ (([((1 : Nat), (0 : Nat))].find? (fun r => decide (r.2 ≤ 0))).map (·.1)) = some 1 ∧
      ([flit 1 true 0].find? (fun f => f.group == 1 && f.seq == 1)) = some (flit 1 true 0)) ∧
    (4 ≤ (flit 5 false 0).seq ∧ (∀ h ∈ l, h.seq ≠ 5) ∧ ¬ 4 ≤ (flit 3 false 0).seq ∧ ¬ (∀ h ∈ l, h.seq ≠ 6)) ∧
    ((insertFlit (List.replicate 127 (flit 0 false 0)) (flit 1 false 0)).length ≤ 128 ∧
      128 < (insertFlit (List.replicate 128 (flit 0 false 0)) (flit 1 false 0)).length) ∧
    ((State.reset.tile 0).place = none ∧ (withRegion3 plainRegion).here.place = some square) ∧
    ((∃ r ∈ [((1 : Nat), (0 : Nat))], r.1 = 1) ∧ ∀ r ∈ [((1 : Nat), (0 : Nat))], r.1 ≠ 2) ∧
    ((∃ f ∈ whole, f.last = true ∧ f.seq < 1) ∧ (whole.flatMap (·.payload)).length = 128 * 25 ∧
      ((l.flatMap (·.payload)).length ≠ 128 * 25) ∧ (Matrix.reset.ob[15]?.map (·.full)) = some false ∧ Tile.reset.stopped = false) ∧
    (([⟨2, 0, 15⟩] : List Expansion).find? (fun e => e.vc == 2)).isSome = true := by decide +kernel

set_option maxRecDepth 20000 in
/-- A flit without damage passes its CRC check; one bit turned over on the way fails it. -/
theorem test_witness_ZwiluDamage : (checkedFlit (flit 5 false 25) 16 []).isSome = true ∧
    (checkedFlit (flit 5 false 25) 16 [⟨0, 0, 0, 1⟩]).isNone = true := by decide +kernel

theorem test_witness_DomainHalt :
    let h := fun (d : Option Nat) (a : Bool) => ({ State.reset.halt with declared := d, active := a } : DomainHalt)
    let afar := State.reset.setEyelet 3 { Eyelet.reset with peer := some 1, tx := { Eyelet.reset.tx with lst := 2 } }
    let x := { Transmitter.reset with sends := [(1, { GroupSend.reset with refused := [(4, 0)] })], retained := [flit 4 false 0] }
    ((h none false).active = false ∧ (h none false).declared = none ∧ (h (some 9) false).declared = some 9 ∧ (h (some 9) true).active = true) ∧
    ((8 : Nat) < 9 ∧ (9 : Nat) ≤ 9 ∧ State.reset.gslot < 9 ∧ 9 ≤ { State.reset with gslot := 9 }.gslot ∧ (h none false).who = (0, 0, 0, 0)) ∧
    (resendOrder (State.reset.tx 0) = [] ∧ resendOrder x = [1] ∧ (x.send 1).refused = [(4, 0)] ∧
      (∀ e ∈ x.resends.filter (fun e => decide (State.reset.cycle < e.2)), (State.reset.group 0 e.1).wmask &&& 0xFFFF = (0 : BitVec 16)) ∧
      x.retained.find? (fun f => f.group == 1 && f.seq == 4) = some (flit 4 false 0)) ∧
    ((∀ e ∈ State.reset.timers, e.2 ≠ .event .haltClear) ∧ (∃ e ∈ (State.reset.after 9 .haltClear).timers, e.2 = .event .haltClear) ∧
      (∀ m ∈ domainModules State.reset, m ∈ State.reset.halt.reports) ∧
      (domainModules afar = [1] ∧ (∃ m ∈ domainModules afar, m ∉ afar.halt.reports) ∧
        ∀ m ∈ domainModules afar, m ∈ ({ afar.halt with reports := [1] } : DomainHalt).reports)) ∧
    ((h none false).timedOut = false ∧ { h none true with timedOut := true }.timedOut = true) := by decide +kernel

/-- A flit of each kind on its way from tile 65 to tile 0, at its source, at its destination, in SEQ and not, at a cut tile. -/
theorem test_witness_MeshFlits :
    let f := fun (seq : Nat) (b : MeshBody) => (⟨0, 65, 3, seq, 0, b⟩ : MeshFlit)
    let s := fun (t seq : Nat) (b : MeshBody) => { (live bare).setTriple (32 * (4096 * 65 + 0) + 3) { Triple.reset with expected := 5 } with
      travels := [(2, ⟨f seq b, t, false, 0, 0, .clean⟩)], cycle := 2 }
    let cut : State := (live bare).setLaunch 0 1 { (live bare).launch 0 1 with cutting := some { Cut.begun 1 0 .snapshot [] with elements := [.router 0] } }
    let laden := { MemInterface.reset with units := Vector.replicate 8 ⟨List.replicate 64 ⟨0, 0, 0, 0, 0, 0, 0, 0, 0⟩, []⟩ }
    let v := fun (t : Nat) => (⟨f 5 .picot, t, false, 0, 0, .clean⟩ : Travel)
    ((65 : Nat) ≠ 0 ∧ 65 % 64 ≠ 0 % 64 ∧ 65 / 64 ≠ 0 / 64) ∧ tabFind (live bare).travels 2 = none ∧
    ((¬ ((65 : Nat) ≠ (f 5 .picot).src ∨ (f 5 .picot).src = (f 5 .picot).dst)) ∧ reservedSideband (sideband (f 5 .picot)) = false ∧
      reservedSideband (sideband (f 5 (.tree 9 9 7))) = true ∧ canLeave (s 65 5 .picot) 2 (v 65) = true ∧ mayUse (s 65 5 .picot) 2 (v 65) = true ∧
      canLeave { s 65 5 .picot with cycle := 0 } 2 { v 65 with since := 2 } = false ∧
      hop (pathBlocked (s 65 5 .picot) false 65 0 128) 65 0 ≠ 65) ∧
    (worse .clean .clean = .clean ∧ worse .corrected .clean = .corrected ∧ worse .clean .uncorrectable = .uncorrectable ∧
      (v 0).since + 2 ≤ (s 0 5 .picot).cycle ∧ ¬ (v 0).since + 2 ≤ State.reset.cycle ∧ heldAtUnit (s 0 5 .picot) (f 5 .picot) = false ∧
      heldAtUnit ((s 0 5 .picot).setTile 0 { Tile.reset with mem := laden }) (f 5 (.reduction 8 0 7)) = true) ∧
    (∀ b ∈ [MeshBody.message true 7, .write 8 7 2, .bytes 8 [1] true, .reduction 8 0 7, .tree 0 9 7, .exponent 9 7, .token 3 7,
        .reply 7, .drain 3, .picot, .piece 1 1 0 0 0 7],
      (tabFind (s 65 5 b).travels 2).map (·.flit.body) = some b ∧ (s 65 5 b).triples = [(32 * (4096 * 65 + 0) + 3, { Triple.reset with expected := 5 })]) ∧
    ((v 0).tile = (f 5 .picot).dst ∧ (v 65).tile ≠ (f 5 .picot).dst ∧
      (f 5 .picot).seq = ((s 0 5 .picot).triple (32 * (4096 * 65 + 0) + 3)).expected ∧ (f 6 .picot).seq ≠ 5) ∧
    (unitHasRoom Tile.reset 8 65 3 = true ∧ unitHasRoom { Tile.reset with mem := laden } 8 65 3 = false) ∧
    (elementIsCut (live bare) 0 (.router 0) = false ∧ elementIsCut cut 0 (.router 0) = true ∧ (cut.tile 0).place = some square) := by decide +kernel

/-- Queues with 31 and 32 entries, a held message and a held write of the same triple and of another; 7 and 8 remote entries of the
bank; each KIND at a full and an empty word. -/
theorem test_witness_RemoteDeliveries :
    let x := Tile.reset
    let held := fun (vc : Nat) => ([⟨0, 65, vc, 1, 0, .message true 7⟩] : List MeshFlit)
    let waits := fun (n : Nat) => { x with store := { Store.reset with full := [2], waiters := List.replicate n ⟨34, .remote 0 0 0 0⟩ } }
    (Tile.reset.place = none ∧ (40 ≤ (41 : Nat) ∧ 41 < 48) ∧ (¬ 40 ≤ (255 : Nat) ∨ ¬ (255 : Nat) < 48) ∧ x.matrix.waits ≠ some 2 ∧
      (let c := (⟨1, 0, 0, 0, 8, 0, true, 0, 0, 0, 1, 8⟩ : Copy); (c.out ≤ 1 ∧ c.moved = c.len) ∧ ¬ ({ c with moved := 0 }.moved = c.len))) ∧
    (7 < 8 ∧ 32 ≤ 39 ∧ 39 < 48 ∧ 8 ≤ 23 ∧ 23 < 24 ∧ 48 ≤ 255 ∧ (2 : Nat) - 1 ≠ 0 ∧ (1 : Nat) - 1 = 0) ∧
    ((List.replicate 31 (0 : Word)).length < 32 ∧ ¬ (List.replicate 32 (0 : Word)).length < 32 ∧ recvQueue x true = [] ∧
      (∀ g ∈ held 3, messageFor false g = false) ∧ (∀ g ∈ held 3, messageFor true g = true)) ∧
    ((∃ g ∈ held 3, g.src = 65 ∧ g.vc = 3) ∧ (¬ ∃ g ∈ held 4, g.src = 65 ∧ g.vc = 3) ∧ x.core.heldMsgs = [] ∧ x.store.held = [] ∧
      (∃ w ∈ (State.reset.event (.messageDelivery 0 ⟨0, 65, 3, 1, 0, .message true 7⟩)).agenda,
        w = .event (.messageDelivery 0 ⟨0, 65, 3, 1, 0, .message true 7⟩)) ∧ (1 < 2 ∧ State.reset.agenda.length + State.reset.timers.length = 0)) ∧
    (remoteEntries (waits 7) 2 < 8 ∧ 8 ≤ remoteEntries (waits 8) 2 ∧ isFull (waits 7) 2 = true ∧ isFull (waits 7) 3 = false ∧
      (∀ e ∈ (waits 7).store.waiters, e.word ≠ 2) ∧ bankHeld (waits 7) 2 = false ∧
      bankHeld { x with ctl := { Control.reset with bankOff := 4 } } 2 = true) ∧
    (16 % 8 = 0 ∧ heldIn x 16 8 = none ∧ heldIn { x with ctl := { Control.reset with bankOff := 4 } } 16 8 = some 2) := by decide +kernel

/-- Arrivals sent and not, the first, one that leaves N - 1 and the Nth, one with another N; a told and an untold phase; room in q0 and
none; sweeps of a live, a held and an ended launch, with one and with two that agree. The free choice cannot be decided: both cases of
it are covered by `cases`. -/
theorem test_witness_BarriersAndSweeps :
    let s := live { bare with pw := 2, ph := 2 }
    let h := fun (a : ArrivalState) => { Thread.reset with st := .parked (.barrier 15), arrivals := [(15, a)] }
    let two := (s.setThread 0 2 (h (.sent 8))).setThread 1 3 (h (.counted 0 4))
    let other := two.setLaunch 0 1 (({ two.launch 0 1 with phase := .live }).setBarrier 15 ⟨0, 3, 1, []⟩)
    let w : Sweep := ⟨true, 0, 0⟩
    let swept := s.setLaunch 0 1 { s.launch 0 1 with lastSweep := some w }
    let held := s.setLaunch 0 1 { s.launch 0 1 with phase := .held }
    (15 < 16 ∧ 2 < 8 ∧ tabFind (s.thread 0 2).arrivals 15 = none ∧ tabFind (two.thread 0 2).arrivals 15 = some (.sent 8)) ∧
    (((two.launch 0 1).barrier 15).arrivals = 0 ∧ (0 + 1 < 2 ∧ 1 ≤ 0 + 1 ∧ 2 ≤ 1 + 1)) ∧
    (((other.launch 0 1).barrier 15).arrivals ≠ 0 ∧ ((other.launch 0 1).barrier 15).parties ≠ 2 ∧
      countedArrivals other 0 1 15 0 = [(1, 3, 4)] ∧ (other.thread 0 2).inh = false ∧ (other.thread 0 2).st ≠ .halted) ∧
    (countedArrivals (other.setThread 1 3 Thread.reset) 0 1 15 0 = [] ∧ Thread.reset.st = .halted) ∧
    (((other.launch 0 1).barrier 15).phase ≤ tabGet 0 ((other.launch 0 1).barrier 15).told 1 ∧
      tabGet 0 (⟨1, 0, 0, []⟩ : Barrier).told 1 < (⟨1, 0, 0, []⟩ : Barrier).phase) ∧
    ((launchTiles s 0 1).Nodup ∧ (¬ (1 : Nat) ≤ tabGet 0 [((7 : Nat), (0 : Nat))] 7) ∧ boundColl s 0 3 = none ∧
      (let c := Cut.begun 1 0 .snapshot []; c.slot ≤ s.gslot ∧ ¬ { c with slot := 9 }.slot ≤ s.gslot)) ∧
    (32 ≤ (List.replicate 32 (0 : Word)).length ∧ (recvQueue (s.tile 0) false).length < 32) ∧
    ((held.launch 0 1).phase = .held ∧ (s.launch 0 2).phase ≠ .held ∧ (s.launch 0 2).phase ≠ .live ∧ (s.launch 0 1).phase = .live ∧
      (s.launch 0 1).cutting = none ∧ (s.launch 0 1).lastSweep = none) ∧
    (sweepOf swept 0 1 = w ∧ (swept.launch 0 1).lastSweep = some w ∧ (imageOf swept 0 1).map (sinksMissing swept 0 1) = some 0) ∧
    (let i := { bare with pw := 2, ph := 2, nodes := [.seq 1] }
     sinksMissing ((live i).setThread 0 0 { Thread.reset with st := .parked .park }) 0 1 i ≠ 0) := by decide +kernel

/-- Partition 0 of 2 by 2 tiles, with a bound binding 0 (of a block of 64 bytes, whose image is `bare`) and a queue 0 that is open. -/
def queued (ls : List (Nat × Launch)) (f : Queue → Queue) : State :=
  State.reset.setPart 0 { Partition.reset with
    present := true, w := 2, h := 2, nextLaunch := 9, launches := ls
    bindings := [(0, { Binding.reset with image := some bare, bound := true, psize := 64 }), (1, Binding.reset)]
    queues := Partition.reset.queues.set 0 (f { Queue.reset with en := true, packets := ls.map (·.1) }) }
def packet (l : List (Nat × Byte)) : List Byte := memBytes (l.foldl (fun m e => memPut m e.1 e.2) ([] : Mem)) 0 64
/-- A launch in a phase, held for a cause. -/
def inPhase (ph : LaunchPhase) (cause : Nat) : Launch := { Launch.reset with phase := ph, cause := cause }

/-- A queue with 63 and with 64 launches that wait, closed, and closed to the host; packets of each TYPE at their limits and past
them; a patch at the end of the block and past it; a free, an unbound and a bound handle; versions held. -/
theorem test_witness_QueuePackets :
    let p := fun ls f => (queued ls f).part 0
    let launches := fun n => (List.range n).map (fun k => (k + 1, inPhase .queued 0))
    let patch := fun (off : Byte) => packet [(0, 2), (4, off), (6, 32)]
    let k := p [] id
    let held := fun (v : Nat) => { inPhase .queued 0 with version := v }
    let broken := { bare with pw := 3 }
    let sized : List Byte := List.replicate 8 0 ++ [1, 1, 1, 0]
    (((p [] id).queue 0).en = true ∧ queueCount (p (launches 63) id) 0 < 64 ∧ ¬ queueCount (p (launches 64) id) 0 < 64 ∧
      ((p [] id).queue 1).en = false ∧ PacketSource.host ≠ .controller ∧ ((p [] id).queue 0).host = true ∧
      ((p [] (fun q => { q with host := false })).queue 0).host = false) ∧
    (launchOk k .host (packet [(0, 1), (1, 7), (9, 15)]) = true ∧ launchOk k .host (packet [(0, 1), (1, 8)]) = false ∧
      launchOk k .controller (packet [(0, 1), (1, 8)]) = true ∧ launchOk k .host (packet [(0, 1), (9, 16)]) = false ∧
      launchOk k .host (packet [(0, 1), (2, 2)]) = false) ∧
    (patchOk k (patch 32) = true ∧ patchOk k (patch 40) = false ∧ patchOk k (packet [(0, 2), (2, 1), (6, 8)]) = false) ∧
    (bindOk (packet [(0, 3), (2, 2), (9, 16)]) = true ∧ bindOk (packet [(0, 3), (9, 8)]) = false ∧ bindOk (packet [(0, 3), (3, 4)]) = false) ∧
    (unbindOk k (packet [(0, 4)]) = true ∧ unbindOk (p (launches 1) id) (packet [(0, 4)]) = false) ∧
    ((∃ e ∈ (p (launches 1) id).launches, e.2.bind = 0 ∧ e.2.failed = false ∧ e.2.version = 0) ∧ k.launches = [] ∧
      [0, 1, 2, 3].map (fun v => (held v).version) = [0, 1, 2, 3]) ∧
    (tabFind k.bindings 2 = none ∧ (tabFind k.bindings 0).isSome = true ∧ tabFind k.bindings 1 = some Binding.reset ∧ Binding.reset.bound = false) ∧
    (Binding.reset.x0 + broken.pw > k.w ∧ decodesRead Binding.reset { broken with bytes := [1] } = false ∧
      decodesRead { Binding.reset with read := sized } { bare with bytes := sized } = true ∧
      (bindFailureOf (queued [] id) 0 1 Binding.reset broken).isSome = true) ∧
    (launchNumber k = 9 ∧ tabFind k.launches 9 = none ∧ launchNumber (p [(9, inPhase .queued 0)] id) = 10 ∧
      ((readImage (queued [] id) 0 0x10000 0).2.1).isSome = true ∧ (readImage (queued [] id) 0 0x10000 0).2.1 ≠ none) := by
  decide +kernel

/-- Heads in each phase, held for each cause, and an empty queue. -/
theorem test_witness_QueueRelease :
    let head := fun ph c => queued [(3, inPhase ph c)] id
    (((queued [] id).part 0).queue 0).packets = [] ∧
    (∀ e ∈ [(LaunchPhase.live, 0), (.held, 0x08), (.held, 0x0E), (.held, 0x11), (.held, 0x0D), (.queued, 0), (.configuring, 0)],
      (((head e.1 e.2).part 0).queue 0).packets = 3 :: [] ∧ ((head e.1 e.2).launch 0 3).phase = e.1 ∧ ((head e.1 e.2).launch 0 3).cause = e.2) := by
  decide +kernel

/-- Two launches of one cut group that are restored: the first starts in slot 0, the second stands in a phase with an S0. -/
def grouped (ph : LaunchPhase) (s0 : Nat) : State :=
  let of := fun (ph : LaunchPhase) (s0 : Nat) (g : Nat) =>
    { inPhase ph 0x11 with restoring := true, s0 := s0, cuts := [Cut.begun 1 64 .preemption [(0, g)]] }
  let s := queued [(3, of .starting 0 4), (4, of ph s0 3)] id
  s.setPart 0 { s.part 0 with bindings := [(0, { Binding.reset with image := some bare, bound := true })] }

/-- A head that is ready, one whose bind failed, a dispatch that goes on, a wait counter at its value and below; a queue that ages; a
launch in each phase at its start slot and before. -/
theorem test_witness_DispatchAndStart :
    let s := queued [(3, inPhase .queued 0)] (fun q => { q with prio := 7, agep := 2, ready := some 0 })
    let ran := { bare with code := [⟨0, [], 0, 1, false⟩], nodes := [.seq 1] }
    let drive := { bare with dprogs := [⟨0, 0, [0], []⟩] }
    let b := fun (i : Image) => { Binding.reset with image := some i, bound := true }
    let t := fun ph i => (queued [(3, inPhase ph 0)] id).setPart 0 { (queued [(3, inPhase ph 0)] id).part 0 with bindings := [(0, b i)], channels := [0] }
    ((((queued [(3, { inPhase .queued 0 with failed := true })] id).part 0).queue 0).packets = 3 :: [] ∧
      ((queued [(3, { inPhase .queued 0 with failed := true })] id).launch 0 3).failed = true ∧
      (∀ e ∈ (s.part 0).launches, e.2.failed = false)) ∧
    (headReady s 0 0 = true ∧ headReady s 0 1 = false ∧ (s.part 0).dispatching = none ∧ s.suspend = .running ∧
      ((s.part 0).queue 0).ready.isSome = true ∧ failHeads s 0 = s) ∧
    (eventReached 5 5 = true ∧ eventReached 4 5 = false) ∧
    (((s.part 0).queue 1).ready = none ∧ ((s.part 0).queue 0).agep ≠ 0 ∧ ((s.part 0).queue 0).windows + 1 < ((s.part 0).queue 0).agep.toNat ∧
      (2 : BitVec 4).toNat ≤ 1 + 1) ∧
    ((s.launch 0 3).phase ≠ .configuring ∧ ((t .configuring drive).launch 0 3).phase = .configuring ∧ drivenChannels (t .configuring drive) 0 3 = [0] ∧
      channelReady ((t .configuring drive).chan 0) = false ∧ channelReady ((stopKeepers (t .configuring drive) 0 3).chan 0) = true ∧
      channelReady ((stopKeepers ((t .configuring drive).setChan 0 { Chan.reset with launch := some (0, 1) }) 0 3).chan 0) = false ∧
      ((t .configuring drive).launch 0 3).saveOut = 0 ∧ { Launch.reset with saveOut := 1 }.saveOut ≠ 0 ∧
      drivenChannels (t .configuring bare) 0 3 = []) ∧
    (((t .starting drive).launch 0 3).phase = .starting ∧ ((t .starting drive).launch 0 3).s0 ≤ (t .starting drive).gslot ∧
      ((t .starting drive).launch 0 3).restoring = false ∧ State.reset.gslot < { inPhase .starting 0 with s0 := 1 }.s0 ∧
      imageOf (t .starting drive) 0 3 = some drive ∧ drivenBy ((t .starting drive).part 0) drive = [(0, ⟨0, 0, [0], []⟩)]) ∧
    ((tabGet Binding.reset ((grouped .starting 5).part 0).bindings 0).image.isSome = true ∧
      ((grouped .starting 5).launch 0 3).phase = .starting ∧ ((grouped .starting 5).launch 0 3).restoring = true ∧
      ((grouped .starting 5).launch 0 3).s0 ≤ (grouped .starting 5).gslot ∧
      groupWaits (grouped .starting 5) ((grouped .starting 5).launch 0 3) = true ∧
      groupWaits (grouped .starting 0) ((grouped .starting 0).launch 0 3) = false ∧
      groupWaits (grouped .held 0) ((grouped .held 0).launch 0 3) = true) ∧
    (PE.reset.region = none ∧ (s.region 0).runs = 0 ∧ (∀ e ∈ (s.part 0).launches, ¬ (e.2.phase = .held ∧ e.2.cause = 0x10))) ∧
    ((codeThreads ran 0 ⟨0, [], 0, 1, false⟩).getLsbD 0 = true ∧ (codeThreads ran 0 ⟨0, [], 0, 1, false⟩).getLsbD 1 = false ∧
      ran.code = ⟨0, [], 0, 1, false⟩ :: []) := by
  decide +kernel

theorem test_witness_LaunchEnding :
    let a : ArcImage := ⟨0, 1, some (7, .e), some (8, .w), 2, 4, 4, none, false⟩
    let s := fun ph => (live { bare with pw := 2, arcs := [a] }).setLaunch 0 1 (inPhase ph 0)
    ((s .queued).launch 0 1).phase ≠ .live ∧ ((s .queued).launch 0 1).phase ≠ .ended ∧ ((s .live).launch 0 1).phase = .live ∧
    ((imageOf (s .live) 0 1).bind (fun i => i.arcs[0]?)) = some a ∧ a.memoryOrder = false ∧
    (tabGet ArcState.reset ((s .live).launch 0 1).arcs 0).drained = false ∧
    ((s .ended).launch 0 1).phase = .ended ∧ occupied (s .ended) 0 1 = [0] ∧ ((s .ended).tile 0).drains = [] ∧
    (((s .ended).setTile 0 { (s .ended).tile 0 with drains := [0] }).tile 0).drains ≠ [] ∧
    launchDrained (s .ended) 0 1 = true ∧ launchDrained ((s .ended).setTile 0 { (s .ended).tile 0 with drains := [0] }) 0 1 = false := by decide +kernel

/-- A header of 96 bytes of an image of 1 by 1 tiles with one empty section: MAGIC, version, sizes, its length, where its section
table stands, and the digest of that table. -/
def section1 : List Byte := 1 :: List.replicate 31 0
def headed : List Byte :=
  [0x01, 0x00, 0xE0, 0xA1, 1, 0, 0, 0, 1, 1, 1, 0, 1, 0, 0, 0] ++ natBytes 8 128 ++ natBytes 8 96 ++ List.replicate 16 0 ++
    natBytes 48 (Config.sha384 section1).toNat ++ section1
/-- The image stands in a valid line of partition 0; handle 1 is free to be bound to it. -/
def binding1 : Binding := { Binding.reset with imageAt := 0x10000, pvbase := 0x10400, read := headed }
def offered : State := State.reset.setPart 0 { Partition.reset with
  present := true, w := 1, h := 1, ptroot := 1, tlb := [(0, [⟨0x10000, 2 ^ 51, 0x10000, true, true, true⟩])], bindings := [(1, binding1)]
  lines := [((flatTag 0x10000).toNat, ⟨headed ++ List.replicate 896 0, List.replicate 16 0, 0, true, 0⟩)] }

theorem headed_digest : field headed 48 48 = (Config.sha384 section1).toNat := by
  show bytesNat (natBytes 48 (Config.sha384 section1).toNat) = _
  rw [bytesNat_natBytes]
  exact Nat.mod_eq_of_lt (Config.sha384 section1).isLt

set_option maxRecDepth 8000 in
theorem headed_ok : headerOk headed = true := by
  have h : BitVec.ofNat 384 (field headed 48 48) == Config.sha384 (headed.drop 96) := by
    rw [headed_digest]
    show (BitVec.ofNat 384 (Config.sha384 section1).toNat == Config.sha384 section1) = true
    simp
  unfold headerOk
  simp only [h]
  rfl

set_option maxRecDepth 8000 in
/-- A bind packet whose image can be read; BIND_COMPLETE of an image that passes every check, whatever its digest is. -/
theorem test_witness_QueuePacketsBind :
    tabFind (offered.part 0).bindings 1 = some binding1 ∧ binding1.bound = false ∧ tabFind (offered.part 0).bindings 2 = none ∧
    decodesRead binding1 { bare with bytes := headed } = true ∧
    bindFailureOf offered 0 1 binding1 { bare with bytes := headed } = none ∧
    (readImage offered 0 0x10000 0x10400).2.1 = none := by
  refine ⟨rfl, rfl, rfl, ?_, rfl, ?_⟩
  · show (headed == headed && decide (field headed 8 1 = 1) && decide (field headed 9 1 = 1) && decide (field headed 10 2 = 1)) = true
    rw [beq_self_eq_true]
    rfl
  · have h96 : launchRead offered 0 0x10000 96 = (offered, headed.take 96, none) := rfl
    have hr : launchRead offered 0 0x10000 128 = (offered, headed, none) := rfl
    have hl : field (headed.take 96) 16 8 = 128 := rfl
    have hv : versionsOk offered 0 0x10400 256 = true := rfl
    have hp : 4 * 64 * field headed 10 2 = 256 := rfl
    have hm : field (headed.take 96) 0 4 = 0xA1E00001 ∧ field (headed.take 96) 4 2 = 1 := ⟨rfl, rfl⟩
    unfold readImage
    simp only [h96, hl, hr, hm, headed_ok, hp, hv]
    rfl

/-- Values at both ends of the ranges of TVEC, EVLOG, PTROOT and the selectors, a bound collective of two paths, and none. -/
theorem test_witness_RegisterWrites :
    let p := { Partition.reset with channels := [69] }
    let root := fun (v : Word) => decide (v.toNat / 2 % 2 ^ 13 = 0 ∧ v.toNat < 2 ^ 52 ∧ owned p (v.toNat / 2 ^ 14 % 2 ^ 38 * 2 ^ 14) = true)
    let handler := fun (v : Word) => decide (0xE000 ≤ v.toNat ∧ v.toNat < 0x10000 ∧ v.toNat % 4 = 0)
    let ring := fun (v : Word) => decide (6 ≤ v.toNat / 4 % 32 ∧ v.toNat / 4 % 32 ≤ 20 ∧ v.toNat / 2 ^ 51 % 2 = 1 ∧
      v.toNat / 2 ^ 12 * 2 ^ 12 % 2 ^ (v.toNat / 4 % 32 + 6) = 0 ∧ v.toNat / 2 ^ 7 % 2 ^ 5 = 0 ∧ v.toNat < 2 ^ 52)
    let s := live collImage
    ((fun (q : Queue) => q.ovf && (!(0x100 : Word).getLsbD 8 || q.ovfAt == s.cycle)) { Queue.reset with ovf := true, ovfAt := 7 } = false ∧
      (fun (q : Queue) => q.ovf && (!(0x100 : Word).getLsbD 8 || q.ovfAt == s.cycle)) { Queue.reset with ovf := true, ovfAt := s.cycle } = true) ∧
    (0 < 16 ∧ 15 < 16) ∧ (handler 0xE000 = true ∧ handler 0xFFFC = true ∧ handler 0xDFFC = false ∧ handler 0xFFFE = false) ∧
    (root (BitVec.ofNat 64 (69 * 2 ^ 31 + 1)) = true ∧ root (BitVec.ofNat 64 (70 * 2 ^ 31)) = false) ∧
    (ring (2 ^ 51 + 24 + 1) = true ∧ ring (2 ^ 51 + 80 + 1) = true ∧ ring (2 ^ 51 + 84 + 1) = false ∧ ring (24 + 1) = false ∧
      (2 ^ 51 + 24 : Word).getLsbD 0 = false ∧ (2 ^ 51 + 25 : Word).getLsbD 0 = true) ∧
    ((4095 : Word).toNat < 4096 ∧ ¬ (4096 : Word).toNat < 4096 ∧ (31 : Word).toNat < 32 ∧ ¬ (32 : Word).toNat < 32) ∧
    ((boundColl s 0 0).isSome = true ∧ boundColl s 0 1 = none ∧ (boundColl s 0 0).map (·.paths.length) = some 2 ∧ 1 < 2 ∧ 2 ≤ 2) := by
  decide +kernel

/-- The mean that a window measures is free, so ALLOC is taken from it here: at it, no stop; the other case is met where the mean is
above 0. A tile placed and not, hot and not, in both modes; gates of a footprint's bank, of a free one and of a way. -/
theorem test_witness_PowerAndGates :
    (let p := { Partition.reset with allocNext := Config.windowPower 0 0 }
     Config.windowPower 0 p.windows ≤ p.allocNext) ∧
    (∀ n, Config.windowPower 0 0 = n + 1 → Partition.reset.allocNext < Config.windowPower 0 0) ∧
    (let s := live { bare with pw := 2, data := [(0, 8, List.replicate 8 0)] }
     let c := Control.reset
     let elastic := s.setLaunch 0 1 { s.launch 0 1 with elastic := true }
     let gates := { c with gateBank := 4, bankOff := 4 }
     (exactLaunches (s.part 0) = [1] ∧ exactLaunches (State.reset.part 0) = [] ∧ launchTiles s 0 1 = [0, 1] ∧ evlogEn (1 : Word) = true) ∧
     ((State.reset.tile 0).place = none ∧ (s.tile 0).place = some square ∧ (s.launch 0 1).elastic = false ∧ (s.launch 0 1).phase = .live ∧
       (elastic.launch 0 1).elastic = true ∧ ¬ 420 < (420 : BitVec 16).toInt ∧ 420 < (421 : BitVec 16).toInt ∧
       s.gslot = (s.part 0).windowStart ∧ s.gslot ≠ 9) ∧
     (dirtyTags (s.part 0) 0 = [] ∧ dirtyTags { s.part 0 with lines := [(5, ⟨[], [], 0, true, 0⟩)] } 0 ≠ []) ∧
     (gateAllowed s 0 2 = false ∧ gateAllowed s 0 4 = true ∧ gateAllowed s 0 (2 ^ 32) = false ∧ gateAllowed State.reset 0 (2 ^ 32) = true ∧
       newWays c 4 = 0 ∧ newWays c (2 ^ 32) ≠ 0) ∧
     (gates.gateBank.getLsbD 2 = true ∧ (0 : Word).getLsbD 2 = false ∧ gates.bankOff.getLsbD 2 = true ∧ gates.bwake.getLsbD 2 = false) ∧
     ({ c with bwake := 1 <<< 31 }.bwake.getLsbD 31 = true ∧ c.bwake.getLsbD 31 = false ∧ { c with wwake := 1 <<< 15 }.wwake.getLsbD 15 = true ∧
       c.wwake.getLsbD 15 = false ∧ Tile.reset.store.waiters = [])) := by
  refine ⟨Nat.le_refl _, fun n h => h ▸ Nat.succ_pos n, by decide +kernel⟩

/-- A cut that waits for its slot, at it, with elements noted and not, whole and not; threads at and off their cut point; a launch with
a complete cut in each phase, and without one. -/
theorem test_witness_Cuts :
    let c := { Cut.begun 1 64 .snapshot [] with elements := [.thread 0 1, .router 0] }
    let s := (live bare).setLaunch 0 1 { (live bare).launch 0 1 with cutting := some c }
    let all := { Cut.begun 1 0 .suspend [] with elements := elementsOf (live bare) 0 1, picots := [(.router 0, homeInput)] }
    let word := s.setThread 0 1 { Thread.reset with st := .parked (.word 3) }
    let back := fun ph cause again => (live bare).setLaunch 0 1
      { (live bare).launch 0 1 with phase := ph, cause := cause, restoring := again, cuts := [{ all with undo := [⟨5, ⟨[], [], 0, false, 0⟩, [], false⟩] }] }
    ((s.launch 0 1).cutting = some c ∧ .thread 0 1 ∈ c.elements ∧ .thread 0 2 ∉ c.elements ∧ ((live bare).launch 0 1).cutting = none) ∧
    ((s.thread 0 1).relaxed = [] ∧ (s.thread 0 1).st = .halted ∧ (word.thread 0 1).st = .parked (.word 3)) ∧
    ((∃ e ∈ elementsOf s 0 1, elementTile e = some 0 ∧ e ∉ c.elements) ∧
      (∀ e ∈ elementsOf s 0 1, elementTile e = some 0 → e ∈ elementsOf s 0 1) ∧ occupied s 0 1 = [0]) ∧
    (elementReady (s.setThread 0 0 { Thread.reset with st := .running }) (.thread 0 0) = true ∧
      elementReady (s.setThread 0 1 { Thread.reset with st := .running }) (.thread 0 1) = false ∧
      (s.setThread 0 1 { Thread.reset with st := .waiting .reply }).thread 0 1 = { Thread.reset with st := .waiting .reply }) ∧
    (s.gslot < c.slot ∧ all.slot ≤ s.gslot ∧ (∀ e ∈ elementsOf (live bare) 0 1, e ∈ all.elements) ∧ picotsIn (live bare) 0 1 all = true ∧
      settled (live bare) 0 1 = true ∧ settled { live bare with travels := [(0, ⟨⟨0, 0, 0, 1, 0, .picot⟩, 0, false, 0, 0, .clean⟩)] } 0 1 = false) ∧
    ((s.launch 0 1).heldEvents = [] ∧ (s.launch 0 1).heldPackets = [] ∧ (s.launch 0 1).phase = .live ∧ ((live bare).part 0).snapi = 0 ∧
      ({ (live bare).part 0 with snapi := 15 }).snapi ≠ 0 ∧ c.kind = .snapshot ∧ all.kind ≠ .snapshot) ∧
    (imageOf (back .starting 0 true) 0 1 = some bare ∧ ((back .starting 0 true).launch 0 1).cuts.length = 1 ∧
      ((back .starting 0 true).launch 0 1).restoring = true ∧ ((back .starting 0 true).launch 0 1).phase = .starting ∧
      ((live bare).launch 0 1).cuts = []) ∧
    (all.full = false ∧ { all with full := true }.full = true ∧ all.complete = false ∧ all.group = [] ∧
      groupSettled (live bare) 0 1 all = true ∧ groupSettled { live bare with travels := [(0, ⟨⟨0, 0, 0, 1, 0, .picot⟩, 0, false, 0, 0, .clean⟩)] } 0 1 all = false ∧
      cutGroup (live bare) 0 1 = [] ∧ (s.launch 0 1).saveOut = 0 ∧ (s.launch 0 1).snapAt ≤ s.gslot ∧
      s.gslot < { s.launch 0 1 with snapAt := 9 }.snapAt ∧ (all.txs = [] ∧ all.tiles = [])) ∧
    (elementReady s (.matrix 0) = true ∧ elementReady s (.stream 0 3) = true ∧ elementReady (s.setChan 0 { Chan.reset with ended := true }) (.dprog 0) = true ∧
      elementReady s (.dprog 0) = false) ∧
    (((back .held 0x0E true).launch 0 1).phase = .held ∧ ((back .held 0x0E true).launch 0 1).cause = 0x0E ∧
      ((back .held 0x11 false).launch 0 1).cause = 0x11 ∧ ((back .live 0 false).launch 0 1).phase = .live ∧
      ((back .queued 0 false).launch 0 1).phase ≠ .held ∧ ((back .queued 0 false).launch 0 1).phase ≠ .live) := by
  intro c s all word back
  refine ⟨?_, ?_, ?_, ?_, ?_, ?_, ?_, ?_, ?_, ?_⟩ <;> decide +kernel

/-- Eyelet 0 of partition 0 reaches module 3, whose tag for it is 7; tag 1 of the partition is valid there. -/
def linked (f : Eyelet → Eyelet) : State :=
  { (live collImage).setPart 0 { (live collImage).part 0 with eyelets := [0], edges := [(1, edgeWord 0 0xFFFF 3 7)] } with
    eyelets := [(0, f { Eyelet.reset with peer := some 3, mthr := 9, tx := { LinkDir.reset with lst := 2 }
                                          rx := { LinkDir.reset with lst := 2, act := 0xFFFF } })] }

/-- A flit of each class in and out of SEQ; the 64th since an acknowledgement; tokens whole and in part, and a picot; a valid tag and
an invalid one; a copy in and out of range; a margin at and under MTHR; one dark lane with the spare and without; Z ahead and
reached; a spare that locks, that does not, and that is barred; a sync frame at the limits. -/
theorem test_witness_Eyelets :
    let x := fun f => (linked f).eyelet 0
    let r := fun (g : LinkDir → LinkDir) => (x (fun x => { x with rx := g x.rx })).rx
    let d := fun (g : LinkDir → LinkDir) => (x (fun x => { x with tx := g x.tx })).tx
    let flit := fun (c : BitVec 3) (p : Nat) => (⟨c, 1, 0, BitVec.ofNat 256 p⟩ : EyeletFlit)
    let token := fun (width number last : Nat) => flit 1 (2 ^ 249 * width + 2 ^ 248 * last + 2 ^ 245 * number)
    let copy : Copy := ⟨1, 0, 0x100, 8 * 2 ^ 60 + 2 ^ 37, 8, 9, true, 6, 0, 0, 0, 8⟩
    let sending := (linked id).setTile 0 { (linked id).tile 0 with eng := { Engines.reset with copies := [copy] } }
    let copies := fun (u left : Nat) => r (fun r => { r with copies := [(1, u, 0x200, left, 6)] })
    let at3 := d (fun d => { d with lst := 3, spon := true, pending := some ⟨0, some 2, some 5, 16⟩ })
    ((∀ c ∈ [(0 : BitVec 3), 2, 3, 4, 5, 6], flitFormOk (flit c 0) = true) ∧ flitFormOk (flit 7 0) = false ∧
      flitFormOk (token 0 0 1) = true ∧ flitFormOk (token 7 0 1) = true ∧ flitFormOk (token 6 0 1) = false ∧
      sequenced (flit 2 0).cls = true ∧ sequenced (flit 4 0).cls = false ∧ (flit 2 0).seq = (r id).expected ∧
      (flit 2 0).seq ≠ (r (fun r => { r with expected := 1 })).expected) ∧
    ((∀ c ∈ [(0 : BitVec 3), 1, 2, 5], crcGood (receivedWord (flit c 7) []) = true ∧ crcGood (receivedWord (flit c 7) [3]) = false) ∧
      (x id).peer = some 3 ∧ (x (fun x => { x with peer := none })).peer = none ∧ domainModules (linked id) = [3] ∧
      (linked id).halt.reported = false ∧ { (linked id).halt with reported := true }.reported = true ∧
      (∀ k ∈ domainModules (linked id), k ∈ setInsert (linked id).halt.reports 3) ∧ (∀ w ∈ (linked id).timers, w.2 ≠ .event .haltClear)) ∧
    ((linked id).nodes = [] ∧ (let n := { TreeNode.reset with children := [4096 + 1] }
      (4096 + 1 ∈ n.children ∧ ∀ n' ∈ [((0 : Nat), n)], pidOf (linked id) (n'.1 / 4096) = 0))) ∧
    ((r id).requested = false ∧ (r (fun r => { r with requested := true })).requested = true ∧ (r id).sinceAck ≠ 63 ∧
      (r (fun r => { r with sinceAck := 63 })).sinceAck = 63 ∧ payloadAt (token 0 0 1) 248 1 = 1 ∧ payloadAt (token 3 0 0) 248 1 ≠ 1) ∧
    ((∀ k < 5, payloadAt (flit 4 k) 0 8 = k ∧ flitFormOk (flit 4 k) = true) ∧ flitFormOk (flit 4 5) = false) ∧
    ((d id).heldFlits = [] ∧ (d (fun d => { d with heldFlits := [flit 2 0] })).heldFlits ≠ [] ∧ (0 : Nat) + 25600 ≤ 25600 ∧ (25599 : Nat) < 0 + 25600) ∧
    ((d (fun d => { d with lst := 1 })).lst = 1 ∧ (d id).lst ≠ 0 ∧ (d id).lst ≠ 1 ∧ (d id).queue = [] ∧ (d id).resend = [] ∧ (d id).stopped = false ∧
      (x id).tree = false ∧ (d (fun d => { d with queue := [flit 2 0] })).queue = [flit 2 0] ∧ (d id).heldFlits.length < 8192) ∧
    (eyeletOwner (linked id) 0 = some 0 ∧ edgeValid (edgeEntry ((linked id).part 0) 1) = true ∧
      (edgeEntry ((linked id).part 0) 1).toNat / 2 ^ 32 % 256 = 3 ∧ edgeValid (edgeEntry ((linked id).part 0) 2) = false ∧
      eyeletOwner State.reset 0 = none) ∧
    (copyTarget (linked id) 0 1 (0x1800000 - 32) 1 1 = none ∧ edgeBinding (linked id) 0 1 = none) ∧
    (tabFind (r id).copies 1 = none ∧ tabFind (copies 0 1).copies 1 = some (0, 0x200, 1, 6) ∧ tabFind (copies 4096 2).copies 1 = some (4096, 0x200, 2, 6) ∧
      dataWaits (linked id) 0 1 = none ∧ dataWaits ((linked id).after 5 (.copyData 0 1 3 [])) 0 1 = some 5 ∧ heldIn ((linked id).tile 0) 0x200 32 = none ∧
      heldIn { (linked id).tile 0 with ctl := { Control.reset with bankOff := 1 } } 0x200 32 = some 0) ∧
    (copySource (linked id) 0 0 1 6 = none ∧ copySource sending 0 0 1 6 = some 0 ∧ (sending.tile 0).eng.copies = copy :: []) ∧
    ((x id).mthr.toNat ≤ 9 ∧ 8 < (x id).mthr.toNat ∧ (0 : Nat) ∉ (r id).dark ∧ (0 : Nat) ∉ (r id).training ∧ (r id).marginal = [] ∧
      (0 : Nat) ∈ (r (fun r => { r with dark := [0] })).dark ∧ (15 : Nat) ≠ 16) ∧
    ((r id).spon = false ∧ (16 : Nat) ∉ (r id).dark ∧ (r id).spblk = false ∧ (x id).spen = true ∧ (r id).pending = none ∧
      (r (fun r => { r with spon := true })).spon = true ∧ (r id).dark = [] ∧ litLanes { r id with dark := [0] } ≠ 0) ∧
    ((15 : Nat) ∈ (r (fun r => { r with training := [15] })).training ∧ 1 < (r id).lst.toNat) ∧
    (at3.pending = some ⟨0, some 2, some 5, 16⟩ ∧ State.reset.gslot < 16 ∧ 16 ≤ { State.reset with gslot := 16 }.gslot ∧ (d id).pending = none) ∧
    ((r (fun r => { r with lst := 3, spon := true })).lst = 3 ∧ (r id).lst ≠ 3 ∧ litLanes (r id) ≠ 0 ∧ (x id).barUntil ≤ State.reset.cycle ∧
      State.reset.cycle < (x (fun x => { x with barUntil := 1 })).barUntil ∧ (d (fun d => { d with lst := 3, spon := true })).spon = true) ∧
    (State.reset.number = 0 ∧ { State.reset with number := 2 }.number ≠ 0 ∧ (-128 : Int) ≤ -128 ∧ (128 : Int) ≤ 128 ∧ (128 : Int) < 129 ∧
      (129 : Int) > 128) ∧
    ((2047 : Nat) < 2048 ∧ (2048 : Nat) ≤ 2048 ∧ (0 : Nat) ∉ State.reset.ctl.lasersOut) := by
  intro x r d flit token copy sending copies at3
  refine ⟨?_, ?_, ?_, ?_, ?_, ?_, ?_, ?_, ?_, ?_, ?_, ?_, ?_, ?_, ?_, ?_, ?_, ?_⟩ <;> decide +kernel

/-- A binding whose image names tag 1 of the edge, so that a copy under it has a place. -/
theorem test_witness_EyeletsCopyInRange :
    let s := (linked id).setPart 0 { (linked id).part 0 with
      bindings := [(0, { Binding.reset with image := some { bare with edges := [(1, 3, 7)] }, bound := true })] }
    copyTarget s 0 1 (0x1800000 - 32) 0 1 = some 0 ∧ copyTarget s 0 1 (0x1800000 - 31) 0 1 = none ∧ copyTarget s 0 1 0 1 1 = none := by
  decide +kernel

/-- Partitions with a live launch and without, records good and bad, at the limit of 2,300 units and past it; each state of suspend;
firmware staged and not (whether a signature verifies is free: both cases are covered by `cases`); scrub passes of each store with
an owner; a bus under test; tiles and stacks in use and not; bring-up with a clean report, a hang and a failure of step 1. -/
theorem test_witness_Management :
    let s := live bare
    let rec1 : PartRecord := ⟨1, 2, 0, 1, 1, [5], [], 0, 0⟩
    let held := s.setLaunch 0 1 { s.launch 0 1 with phase := .held, cause := 0x11, cuts := [Cut.begun 1 0 .suspend []] }
    let cut := s.setLaunch 0 1 { s.launch 0 1 with cutting := some (Cut.begun 1 0 .suspend []) }
    let staged := { State.reset with ctl := { Controller.reset with blocks := Vector.replicate 5 { Firmware.reset with staged := true }, activating := [.tiles] } }
    let waits := { s.launch 0 1 with phase := .held, cause := 0x0E, restoring := true }
    let report : BringUpReport := ⟨[], [], [], [], [], [], [], [], [], none, [], [], [], [], [], [], 0, none⟩
    ((∃ e ∈ (s.part 0).launches, livePhase e.2.phase = true) ∧ (∀ e ∈ (s.part 1).launches, livePhase e.2.phase = false) ∧
      (∀ e ∈ (held.part 0).launches, ¬ (livePhase e.2.phase = true ∧ ¬ (e.2.phase = .held ∧ e.2.cause = 0x11))) ∧
      partRecordOk s rec1 = true ∧ partRecordOk s { rec1 with x0 := 1 } = false ∧ partRecordOk s { rec1 with pid := 64 } = false) ∧
    ((s.part 1).present = false ∧ (s.part 0).present = true ∧
      s.parts.foldl (fun n e => if e.1 = 0 ∨ e.2.present = false then n else n + e.2.allocNext) 2300 ≤ 2300 ∧
      2300 < s.parts.foldl (fun n e => if e.1 = 0 ∨ e.2.present = false then n else n + e.2.allocNext) 2301) ∧
    (s.suspend = .running ∧ { s with suspend := .suspended 0 }.suspend ≠ .running ∧ incompleteLaunches State.reset = [] ∧
      incompleteLaunches s = [(0, 1)] ∧ (s.launch 0 1).phase = .live ∧ (s.launch 0 1).restoring = false ∧ (s.launch 0 1).cutting = none) ∧
    ({ s with suspend := .suspending false 7 }.suspend = .suspending false 7 ∧ incompleteLaunches held = [] ∧ (∀ e ∈ s.chans, e.2.keeper = true) ∧
      (∃ e ∈ (s.setChan 0 { Chan.reset with keeper := false }).chans, e.2.keeper = false)) ∧
    (incomplete (held.launch 0 1) = false ∧ incomplete (cut.launch 0 1) = true ∧ (cut.launch 0 1).cutting = some (Cut.begun 1 0 .suspend []) ∧
      s.gslot < 0 + 10000000 ∧ 0 + 10000000 ≤ { s with gslot := 10000000 }.gslot ∧ (s.launch 0 1).cuts = []) ∧
    (held.parts.map (·.1) = [0] ∧ (held.part 0).launches.map (·.1) = [1] ∧ restorable held 0 1 (held.launch 0 1) = true) ∧
    ((s.launch 0 1).phase = .live ∧ waits.phase = .held ∧ waits.restoring = true ∧ waits.cause = 0x0E ∧ settled s 0 1 = true ∧
      settled { s with travels := [(0, ⟨⟨0, 0, 0, 1, 0, .picot⟩, 0, false, 0, 0, .clean⟩)] } 0 1 = false ∧
      (Cut.begun 1 0 .suspend []).full = false ∧ { Cut.begun 1 0 .suspend [] with full := true }.full = true) ∧
    ((s.region 3).loaded = false ∧ signatureWrong s (.rings 3) = false ∧ signatureWrong s (.matrix 0) = false ∧ s.reloading = [] ∧
      ConfigStore.matrix 0 ∈ { s with reloading := [.matrix 0] }.reloading ∧ storeLaunches s (.matrix 0) = [(0, 1)] ∧
      storeLaunches s (.edgeTable 0) = [] ∧ storeLaunches State.reset (.matrix 0) = []) ∧
    ((restarted s).timers = [] ∧ State.reset.ctl.boot = 0 ∧ State.reset.parts = [] ∧ partRecordOk State.reset rec1 = true ∧
      (∀ u ∈ rectTiles rec1.x0 rec1.y0 rec1.w rec1.h, u ∉ report.repairTiles) ∧ (∀ c ∈ rec1.channels, c / 32 ∉ report.slowStacks) ∧
      { report with defaults := [(rec1, 2300)] }.defaults = [(rec1, 2300)] ∧ (∀ y, ((0 : Nat), y) ∈ [((0 : Nat), ((3 : Nat), (9 : Nat)))] → y = (3, 9))) ∧
    ((State.reset.ctl.block .tiles).staged = false ∧ (staged.ctl.block .tiles).staged = true ∧ FwBlock.tiles ∈ staged.ctl.activating ∧
      FwBlock.eyelets ∉ staged.ctl.activating ∧ quietPoint staged .tiles = true ∧ quietPoint s .tiles = false ∧ staged.ctl.downEyelet = none ∧
      (staged.ctl.block .tiles).minSvn ≤ 0) ∧
    (tabFind State.reset.eyelets 0 = none ∧ (tabFind (linked id).eyelets 0).isSome = true ∧ 3 ≤ 64 * 320 ∧ 64 * 320 ≤ 64 * 320 ∧ 64 * 320 < 64 * 320 + 1) ∧
    (storeOwner s (.edgeTable 0) = none ∧ storeOwner s (.matrix 0) = some (0, 1, 0, 0) ∧ slotDriven (.matrix 0) = false ∧
      storeOwner (s.setChan 0 { Chan.reset with launch := some (0, 1) }) (.commands 0) = some (0, 1, 1, 0) ∧ slotDriven (.commands 0) = true) ∧
    ((State.reset.tile 0).place = none ∧ (s.tile 0).place = some square ∧ ((s.setLaunch 0 1 { s.launch 0 1 with elastic := true }).launch 0 1).elastic = true ∧
      (s.launch 0 1).elastic = false ∧ ((State.reset.tile 0).ctl.busTests = []) ∧ (State.reset.tile 0).ctl.retire = false ∧
      { Control.reset with retire := true }.retire = true) ∧
    ((∃ e ∈ (s.setPart 0 { s.part 0 with channels := [63] }).parts, e.2.present = true ∧ ∃ c ∈ e.2.channels, c / 32 = 1) ∧
      ¬ ∃ e ∈ s.parts, e.2.present = true ∧ ∃ c ∈ e.2.channels, c / 32 = 1) ∧
    (State.reset.ctl.flash = [] ∧ report.hung = [] ∧ report.failed = [] ∧ 1 ∈ { report with hung := [1] }.hung ∧ 1 ∈ { report with failed := [1] }.failed ∧
      { Controller.reset with flash := [⟨0, 1, 1, some false⟩] }.flash = [⟨Controller.reset.boot, 1, 1, some false⟩] ∧
      1 ∈ { report with failedAlternative := [1] }.failedAlternative) := by
  intro s rec1 held cut staged waits report
  refine ⟨?_, ?_, ?_, ?_, ?_, ?_, ?_, ?_, ⟨?_, ?_, ?_, ?_, ?_, ?_, ?_, fun y h => ?_⟩, ?_, ?_, ?_, ?_, ?_, ?_⟩
  case refine_16 => simpa using h
  all_goals decide +kernel

/-- A region's signature that matches its ring words, and one that does not, whatever the CRC is. -/
theorem test_witness_ManagementSignature (s : State) (g : Region) :
    let v := Config.crc32 (ringsNow (s.setRegion 3 g) 3)
    signatureWrong (s.setRegion 3 { g with loaded := true, signature := v }) (.rings 3) = false ∧
    signatureWrong (s.setRegion 3 { g with loaded := true, signature := v + 1 }) (.rings 3) = true := by
  have h : ∀ sig, ringsNow (s.setRegion 3 { g with loaded := true, signature := sig }) 3 = ringsNow (s.setRegion 3 g) 3 := by
    intro sig
    simp [ringsNow, State.region, State.setRegion, State.pe, regionPes]
  have k : ∀ sig, (s.setRegion 3 { g with loaded := true, signature := sig }).region 3 = { g with loaded := true, signature := sig } := by
    intro sig
    simp [State.region, State.setRegion]
  constructor
  · simp [signatureWrong, h, k]
  · simp only [signatureWrong, h, k]
    simp

theorem test_witness_SignatureBothWays (image : List Byte) :
    Config.signatureVerifies image = true ∨ Config.signatureVerifies image = false := by
  cases Config.signatureVerifies image <;> simp

/-- An instruction placed, with its agenda; an illegal word, a word outside the program, a repetition under way, a debug stop, a halted
core; words of a PE, a matrix table and a D-program; a unit that does not exist. -/
theorem test_witness_StepRunsDecodedInstruction :
    let s := State.reset.withFetchWord 32 0x00611000
    let ws := fun (s : State) => fetchWords (s.tile 0) (s.thread 0 0) (s.thread 0 0).pc
    let rpt := State.reset.withFetchWord 64 0x00611000F0042980
    let x : State := { State.reset with agenda := [.peOp 3 0, .peRoute 3 0, .matrix 0 63, .command 0, .event (.domainHaltStart), .units] }
    State.reset.agenda = [] ∧ s.agenda.head? = some (.thread 0 0) ∧ (∀ t < 8, s.agenda.tail.head? ≠ some (.thread 0 t)) ∧
    (workOk (.thread 0 7) = true ∧ workOk (.thread 0 8) = false ∧ ∀ w ∈ x.agenda, workOk w = true) ∧
    (mayIssue s 0 0 = true ∧ mayIssue s 0 1 = false ∧ (s.thread 0 0).debug = false ∧ (s.tile 0).core.haltc = false) ∧
    decodeSeq (ws s) = .instr (.add 3 1 2 0) 1 ∧ decodeSeq (ws rpt) = .instr (.rpt 4 1 2 3 false 0x00611000) 2 ∧
    inRepetition { Thread.reset with next := 1, rptAt := some 0 } = true ∧ inRepetition Thread.reset = false ∧
    decodeSeq (ws (State.reset.withFetchWord 32 0x0000001F)) = .illegal 0x0000001F ∧
    decodeSeq (fetchWords (s.tile 0) { s.thread 0 0 with pc := 0x10000 } 0x10000) = .missing 0 ∧
    (opAt { PE.reset with ops := Vector.replicate 32 0x110F0D, opRing := ⟨0, 1⟩ } 0 = 0x110F0D ∧ decodeFabric 0x110F0D = some (.fadd 2 3 24 6 1)) ∧
    decodeMatrix ((x.tile 0).matrix.entry 63).toNat = some (.mnop 0) ∧
    ((channel id).chan 0).words[((channel id).chan 0).pos]? = some (BitVec.ofNat 64 (10 * 2 ^ 46)) ∧ decodeD (10 * 2 ^ 46) = some (.dnop 10 0) ∧
    ((s.tile 1).core.shadowOf = none) ∧
    (let y := (s.modTile 0 (fun x => { x with place := some square })).modTile 1 (fun x =>
       { x with core := { x.core with shadowOf := some 0, shadowMask := 1 } })
     needsReady y (.add 3 1 2 0) = true ∧ issuedForm y (.add 3 1 2 0) = some (.add 3 1 2 0) ∧ storeAddress y (.add 3 1 2 0) = none ∧
       guardHolds y (.add 3 1 2 0) = true ∧ guardHolds y (.ld 7 8 1 3 8) = false ∧ (storeAddress y (.ld 7 8 0 3 8)).isSome = true ∧
       storeAddress y (.ld 7 8 0 3 8) = some 64 ∧
       needsReady (y.setThread 0 0 { Thread.reset with slow := [(1, 99)] }) (.add 3 1 2 0) = false ∧
       paired y 0 0 = true ∧ mayIssue y 0 0 = true ∧ paired y 0 1 = false ∧ (y.tile 0).place = some square ∧
       mayIssue y 1 0 = false) := by decide +kernel

/-- A well-formed instruction of every family and length with its words. -/
theorem test_witness_DecodeEncode :
    [Instr.add 3 1 2 0, .lix 6 0 (-2), .rpt 4 1 2 3 false 0x00611000, .rlx 0x60E81808, .fadd 2 3 24 6 1, .route 1 2 3 4,
      .mma 5 3 2 1 7 0x10 1, .dact 9 4 1 2 3 0x1234].all (fun i => i.wf && (encode i).isSome) = true := by decide

theorem test_witness_StepKeepsHandlerEntries :
    HandlersOk State.reset ∧ step State.reset = .next (tick State.reset) := by
  refine ⟨?_, rfl⟩
  intro x h
  rcases h with rfl | ⟨k, h⟩
  · unfold HandlerEntry
    decide
  · cases h

end Sys2Proof.Tests
end

section
/-! The state right after reset, part by part. -/

namespace Sys2Proof.Machine

open Sys2Proof.Safety

@[simp] theorem reset_tile (t : Nat) : State.reset.tile t = Tile.reset := rfl
@[simp] theorem reset_part (pid : Nat) : State.reset.part pid = Partition.reset := rfl
@[simp] theorem reset_region (k : Nat) : State.reset.region k = Region.reset := rfl
@[simp] theorem reset_eyelet (e : Nat) : State.reset.eyelet e = Eyelet.reset := rfl

@[simp] theorem reset_thread (tile n : Nat) : State.reset.thread tile n = Thread.reset := Vector.getElem_replicate _

@[simp] theorem tile_reset_stream (n : Nat) : Tile.reset.stream n = Stream.reset := Vector.getElem_replicate _

@[simp] theorem partition_reset_queue (q : Nat) : Partition.reset.queue q = Queue.reset := Vector.getElem_replicate _

/-- TVEC and MTVEC are 0xE000, the start of the handler area (R316). -/
theorem handlersOk_reset : HandlersOk State.reset := by
  rintro x (rfl | ⟨k, h⟩)
  · exact ⟨⟨by decide, by decide, by decide⟩, ⟨by decide, by decide, by decide⟩⟩
  · exact absurd h List.not_mem_nil

/-- Every memory is empty, and an empty one reads 0 (log 4). -/
theorem bytes_reset (tile a : Nat) :
    storeByte State.reset tile a = 0 ∧ imemByte State.reset tile a = 0 ∧ hbmByte State.reset tile a = 0 ∧
      scratchByte State.reset tile a = 0 ∧ hostByte State.reset a = 0 := ⟨rfl, rfl, rfl, rfl, rfl⟩

/-- Settles O55: what no table lists is at its reset value. -/
theorem resetState : Obligations.ResetState := by
  refine ⟨fun tile n => ?threads, fun tile => ?tiles, fun k => ?regions, fun e => ?eyelets, fun pid => ?parts,
    bytes_reset, rfl, rfl, rfl, rfl, rfl, rfl, handlersOk_reset⟩
  case threads =>
    simp only [reset_thread]
    decide
  case tiles =>
    simp only [reset_tile, tile_reset_stream]
    exact ⟨rfl, rfl, fun _ => rfl, fun _ => rfl, rfl, rfl, rfl, rfl, rfl, rfl, rfl, rfl⟩
  case regions => exact ⟨rfl, rfl, rfl⟩
  case eyelets => exact ⟨rfl, rfl, rfl⟩
  case parts =>
    simp only [reset_part, partition_reset_queue]
    exact ⟨rfl, rfl, rfl, rfl, rfl, rfl, rfl, rfl, fun _ => by decide⟩

end Sys2Proof.Machine
end

section
/-! The registers that are written under an access code of their own. -/

namespace Sys2Proof.Machine

open Sys2Proof.Safety

/-! ### Outcomes -/

theorem completes_pos {i : Instr} {s a b : State} {c : Prop} [Decidable c] {P : State → Prop}
    (e : exec i s = .next (if c then a else b)) (h : c) (hp : P a) : Completes i s P :=
  ⟨a, by rw [e, if_pos h], hp⟩

theorem completes_neg {i : Instr} {s a b : State} {c : Prop} [Decidable c] {P : State → Prop}
    (e : exec i s = .next (if c then a else b)) (h : ¬ c) (hp : P b) : Completes i s P :=
  ⟨b, by rw [e, if_neg h], hp⟩

/-! ### One part of the module replaced -/

theorem tileBecomes_setTile (s : State) (t : Nat) (x : Tile) : TileBecomes s t x (s.setTile t x) where
  part := setTile_tile_same s t x
  others _ h := setTile_tile_other _ _ _ _ h
  rest := rfl

theorem partBecomes_setPart (s : State) (k : Nat) (x : Partition) : PartBecomes s k x (s.setPart k x) where
  part := setPart_part_same s k x
  others _ h := setPart_part_other _ _ _ _ h
  rest := rfl

theorem threadBecomes_setThread (s : State) (t n : Nat) (h : Thread) : ThreadBecomes s t n h (s.setThread t n h) where
  thread := thread_setThread s t n h
  threads _ _ d := thread_setThread_other _ _ _ _ _ _ d
  tiles u := by
    by_cases e : u = t
    · subst e
      simp [State.setThread, Tile.setThread]
    · simp [State.setThread, setTile_tile_other _ _ _ _ e]
  rest := rfl

/-! ### What the access codes check -/

theorem handlerOk_iff (v : Word) : handlerOk v = true ↔ 0xE000 ≤ v.toNat ∧ v.toNat < 0x10000 ∧ v.toNat % 4 = 0 := by
  simp [handlerOk, and_assoc]

theorem ptrootOk_iff (p : Partition) (v : Word) :
    ptrootOk p v = true ↔ v.toNat / 2 % 2 ^ 13 = 0 ∧ v.toNat < 2 ^ 52 ∧ owned p (rootOf v) = true := by
  simp [ptrootOk, and_assoc]

theorem evlogOk_of_disabled {v : Word} (h : v.getLsbD 0 = false) : evlogOk v = true := by
  rw [evlogOk, h]
  rfl

/-- R363, with EN = 1: a size of 64 to 2^20 records, an aligned base in host memory, and no other bit. -/
theorem evlogOk_iff {v : Word} (h : v.getLsbD 0 = true) :
    evlogOk v = true ↔ 6 ≤ evlogLsz v ∧ evlogLsz v ≤ 20 ∧ v.toNat / 2 ^ 51 % 2 = 1 ∧
      v.toNat / 2 ^ 12 * 2 ^ 12 % 2 ^ (evlogLsz v + 6) = 0 ∧ v.toNat / 2 ^ 7 % 2 ^ 5 = 0 ∧ v.toNat < 2 ^ 52 := by
  have host : v.getLsbD 51 = decide (v.toNat / 2 ^ 51 % 2 = 1) := Nat.testBit_eq_decide_div_mod_eq
  rw [evlogOk, h, host]
  simp [and_assoc]

theorem selectorOk_csel (s : State) (tile : Nat) (v : Word) :
    selectorOk s tile .csel v = true ↔ v.toNat < 4096 ∧ (boundColl s tile v.toNat).isSome := by
  simp [selectorOk]

theorem selectedPath_of_bound {s : State} {tile j : Nat} {d : CollImage}
    (h : boundColl s tile (s.tile tile).core.csel.toNat = some d) :
    selectedPath s tile j = if j < d.paths.length then some d else none := by
  simp [selectedPath, h]

theorem selectedPath_of_unbound {s : State} {tile j : Nat} (h : boundColl s tile (s.tile tile).core.csel.toNat = none) :
    selectedPath s tile j = none := by
  simp [selectedPath, h]

/-! ### The event log (R363, R364) -/

/-- The named bits of EVLOG hold LSZ, IE and the base (Table 17-5). -/
theorem evlogLsz_masked (v : Word) : evlogLsz (v &&& evlogMask) = evlogLsz v := by
  have field (w : Word) : evlogLsz w = (w.extractLsb' 2 5).toNat := by
    simp [evlogLsz, Nat.shiftRight_eq_div_pow]
  rw [field, field, BitVec.extractLsb'_and]
  congr 1
  exact BitVec.and_allOnes

theorem evlogIe_masked (v : Word) : evlogIe (v &&& evlogMask) = evlogIe v := by
  simp [evlogIe, evlogMask]

theorem evlogBase_masked (v : Word) : evlogBase (v &&& evlogMask) = evlogBase v := by
  have field (w : Word) : evlogBase w = (w.extractLsb' 12 39).toNat * 2 ^ 12 := by
    simp [evlogBase, Nat.shiftRight_eq_div_pow]
  rw [field, field, BitVec.extractLsb'_and]
  congr 2
  exact BitVec.and_allOnes

/-- A record goes to its slot, and a message follows when IE = 1. -/
theorem writeRecord_eq (s : State) (pid : Nat) (r : Record) :
    writeRecord s pid r =
      let p := s.part pid
      let t := { s with
        host := memWrite s.host (evlogBase p.evlog + 64 * ((r.seq - 1) % 2 ^ evlogLsz p.evlog)) (recordBytes r) }
      if evlogIe p.evlog then t.setPart pid { p with messages := p.messages + 1 } else t := rfl

theorem writeRecord_part (s : State) (pid : Nat) (r : Record) :
    (writeRecord s pid r).part pid = { s.part pid with
      messages := (s.part pid).messages + if evlogIe (s.part pid).evlog then 1 else 0 } := by
  dsimp only [writeRecord_eq]
  split
  · exact setPart_part_same ..
  · rfl

theorem writeRecord_part_other {s : State} {pid u : Nat} {r : Record} (h : u ≠ pid) :
    (writeRecord s pid r).part u = s.part u := by
  dsimp only [writeRecord_eq]
  split
  · exact setPart_part_other _ _ _ _ h
  · rfl

theorem writeRecord_host (s : State) (pid : Nat) (r : Record) :
    (writeRecord s pid r).host = memWrite s.host
      (evlogBase (s.part pid).evlog + 64 * ((r.seq - 1) % 2 ^ evlogLsz (s.part pid).evlog)) (recordBytes r) := by
  dsimp only [writeRecord_eq]
  split <;> rfl

theorem writeRecord_rest (s : State) (pid : Nat) (r : Record) :
    { writeRecord s pid r with parts := s.parts, host := s.host } = s := by
  dsimp only [writeRecord_eq]
  split <;> rfl

/-- Records written one after another into a ring, whose partition is `p` at first. -/
theorem foldl_writeRecord (pid : Nat) (p : Partition) (l : List Record) (s : State) (hp : s.part pid = p) :
    let t := l.foldl (fun s r => writeRecord s pid r) s
    t.part pid = { p with messages := p.messages + if evlogIe p.evlog then l.length else 0 } ∧
    (∀ u, u ≠ pid → t.part u = s.part u) ∧ { t with parts := s.parts, host := s.host } = s ∧
    t.host = l.foldl (fun m r =>
      memWrite m (evlogBase p.evlog + 64 * ((r.seq - 1) % 2 ^ evlogLsz p.evlog)) (recordBytes r)) s.host := by
  induction l generalizing s p with
  | nil => simp [hp]
  | cons r l ih =>
    subst hp
    obtain ⟨hpart, hothers, hrest, hhost⟩ := ih _ _ (writeRecord_part s pid r)
    refine ⟨?_, fun u h => (hothers u h).trans (writeRecord_part_other h), ?_, ?_⟩
    · refine hpart.trans ?_
      cases evlogIe (s.part pid).evlog <;> simp [Nat.add_assoc, Nat.add_comm 1]
    · have := writeRecord_rest s pid r
      rw [← hrest] at this
      exact this
    · rw [List.foldl_cons, hhost, writeRecord_host]
      rfl

/-! ### The write operations -/

/-- With EN = 0 records stay in the buffer. -/
theorem writeEvlog_disabled {s : State} {pid : Nat} {v : Word} (h : v.getLsbD 0 = false) :
    writeEvlog s pid v = s.setPart pid { s.part pid with evlog := v &&& evlogMask } := by
  simp only [writeEvlog, h]
  rfl

/-- When EN becomes 1, the buffered records are written in order (R364). -/
theorem writeEvlog_enabled {s : State} {pid : Nat} {v : Word} (h : v.getLsbD 0 = true) :
    writeEvlog s pid v = (s.part pid).buffer.foldl (fun s r => writeRecord s pid r)
      (s.setPart pid { s.part pid with evlog := v &&& evlogMask, buffer := [] }) := by
  simp only [writeEvlog, h]
  rfl

theorem writeLbw_some {s : State} {tile j : Nat} {v : Word} {d : CollImage} (h : selectedPath s tile j = some d) :
    writeLbw s tile j v = s.setTile tile { s.tile tile with core := { (s.tile tile).core with
      weights := tabPut (s.tile tile).core.weights (8 * (s.tile tile).core.csel.toNat + j) (v.extractLsb' 32 8) } } := by
  simp only [writeLbw, h]
  rfl

theorem writeLbw_none {s : State} {tile j : Nat} {v : Word} (h : selectedPath s tile j = none) :
    writeLbw s tile j v = s := by
  simp only [writeLbw, h]


theorem completes_selector {tile : Nat} {c : Selector} {v : Word} {s : State} {k : Core} {ok : Prop}
    (hok : selectorOk s tile c v = true ↔ ok)
    (hk : writeSelector s tile c v = s.setTile tile { s.tile tile with core := k }) :
    (ok → Completes (.cselWrite tile c v) s (TileBecomes s tile { s.tile tile with core := k })) ∧
    (¬ ok → Completes (.cselWrite tile c v) s (Same s)) :=
  ⟨fun h => completes_pos rfl (hok.mpr h) (hk ▸ tileBecomes_setTile ..), fun h => completes_neg rfl (mt hok.mp h) rfl⟩

/-- SHAREDn takes the value, and the other words of the core stay. -/
theorem completes_shared (tile : Nat) {n : Nat} (v : Word) (s : State) (hn : n < 16) :
    Completes (.registerWrite (.shared tile n) v) s (fun t =>
      TileBecomes s tile { s.tile tile with core := { (s.tile tile).core with shared := (t.tile tile).core.shared } } t ∧
      (t.tile tile).core.shared[n]? = some v ∧
      ∀ i, i ≠ n → (t.tile tile).core.shared[i]? = (s.tile tile).core.shared[i]?) := by
  have hm : n % 16 = n := Nat.mod_eq_of_lt hn
  refine ⟨_, rfl, ?_⟩
  have ht : ((writePlain s (.shared tile n) v).tile tile).core.shared =
      (s.tile tile).core.shared.set (n % 16) v (Nat.mod_lt _ (by decide)) := by
    simp [writePlain, writeShared, State.modTile]
  dsimp only
  rw [ht]
  refine ⟨tileBecomes_setTile .., ?_, fun i hi => ?_⟩
  · simp [hm, hn]
  · simp [hm, Ne.symm hi]

/-- Settles O50: each access code writes one part of the module, or nothing where its check fails; the ring of EVLOG by
induction on the buffered records. -/
theorem registerWrites : Obligations.RegisterWrites := by
  intro tile m n pid q j v num s h x k p c core writes lsz ring handler root select
  have hring : v.getLsbD 0 = true → (evlogOk v = true ↔ ring) := evlogOk_iff
  refine ⟨⟨_, rfl, threadBecomes_setThread ..⟩, ⟨_, rfl, threadBecomes_setThread ..⟩,
    ⟨_, rfl, threadBecomes_setThread ..⟩, ⟨_, rfl, threadBecomes_setThread ..⟩, ⟨_, rfl, threadBecomes_setThread ..⟩,
    ⟨_, rfl, rfl⟩, completes_shared tile v s, ⟨_, rfl, partBecomes_setPart ..⟩, ⟨_, rfl, partBecomes_setPart ..⟩,
    ⟨_, rfl, threadBecomes_setThread ..⟩, fun ok => ?tvec, fun bad b => ?tvecRefused, fun ok => ?ptroot,
    fun bad => ?ptrootRefused, fun off => ?evlogOff, fun on bad => ?evlogRefused, fun on ok => ?evlogOn,
    ⟨_, rfl, partBecomes_setPart ..⟩, completes_selector (by simp [selectorOk]) rfl,
    completes_selector (by simp [selectorOk]) rfl, completes_selector (selectorOk_csel s tile v) rfl,
    fun d hd => ?lbw, fun unbound => ?lbwUnbound⟩
  case tvec =>
    have hok := (handlerOk_iff v).mpr ok
    exact ⟨completes_pos rfl hok (tileBecomes_setTile ..), completes_pos rfl hok (tileBecomes_setTile ..)⟩
  case tvecRefused => exact completes_neg rfl (mt (handlerOk_iff v).mp bad) rfl
  case ptroot => exact completes_pos rfl ((ptrootOk_iff p v).mpr ok) (partBecomes_setPart ..)
  case ptrootRefused => exact completes_neg rfl (mt (ptrootOk_iff p v).mp bad) rfl
  case evlogOff =>
    refine completes_pos rfl (evlogOk_of_disabled off) ?_
    rw [writeEvlog_disabled off]
    exact partBecomes_setPart ..
  case evlogRefused => exact completes_neg rfl (mt (hring on).mp bad) rfl
  case evlogOn =>
    refine completes_pos rfl ((hring on).mpr ok) ?_
    rw [writeEvlog_enabled on]
    obtain ⟨hpart, hothers, hrest, hhost⟩ := foldl_writeRecord pid _ p.buffer _ (setPart_part_same s pid
      { p with evlog := v &&& evlogMask, buffer := [] })
    simp only [evlogIe_masked, evlogBase_masked, evlogLsz_masked] at hpart hhost
    refine ⟨hpart, fun u hu => (hothers u hu).trans (setPart_part_other _ _ _ _ hu), ?_, hhost⟩
    exact congrArg (fun t : State => { t with parts := s.parts }) hrest
  case lbw =>
    have path := selectedPath_of_bound (j := j) hd
    refine ⟨fun hj => ⟨_, rfl, ?_⟩, fun hj => ⟨_, rfl, ?_⟩⟩
    · rw [if_pos hj] at path
      rw [writeLbw_some path]
      exact tileBecomes_setTile ..
    · rw [if_neg (by omega)] at path
      exact writeLbw_none path
  case lbwUnbound => exact ⟨_, rfl, writeLbw_none (selectedPath_of_unbound unbound)⟩

end Sys2Proof.Machine
end

section
/-! Every instruction answers a next state. -/

namespace Sys2Proof.Machine

/-! ### Outcomes that are a next state -/

/-- The outcome is a next state: no fault and no refusal. -/
def Answers (o : Out) : Prop := ∃ t, o = .next t

theorem answers_next (s : State) : Answers (.next s) := ⟨s, rfl⟩

theorem answers_ite {c : Prop} [Decidable c] {a b : Out} (ha : Answers a) (hb : Answers b) :
    Answers (if c then a else b) := by
  split
  · exact ha
  · exact hb

/-- A sequencer instruction traps, is skipped or is performed (R140). -/
theorem answers_seqStep (n : Nat) (t7 : Bool) (p : PReg) (body : State → Res) (s : State) :
    Answers (seqStep n t7 p body s) :=
  answers_ite (answers_next _) (answers_ite (answers_next _) (answers_ite (answers_next _) (answers_next _)))

theorem answers_seq (p : PReg) (body : State → Res) (s : State) : Answers (seq p body s) := answers_seqStep ..

/-- A matrix entry fires, or the engine freezes (R291). -/
theorem answers_fireWhen (ready : State → Bool) (f : State → State) (s : State) : Answers (fireWhen ready f s) :=
  answers_ite (answers_next _) (answers_ite (answers_next _) (answers_next _))

/-- A D-word is performed, or its sequencer stops with the check that failed (R238, R250). -/
theorem answers_dWord (delta : BitVec 12) (ch : BitVec 5) (check : State → Nat → Option Failed)
    (f : State → Nat → State) (s : State) : Answers (dWord delta ch check f s) := by
  refine answers_ite (answers_next _) ?_
  split <;> exact answers_next _

theorem answers_command (c : Cmd) (extra : State → Nat → Option Failed) (f : State → Nat → State) (delta : BitVec 12)
    (ch : BitVec 5) (s : State) : Answers (command c extra f delta ch s) := answers_dWord ..

theorem answers_boundaryWord (delta : BitVec 12) (ch : BitVec 5) (bad : State → Option Failed) (ends : Bool)
    (f : State → Nat → State) (s : State) : Answers (boundaryWord delta ch bad ends f s) := answers_dWord ..

/-! ### Instructions that end in another operation -/

theorem answers_execCsrr (d : GReg) (n : BitVec 10) (p : PReg) (s : State) : Answers (execCsrr d n p s) := by
  fun_cases execCsrr
  · exact answers_seq ..
  · exact answers_seqStep ..

theorem answers_execCsrw (d : GReg) (n : BitVec 10) (p : PReg) (s : State) : Answers (execCsrw d n p s) := by
  fun_cases execCsrw
  · exact answers_seq ..
  · exact answers_seqStep ..

theorem answers_execRlx (w : Word32) (s : State) : Answers (execRlx w s) := by
  fun_cases execRlx <;> exact answers_seq ..

theorem answers_execRpt (count : BitVec 10) (srd sra srb : BitVec 3) (relaxed : Bool) (w : Word32) (s : State) :
    Answers (execRpt count srd sra srb relaxed w s) := by
  fun_cases execRpt
  case case1 | case2 => exact answers_seq ..
  case case3 | case4 => exact answers_next _

theorem answers_execMwait (slot : BitVec 8) (sig : BitVec 4) (s : State) : Answers (execMwait slot sig s) := by
  fun_cases execMwait
  case case1 | case3 | case5 => exact answers_next _
  case case2 | case4 => exact answers_fireWhen ..

theorem answers_moveElement (s : State) (tile ctx : Nat) (c : Stream) (d : Descriptor) :
    Answers (moveElement s tile ctx c d) := by
  fun_cases moveElement <;> exact answers_next _

theorem answers_execStreamElement (tile ctx : Nat) (s : State) : Answers (execStreamElement tile ctx s) := by
  fun_cases execStreamElement
  case case7 => exact answers_moveElement ..
  all_goals exact answers_next _

/-! ### All instructions -/

/-- Instructions with one arm end in a shared operation or in a next state at once; the events at the end have arms of their
own, and each of these is a next state. -/
theorem answers_exec (i : Instr) (s : State) : Answers (exec i s) := by
  cases i
  case add | sub | and | or | xor | andn | shl | shr | sar | rotl | min | max | minu | maxu | clz | popc | mul | mulh |
    mulhu | div | divu | rem | remu | addi | andi | ori | xori | shli | shri | sari | lui | lix | cmp | cmpi | pand |
    por | pxor | pnot | pmov | pget | sel | addr1 | addr2 | addr4 | addr8 | bfx | bfi | cpack | cunpk | tileid | thid |
    ccnt | scnt | br | jal | jalr | loop | yield | park | wake | waitt | waite | haltt | ld | lds | st | ldf | ldfe |
    stef | stf | sete | setf | peekf | ldg | stg | atom | cas | red | fenceT | fenceC | fenceP | fenceS | drain | send |
    sendp | strmBind | strmStart | strmCancel | strmStat | scopy | vxfer | ltdef | ltld | ltst | ltpf | lthalo | ltinv |
    ltwb | ltq | bar | bara | barw | rndk | fload | fgo | fphase | fstop | fstat | mxload | mxgo | mxdrain | mxclr |
    mxstat | lnch | evsig | evwait | trap =>
    dsimp only [exec]
    exact answers_seq ..
  case qpoll | qwait | cstep | tret | tlbinv | cutm | cfgld | haltc =>
    dsimp only [exec]
    exact answers_seqStep ..
  case dact | dpre | dprea | drd | drda | dwr | dwra | drefab | drefpb | drfm | dsre | dsrx | dmrs =>
    dsimp only [exec]
    exact answers_command ..
  case dframe | dloop | dend =>
    dsimp only [exec]
    exact answers_boundaryWord ..
  case dnop | ddem =>
    dsimp only [exec]
    exact answers_dWord ..
  case mnop | mma | mmas | mzero | msig | mdrain | mend =>
    dsimp only [exec]
    exact answers_fireWhen ..
  case csrr => exact answers_execCsrr ..
  case csrw => exact answers_execCsrw ..
  case rlx => exact answers_execRlx ..
  case mwait slot sig => exact answers_execMwait slot sig s
  case streamElement => exact answers_execStreamElement ..
  case rpt => exact answers_execRpt ..
  case debugStop | nop | mov | selp | fadd | fsub | fmul | ffma | fmin | fmax | fabs | fneg | fcmplt | fcmpeq | hadd2 |
    hmul2 | hfma2 | hmax2 | iadd | isub | imul | imad | iand | ior | ixor | ishl | ishr | isar | imin | imax | icmplt |
    icmpeq | cvtif | cvtfi | cvtbf | cvtbfs | cvte4 | cvte5 | cvte4s | pack2 | unpk | frcp | frsq | fexp2 | flog2 |
    prnd | pst | pred | jnx | jnu | route | threadWake | regionCycle | regionBoundary | regionResume | mslotAdvance |
    matrixResume | generationWalkEnd | haltNotice | meshReplay | meshAcknowledgement | queueWriteError | powerWindow |
    registerWrite | tstatWrite | tvecWrite | ptrootWrite | evlogWrite | pclkWrite | cselWrite | lbwWrite |
    eyeletAcknowledgement | replayRequest | replayTimeout | laneChangeNotice | spareBarExpiry | laserFault | tretire |
    laser | llog | spdmRequest | bringUp | illegalInstruction | undefinedDWord =>
    dsimp only [exec]
    exact answers_next _
  all_goals
    dsimp only [exec, execRptRepetition, execPld, execRefreshDebtRise, execIdleFrameRun, execRefreshKeeperRefresh,
      execLaneDataEntry, execDemandSlot, execWaittExpiry, execLaunchStart, execRegionStart, execPhaseRewrite,
      execRegionDrainTokens, execLatchArrival, execStoreOpPerform, execPredFlitSend, execMatrixStart,
      execMatrixEntryComplete, execSignalWrite, execMatrixRunEnd, execStreamComplete, execCopyComplete,
      execVxferComplete, execTensorLineComplete, execHomeSliceAccess, execLlcFillComplete, execLlcWriteback,
      execBlockExpansion, execExpansionComplete, execTransmitterSlot, execZwiluFlitReceive, execRefusalReceive,
      execDomainHaltStart, execHaltResend, execHaltClear, execDomainStallTimeout, execEdgeTokenArrival, execSweep,
      execRouterForward, execMeshFlitArrival, execTreeNodeCombine, execScatterReduceApply, execMessageDelivery,
      execRemoteWrite, execDrainToken, execBarrierArrival, execBarrierCompletion, execCollectiveCallComplete,
      execLaunchPacket, execPatchPacket, execBindPacket, execBindComplete, execUnbindPacket, execQrelResume,
      execQrelAbort, execDispatch, execAgingStep, execConfigurationComplete, execLaunchEnd, execOperatingPointStep,
      execPageWalkComplete, execGateWrite, execUnitWakeComplete, execCutSlot, execElementCut, execPicotArrival,
      execCutComplete, execSnapshotInterval, execRestore, execRollback, execScrubPass, execVerticalBusTest,
      execTileRetirement, execEyeletFlitReceive, execLaneMarginal, execResumeSlotZ, execLossOfLight, execLaneTrained,
      execLightReturn, execSpareLock, execSpareLockTimeout, execEdgeSwitchSlot, execSyncFrame, execCopyHeader,
      execCopyData, execCopyDone, execPartset, execPalloc, execSuspend, execSuspendDeadline, execResume, execFwstage,
      execFwact, execFirmwareActivation, execSretire, execEreg, execSuspendHaltTimeout, execSuspendComplete]
    repeat' split
    all_goals exact answers_next _

/-- Settles O59: every arm of the dispatch answers a next state. -/
theorem noInstructionStops : Obligations.NoInstructionStops := answers_exec

end Sys2Proof.Machine
end

section
/-! A word that a soft error flaws is the effect of no instruction: for each instruction there is a state in which it leaves
the flawed words as they are, so the event of that name has no instruction of its meaning. -/

namespace Sys2Proof.Machine

/-- The outcome is a next state in which the same words are flawed. -/
def KeepsFlaws (s : State) (o : Out) : Prop := ∃ t, o = .next t ∧ t.flaws = s.flaws

/-! ### Operations that flaw no word -/

theorem flaws_ite {c : Prop} [Decidable c] {a b : State} {l : List Flaw} (ha : a.flaws = l) (hb : b.flaws = l) :
    (if c then a else b).flaws = l := by
  split
  · exact ha
  · exact hb

theorem foldl_flaws {α : Type} {f : State → α → State} (h : ∀ s a, (f s a).flaws = s.flaws) (l : List α) (s : State) :
    (l.foldl f s).flaws = s.flaws := by
  induction l generalizing s with
  | nil => rfl
  | cons a l ih => exact (ih _).trans (h s a)

theorem foldl_eq_self {α : Type} {f : State → α → State} {s : State} (h : ∀ a, f s a = s) (l : List α) :
    l.foldl f s = s := by
  induction l with
  | nil => rfl
  | cons a l ih => rw [List.foldl_cons, h a, ih]

theorem writeRecord_flaws (s : State) (pid : Nat) (r : Record) : (writeRecord s pid r).flaws = s.flaws :=
  flaws_ite rfl rfl

theorem post_flaws (s : State) (pid typ cause sub skind src queue lnum : Nat) (data : List Byte) :
    (post s pid typ cause sub skind src queue lnum data).flaws = s.flaws :=
  flaws_ite (writeRecord_flaws ..) (flaws_ite rfl rfl)

theorem writeEvlog_flaws (s : State) (pid : Nat) (v : Word) : (writeEvlog s pid v).flaws = s.flaws :=
  flaws_ite (foldl_flaws (fun _ _ => writeRecord_flaws ..) _ _) rfl

theorem wakeBank_flaws (s : State) (tile b : Nat) : (wakeBank s tile b).flaws = s.flaws := by
  fun_cases wakeBank <;> rfl

theorem wakeOneWay_flaws (s : State) (tile w : Nat) : (wakeOneWay s tile w).flaws = s.flaws := by
  fun_cases wakeOneWay <;> rfl

theorem applyGate_flaws (s : State) (tile : Nat) (v : Word) : (applyGate s tile v).flaws = s.flaws := by
  unfold applyGate
  refine (foldl_flaws (fun _ _ => wakeOneWay_flaws ..) _ _).trans ?_
  refine (foldl_flaws (fun _ _ => wakeBank_flaws ..) _ _).trans ?_
  exact flaws_ite rfl rfl

theorem discard_flaws (s : State) (pid q : Nat) (v : Verdict) : (discard s pid q v).flaws = s.flaws := by
  cases v
  case accepted => rfl
  case full | malformed => exact post_flaws ..

end Sys2Proof.Machine
end

section
/-! Sequencer instructions that no thread of a stalled tile completes. -/

namespace Sys2Proof.Machine

/-! ### A stalled thread -/

/-- The outcome of a body leaves no word flawed, where none was. -/
def Res.Spares (r : Res) : Prop :=
  match r with
  | .done t | .jump t _ | .hold t => t.flaws = []
  | .trap _ _ _ _ => True

/-- Tile 0 with every bank of its store waking, and thread 0 at the RPT pair at 0 with a deferred store to one of them. -/
def stalledTile : Tile :=
  { Tile.reset.setThread 0 { Thread.reset with relaxed := [(0, [0])], rptAt := some 0 } with
    ctl := { Control.reset with bankOff := BitVec.allOnes 32, bwake := BitVec.allOnes 32 } }

/-- The reset state with that tile: what waits for the deferred store, which a fence and most engines do, or for a bank is held. -/
def stalled : State := { State.reset with tiles := [(0, stalledTile)] }

theorem spares_ite {c : Prop} [Decidable c] {a b : Res} (ha : a.Spares) (hb : b.Spares) :
    (if c then a else b).Spares := by
  split
  · exact ha
  · exact hb

theorem finish_spares {r : Res} (h : r.Spares) : (finish stalled r).flaws = [] := by
  cases r with
  | done t => exact h
  | jump t pc => exact h
  | hold t => exact h
  | trap c sub v e => rfl

theorem keepsFlaws_seqStep {n : Nat} {t7 : Bool} {p : PReg} {body : State → Res} (h : (body stalled).Spares) :
    KeepsFlaws stalled (seqStep n t7 p body stalled) := by
  unfold seqStep
  repeat' split
  · exact ⟨_, rfl, rfl⟩
  · exact ⟨_, rfl, rfl⟩
  · exact ⟨_, rfl, rfl⟩
  · exact ⟨_, rfl, finish_spares h⟩

theorem keepsFlaws_seq {p : PReg} {body : State → Res} (h : (body stalled).Spares) :
    KeepsFlaws stalled (seq p body stalled) := keepsFlaws_seqStep h

/-- Below S the privilege check comes before the body. -/
theorem keepsFlaws_seqStep_privileged {n : Nat} (hn : 0 < n) (t7 : Bool) (p : PReg) (body : State → Res) :
    KeepsFlaws stalled (seqStep n t7 p body stalled) := ⟨_, if_pos hn, rfl⟩

/-! ### Operations that wait -/

theorem bankHeld_stalled (a : Nat) : bankHeld stalled.here (bankOf a) = true := by
  have h : bankOf a < 32 := Nat.mod_lt _ (by decide)
  show ((BitVec.allOnes 32).getLsbD (bankOf a) || (BitVec.allOnes 32).getLsbD (bankOf a)) = true
  rw [Bool.or_self, BitVec.getLsbD_allOnes, decide_eq_true h]

theorem spares_withOffset (a : Word) (n : Nat) (f : State → Nat → Res) : (withOffset stalled a n f).Spares := by
  refine spares_ite trivial (spares_ite trivial ?_)
  rw [if_pos (bankHeld_stalled _)]
  exact wakeBank_flaws stalled 0 _

theorem earlyFail_reset (va : Nat) : ∃ t, earlyFail Partition.reset va = some t := by
  unfold earlyFail
  split
  · exact ⟨_, rfl⟩
  · exact ⟨_, rfl⟩

theorem spares_withPage {va : Word} {w : Bool} {bad : State → BitVec 8 → BitVec 8 → Res} {f : State → Res}
    (h : ∀ c d, (bad stalled c d).Spares) : (withPage stalled va w bad f).Spares := by
  obtain ⟨t, ht⟩ := earlyFail_reset va.toNat
  have hs : ∃ u, seenPage stalled va.toNat w = .stop u := by
    show ∃ u, (match earlyFail Partition.reset va.toNat with | some t => _ | none => _) = Seen.stop u
    rw [ht]
    exact ⟨_, rfl⟩
  obtain ⟨u, hu⟩ := hs
  show (match seenPage stalled va.toNat w with | .page g => _ | .stop t => _ | .miss => _ : Res).Spares
  rw [hu]
  exact h _ _

/-- The thread is at U and its tile is in no placement, so it has no region. -/
theorem spares_withRegion (v : Word) (limit : Nat) (f : State → Nat → Res) : (withRegion stalled v limit f).Spares :=
  spares_ite trivial trivial

/-! ### Bodies with a shape of their own -/

theorem spares_bodyLoad (g : Bool) (d a : GReg) (sz : BitVec 2) (i : BitVec 11) :
    (bodyLoad g d a sz i stalled).Spares := by
  unfold bodyLoad
  exact spares_withOffset ..

theorem spares_bodyStore (d a : GReg) (sz : BitVec 2) (i : BitVec 11) : (bodyStore d a sz i stalled).Spares := by
  unfold bodyStore
  exact spares_withOffset ..

theorem spares_bodyStoreRelaxed (d a : GReg) (sz : BitVec 2) (i : BitVec 11) :
    (bodyStoreRelaxed d a sz i stalled).Spares := by
  unfold bodyStoreRelaxed
  exact spares_withOffset ..

theorem spares_bodyPeekf (d a : GReg) (i : BitVec 11) : (bodyPeekf d a i stalled).Spares := by
  unfold bodyPeekf
  exact spares_withOffset ..

/-- At U no address is in the register window (R330). -/
theorem not_window (c : Prop) : ¬ (stalled.me.pl ≠ 0 ∧ c) := fun h => h.1 rfl

theorem spares_bodyLdg (d a : GReg) (sz : BitVec 2) (i : BitVec 11) : (bodyLdg d a sz i stalled).Spares := by
  unfold bodyLdg
  dsimp only
  rw [if_neg (not_window _)]
  exact spares_ite trivial (spares_withPage fun _ _ => trivial)

theorem spares_bodyStg (d a : GReg) (sz : BitVec 2) (i : BitVec 11) : (bodyStg d a sz i stalled).Spares := by
  unfold bodyStg
  dsimp only
  rw [if_neg (not_window _)]
  exact spares_ite trivial (spares_withPage fun _ _ => trivial)

theorem spares_bodyRed (a b : GReg) (g w : BitVec 1) (o : BitVec 4) : (bodyRed a b g w o stalled).Spares := by
  unfold bodyRed
  exact spares_ite trivial (spares_ite (spares_ite rfl rfl) (spares_withPage fun _ _ => rfl))

theorem spares_bodyScopy (d a b : GReg) : (bodyScopy d a b stalled).Spares := by
  fun_cases bodyScopy <;> trivial

theorem spares_bodyQwait (d : GReg) (q : BitVec 2) : (bodyQwait d q stalled).Spares := by
  unfold bodyQwait popQueue recvQueue
  cases q == 1 <;> rfl

theorem spares_csrWrite (c : Csr) (v : Word) : (csrWrite c v stalled).Spares := by
  cases c
  case csel | gsel | esel | tvec | mtvec | ptroot => exact spares_ite rfl trivial
  case evlog => exact spares_ite (writeEvlog_flaws ..) trivial
  all_goals rfl

theorem keepsFlaws_execCsrr (d : GReg) (n : BitVec 10) (p : PReg) : KeepsFlaws stalled (execCsrr d n p stalled) := by
  unfold execCsrr
  split
  · exact keepsFlaws_seq trivial
  · exact keepsFlaws_seqStep rfl

theorem keepsFlaws_execCsrw (d : GReg) (n : BitVec 10) (p : PReg) : KeepsFlaws stalled (execCsrw d n p stalled) := by
  unfold execCsrw
  split
  · exact keepsFlaws_seq trivial
  · exact keepsFlaws_seqStep (spares_csrWrite ..)

/-! ### RLX and RPT -/

theorem spares_of_relaxedBody {i : Instr} {p : PReg} {body : State → Res} (h : relaxedBody i = some (p, body)) :
    (body stalled).Spares := by
  cases i
  case ld | lds =>
    cases h
    exact spares_bodyLoad ..
  case st =>
    cases h
    exact spares_bodyStoreRelaxed ..
  case peekf =>
    cases h
    exact spares_bodyPeekf ..
  all_goals cases h <;> trivial

theorem spares_of_repeatedBody {i : Instr} {p : PReg} {body : State → Res} (h : repeatedBody i = some (p, body)) :
    (body stalled).Spares := by
  cases i
  case ld | lds =>
    cases h
    exact spares_bodyLoad ..
  case st =>
    cases h
    exact spares_bodyStore ..
  case ldg =>
    cases h
    exact spares_bodyLdg ..
  case stg =>
    cases h
    exact spares_bodyStg ..
  case red =>
    cases h
    exact spares_bodyRed ..
  all_goals cases h <;> rfl

theorem spares_of_repetition {srd sra srb : BitVec 3} {relaxed : Bool} {w : Word32} {k : Nat} {p : PReg}
    {body : State → Res} (h : repetition srd sra srb relaxed w k = some (p, body)) : (body stalled).Spares := by
  revert h
  fun_cases repetition
  case case1 => exact nofun
  case case2 => exact spares_of_relaxedBody
  case case3 => exact spares_of_repeatedBody

theorem performRepetition_flaws {body : State → Res} (h : (body stalled).Spares) (count : Nat) :
    (performRepetition count 0 body stalled).flaws = [] := by
  have begun : atRepetition stalled 0 = stalled := rfl
  unfold performRepetition
  rw [begun]
  dsimp only
  revert h
  cases body stalled with
  | done t => exact fun h => flaws_ite h h
  | jump | hold | trap => exact finish_spares

theorem keepsFlaws_execRlx (w : Word32) : KeepsFlaws stalled (execRlx w stalled) := by
  unfold execRlx
  split
  · exact keepsFlaws_seq trivial
  · next h =>
    obtain ⟨i, -, hi⟩ := Option.bind_eq_some_iff.mp h
    exact keepsFlaws_seq (spares_of_relaxedBody hi)

theorem keepsFlaws_execRpt (count : BitVec 10) (srd sra srb : BitVec 3) (relaxed : Bool) (w : Word32) :
    KeepsFlaws stalled (execRpt count srd sra srb relaxed w stalled) := by
  unfold execRpt
  split
  · exact keepsFlaws_seq trivial
  · split
    · exact keepsFlaws_seq trivial
    · next h =>
      split
      · exact ⟨_, rfl, rfl⟩
      · exact ⟨_, rfl, performRepetition_flaws (spares_of_repetition h) _⟩

end Sys2Proof.Machine
end

section
/-! Words of the fabric and of the memory sequencers, and the events of tiles: for each a state that it leaves nearly as
it is. -/

namespace Sys2Proof.Machine

/-! ### Fabric ops and D-words -/

theorem fires_reset (st : BitVec 3) : fires st State.reset = false := BitVec.getLsbD_zero

/-- Right after reset no stage is valid, so no op fires. -/
theorem keepsFlaws_unfired (st : BitVec 3) (t : State) :
    KeepsFlaws State.reset (.next (if fires st State.reset then t else State.reset)) :=
  ⟨_, rfl, congrArg State.flaws (if_neg (by rw [fires_reset]; decide))⟩

theorem keepsFlaws_execPld (st : BitVec 3) (a : BitVec 5) (d : BitVec 4) (w : BitVec 1) :
    KeepsFlaws State.reset (execPld st a d w State.reset) := by
  unfold execPld
  split
  · exact keepsFlaws_unfired ..
  · exact keepsFlaws_unfired ..

/-- The reset state with the turn of a sequencer whose number is not that of channel field `ch`. -/
def elsewhere (ch : BitVec 5) : State := { State.reset with cur := { Cur.reset with chan := ch.toNat + 1 } }

/-- A D-word for another channel stops its sequencer, which has no launch (R239). -/
theorem keepsFlaws_dWord (delta : BitVec 12) (ch : BitVec 5) (check : State → Nat → Option Failed)
    (f : State → Nat → State) : ∃ s, KeepsFlaws s (dWord delta ch check f s) := by
  have h : ch.toNat ≠ (elsewhere ch).cur.chan % 32 := by
    have := ch.isLt
    show ch.toNat ≠ (ch.toNat + 1) % 32
    omega
  exact ⟨elsewhere ch, _, if_pos h, rfl⟩

theorem keepsFlaws_command (c : Cmd) (extra : State → Nat → Option Failed) (f : State → Nat → State) (delta : BitVec 12)
    (ch : BitVec 5) : ∃ s, KeepsFlaws s (command c extra f delta ch s) := keepsFlaws_dWord ..

theorem keepsFlaws_boundaryWord (delta : BitVec 12) (ch : BitVec 5) (bad : State → Option Failed) (ends : Bool)
    (f : State → Nat → State) : ∃ s, KeepsFlaws s (boundaryWord delta ch bad ends f s) := keepsFlaws_dWord ..

/-! ### Channels, regions and threads -/

theorem keepsFlaws_execRefreshDebtRise (n : Nat) : ∃ s, KeepsFlaws s (execRefreshDebtRise n s) := by
  refine ⟨State.reset.setChan n { Chan.reset with selfRefresh := true }, _, if_pos ?_, rfl⟩
  rw [setChan_chan_same]

theorem keepsFlaws_execRegionBoundary (r : Nat) : KeepsFlaws State.reset (execRegionBoundary r State.reset) :=
  ⟨_, rfl, (congrArg State.flaws (if_pos rfl)).trans (flaws_ite (foldl_flaws (by intros; rfl) _ _) rfl)⟩

theorem keepsFlaws_execThreadWake (tile t : Nat) : KeepsFlaws State.reset (execThreadWake tile t State.reset) :=
  ⟨_, rfl, by simp [wakeThread, Thread.reset]⟩

theorem keepsFlaws_execWaittExpiry (tile t : Nat) : KeepsFlaws State.reset (execWaittExpiry tile t State.reset) :=
  ⟨_, by simp only [execWaittExpiry, reset_thread, Thread.reset], rfl⟩

theorem keepsFlaws_execBarrierArrival (pid lnum bar parties tile t : Nat) :
    KeepsFlaws State.reset (execBarrierArrival pid lnum bar parties tile t State.reset) :=
  ⟨_, by simp only [execBarrierArrival, reset_thread, Thread.reset, tabFind], rfl⟩

/-! ### Engines of a tile -/

theorem keepsFlaws_execStreamElement (tile ctx : Nat) :
    KeepsFlaws State.reset (execStreamElement tile ctx State.reset) :=
  ⟨_, by simp only [execStreamElement, reset_tile, tile_reset_stream, Stream.reset], rfl⟩

theorem keepsFlaws_execStreamComplete (tile ctx : Nat) :
    KeepsFlaws State.reset (execStreamComplete tile ctx State.reset) :=
  ⟨_, by simp only [execStreamComplete, reset_tile, tile_reset_stream, Stream.reset], rfl⟩

theorem wakeWay_flaws (s : State) (tile : Nat) : (wakeWay s tile).flaws = s.flaws := flaws_ite rfl rfl

/-- A slice all of whose ways are off lets the access wait. -/
theorem keepsFlaws_execHomeSliceAccess (r : GlobalReq) : ∃ s, KeepsFlaws s (execHomeSliceAccess r s) := by
  obtain ⟨h, hh⟩ : ∃ h, homeSlice Partition.reset r.tag = h := ⟨_, rfl⟩
  refine ⟨State.reset.setTile h { Tile.reset with ctl := { Control.reset with wayOff := 0xFFFF } }, ?_⟩
  unfold execHomeSliceAccess
  dsimp only
  rw [setTile_part, reset_part, hh, setTile_tile_same, if_pos rfl]
  exact ⟨_, rfl, wakeWay_flaws ..⟩

theorem keepsFlaws_execTransmitterSlot (n : Nat) : ∃ s, KeepsFlaws s (execTransmitterSlot n s) :=
  ⟨{ State.reset with halt := { State.reset.halt with active := true } }, _, rfl, rfl⟩

/-- The flit stands below the number that the tile expects. -/
def pastFlit (tile : Nat) (f : ZwiluFlit) : State :=
  State.reset.setTile tile { Tile.reset with bobbin := { Tile.reset.bobbin with expected := [(f.vc, f.seq + 1)] } }

theorem pastFlit_expect (tile : Nat) (f : ZwiluFlit) :
    ((pastFlit tile f).tile tile).bobbin.expect f.vc = f.seq + 1 := by
  simp [pastFlit, Bobbin.expect, tabGet, tabFind]

/-- A flit that has come already is not staged again, and one that is still to come is damaged on its way. -/
theorem keepsFlaws_execZwiluFlitReceive (tile : Nat) (f : ZwiluFlit) (damage : List LightError) :
    ∃ s, KeepsFlaws s (execZwiluFlitReceive tile f damage s) := by
  cases damage with
  | nil =>
    have past : f.seq < ((pastFlit tile f).tile tile).bobbin.expect f.vc := by
      rw [pastFlit_expect]
      exact Nat.lt_succ_self _
    exact ⟨pastFlit tile f, _, rfl, congrArg State.flaws (if_pos (.inl past))⟩
  | cons d l =>
    refine ⟨{ State.reset with agenda := [.event (.zwiluFlitReceive tile f [])] }, ?_⟩
    unfold execZwiluFlitReceive damageFlit
    simp [KeepsFlaws]

/-- Node `rid` of a tile has combined the flit. -/
def combined (tile rid : Nat) (f : MeshFlit) : State :=
  State.reset.setNode (4096 * tile + rid) { TreeNode.reset with last := [(tripleKey f.src tile f.vc, f.seq)] }

theorem combined_last (tile rid : Nat) (f : MeshFlit) :
    tabGet 0 ((combined tile rid f).node (4096 * tile + rid)).last (tripleKey f.src tile f.vc) = f.seq := by
  simp [combined, tabGet, tabFind]

theorem keepsFlaws_execTreeNodeCombine (tile : Nat) (f : MeshFlit) : ∃ s, KeepsFlaws s (execTreeNodeCombine tile f s) := by
  have seen (rid : Nat) := decide_eq_true (Nat.le_of_eq (combined_last tile rid f).symm)
  unfold execTreeNodeCombine
  cases f.body
  case tree op rid payload => exact ⟨combined tile rid f, _, rfl, congrArg State.flaws (if_pos (seen rid))⟩
  case exponent rid payload => exact ⟨combined tile rid f, _, rfl, congrArg State.flaws (if_pos (seen rid))⟩
  all_goals exact ⟨State.reset, _, rfl, rfl⟩

theorem keepsFlaws_execScatterReduceApply (tile unit : Nat) :
    KeepsFlaws State.reset (execScatterReduceApply tile unit State.reset) := by
  unfold execScatterReduceApply
  dsimp only
  split
  · have empty : (State.reset.tile tile).mem.units[unit] = ScatterUnit.reset := Vector.getElem_replicate _
    rw [empty]
    exact ⟨_, rfl, rfl⟩
  · exact ⟨_, rfl, rfl⟩

/-! ### Mesh -/

/-- A tile where the flit waits already, held behind a full queue. -/
def behind (tile : Nat) (f : MeshFlit) : State :=
  State.reset.setTile tile { Tile.reset with core := { Core.reset with heldMsgs := [f] } }

theorem waitsBehind_behind (tile : Nat) (f : MeshFlit) : waitsBehind (behind tile f) tile f = true := by
  simp [waitsBehind, behind, tripleHeld]

theorem keepsFlaws_execMessageDelivery (tile : Nat) (f : MeshFlit) :
    KeepsFlaws (behind tile f) (execMessageDelivery tile f (behind tile f)) := by
  unfold execMessageDelivery
  split
  · exact ⟨_, if_pos (waitsBehind_behind tile f), rfl⟩
  · exact ⟨_, rfl, rfl⟩

theorem keepsFlaws_execRemoteWrite (tile : Nat) (f : MeshFlit) :
    KeepsFlaws (behind tile f) (execRemoteWrite tile f (behind tile f)) := by
  unfold execRemoteWrite
  dsimp only
  split
  · exact ⟨_, if_pos (waitsBehind_behind tile f), rfl⟩
  · exact ⟨_, if_pos (waitsBehind_behind tile f), rfl⟩
  · exact ⟨_, rfl, rfl⟩

theorem keepsFlaws_execBarrierCompletion (pid lnum bar tile : Nat) :
    KeepsFlaws State.reset (execBarrierCompletion pid lnum bar tile State.reset) := by
  have none : Launch.reset.barrier bar = Barrier.reset := Vector.getElem_replicate _
  unfold execBarrierCompletion
  exact ⟨_, by simp [State.launch, Partition.reset, tabGet, tabFind, none, Barrier.reset], rfl⟩

/-- The call's entry waits for room in the receive queue. -/
theorem keepsFlaws_execCollectiveCallComplete (pid lnum tile node call : Nat) :
    ∃ s, KeepsFlaws s (execCollectiveCallComplete pid lnum tile node call s) := by
  refine ⟨State.reset.setTile tile { Tile.reset with
    core := { Core.reset with recv := Vector.replicate 2 (List.replicate 32 0) } }, _, if_neg ?_, rfl⟩
  rw [setTile_tile_same]
  decide

end Sys2Proof.Machine
end

section
/-! Events of queues, registers, links and management: for each a state that it leaves nearly as it is. -/

namespace Sys2Proof.Machine

/-! ### Queues and launches -/

theorem judge_reset (q : Nat) (src : PacketSource) (ok : Bool) : judge Partition.reset q src ok = .full := by
  simp [judge, Queue.reset]

theorem keepsFlaws_execLaunchPacket (pid q : Nat) (src : PacketSource) (bs : List Byte) :
    KeepsFlaws State.reset (execLaunchPacket pid q src bs State.reset) := by
  unfold execLaunchPacket
  rw [reset_part, judge_reset]
  exact ⟨_, rfl, discard_flaws ..⟩

theorem keepsFlaws_execPatchPacket (pid q : Nat) (src : PacketSource) (bs : List Byte) :
    KeepsFlaws State.reset (execPatchPacket pid q src bs State.reset) := by
  unfold execPatchPacket
  rw [reset_part, judge_reset]
  exact ⟨_, rfl, discard_flaws ..⟩

theorem keepsFlaws_execBindPacket (pid q : Nat) (src : PacketSource) (bs : List Byte) :
    KeepsFlaws State.reset (execBindPacket pid q src bs State.reset) := by
  unfold execBindPacket
  rw [reset_part, judge_reset]
  exact ⟨_, rfl, discard_flaws ..⟩

theorem keepsFlaws_execUnbindPacket (pid q : Nat) (src : PacketSource) (bs : List Byte) :
    KeepsFlaws State.reset (execUnbindPacket pid q src bs State.reset) := by
  unfold execUnbindPacket
  rw [reset_part, judge_reset]
  exact ⟨_, rfl, discard_flaws ..⟩

theorem keepsFlaws_execQrelResume (pid q : Nat) : KeepsFlaws State.reset (execQrelResume pid q State.reset) :=
  ⟨_, by simp only [execQrelResume, reset_part, partition_reset_queue, Queue.reset], rfl⟩

theorem keepsFlaws_execQrelAbort (pid q : Nat) : KeepsFlaws State.reset (execQrelAbort pid q State.reset) :=
  ⟨_, by simp only [execQrelAbort, reset_part, partition_reset_queue, Queue.reset], rfl⟩

theorem keepsFlaws_execAgingStep (pid q : Nat) : KeepsFlaws State.reset (execAgingStep pid q State.reset) :=
  ⟨_, if_pos (.inl (by simp [Queue.reset])), rfl⟩

/-- A partition that is configuring a launch, with empty queues. -/
def configuringPart : Partition := { Partition.reset with dispatching := some 0 }

@[simp] theorem configuringPart_queue (q : Nat) : configuringPart.queue q = Queue.reset := partition_reset_queue q

def configuring (pid : Nat) : State := State.reset.setPart pid configuringPart

@[simp] theorem configuring_part (pid : Nat) : (configuring pid).part pid = configuringPart := setPart_part_same ..

theorem failHeads_configuring (pid : Nat) : failHeads (configuring pid) pid = configuring pid := by
  refine foldl_eq_self (fun q => ?_) _
  simp [Queue.reset, failHead]

theorem markReady_configuring (pid : Nat) : markReady (configuring pid) pid = configuring pid := by
  refine foldl_eq_self (fun q => ?_) _
  simp [Queue.reset, headReady, candidate]

theorem keepsFlaws_execDispatch (pid : Nat) : KeepsFlaws (configuring pid) (execDispatch pid (configuring pid)) := by
  refine ⟨configuring pid, ?_, rfl⟩
  simp [execDispatch, failHeads_configuring, markReady_configuring, configuringPart]

theorem keepsFlaws_execLaunchEnd (pid lnum : Nat) : ∃ s, KeepsFlaws s (execLaunchEnd pid lnum s) := by
  refine ⟨State.reset.setPart pid { Partition.reset with launches := [(lnum, { Launch.reset with phase := .queued })] }, ?_⟩
  refine ⟨_, ?_, rfl⟩
  simp [execLaunchEnd, State.launch, tabGet, tabFind]

/-- The allocation is as large as the mean power of the window. -/
theorem keepsFlaws_execPowerWindow (pid : Nat) : ∃ s, KeepsFlaws s (execPowerWindow pid s) := by
  refine ⟨State.reset.setPart pid { Partition.reset with allocNext := Config.windowPower pid 0 }, ?_⟩
  unfold execPowerWindow
  rw [setPart_part_same]
  exact ⟨_, congrArg Host.Outcome.next (if_neg (Nat.lt_irrefl _)), rfl⟩

/-! ### Registers -/

theorem keepsFlaws_execRegisterWrite (r : PlainReg) (v : Word) :
    KeepsFlaws State.reset (execRegisterWrite r v State.reset) := by
  cases r <;> exact ⟨_, rfl, rfl⟩

theorem keepsFlaws_execEvlogWrite (pid : Nat) (v : Word) : KeepsFlaws State.reset (execEvlogWrite pid v State.reset) :=
  ⟨_, rfl, flaws_ite (writeEvlog_flaws ..) rfl⟩

theorem keepsFlaws_execGateWrite (tile : Nat) (v : Word) :
    KeepsFlaws State.reset (execGateWrite tile v State.reset) := by
  fun_cases execGateWrite
  · exact ⟨_, rfl, flaws_ite ((applyGate_flaws ..).trans (flaws_ite rfl rfl)) (flaws_ite rfl rfl)⟩
  · exact ⟨_, rfl, rfl⟩

theorem keepsFlaws_execUnitWakeComplete (tile : Nat) (u : GatedUnit) :
    KeepsFlaws State.reset (execUnitWakeComplete tile u State.reset) := by
  cases u
  case bank | way => exact ⟨_, by simp [execUnitWakeComplete, Tile.reset, Control.reset], rfl⟩
  case tile => exact ⟨_, rfl, rfl⟩

theorem keepsFlaws_execScrubPass (store : ConfigStore) (damage : Damage) :
    KeepsFlaws State.reset (execScrubPass store damage State.reset) := by
  cases store <;> cases damage <;> exact ⟨_, rfl, rfl⟩

theorem keepsFlaws_execVerticalBusTest (tile bus : Nat) (ev : BusTestEvent) :
    KeepsFlaws State.reset (execVerticalBusTest tile bus ev State.reset) := by
  cases ev <;> exact ⟨_, rfl, rfl⟩

/-! ### Eyelets -/

/-- An eyelet that has discarded the flit `q` and expects the next one. -/
def discarding (e : Nat) (q : BitVec 24) : State :=
  State.reset.setEyelet e { Eyelet.reset with rx := { LinkDir.reset with requested := true, expected := q + 1 } }

theorem discardFlit_discarding (e : Nat) (q : BitVec 24) : discardFlit (discarding e q) e = discarding e q := by
  simp [discardFlit, discarding]

theorem controlReceived_flaws (e : Nat) (q : BitVec 24) (f : EyeletFlit) :
    (controlReceived (discarding e q) e f).flaws = (discarding e q).flaws := by
  fun_cases controlReceived
  case case5 =>
    simp [clearReport, discarding, Eyelet.reset]
  all_goals rfl

theorem keepsFlaws_execEyeletFlitReceive (e : Nat) (f : EyeletFlit) (damage : List Nat) :
    ∃ s, KeepsFlaws s (execEyeletFlitReceive e f damage s) := by
  refine ⟨discarding e (wordFlit (receivedWord f damage)).seq, ?_⟩
  have other : (wordFlit (receivedWord f damage)).seq ≠
      ((discarding e (wordFlit (receivedWord f damage)).seq).eyelet e).rx.expected := by
    rw [discarding, setEyelet_eyelet_same]
    simp
  unfold execEyeletFlitReceive
  dsimp only
  rw [if_neg other, discardFlit_discarding]
  repeat' split
  · exact ⟨_, rfl, rfl⟩
  · exact ⟨_, rfl, rfl⟩
  · exact ⟨_, rfl, controlReceived_flaws ..⟩
  · exact ⟨_, rfl, rfl⟩
  · exact ⟨_, rfl, rfl⟩

theorem keepsFlaws_execResumeSlotZ (e : Nat) (d : Direction) : KeepsFlaws State.reset (execResumeSlotZ e d State.reset) := by
  cases d <;> exact ⟨_, rfl, rfl⟩

/-- The lanes are dark already. -/
theorem keepsFlaws_execLossOfLight (e : Nat) (l : List Nat) : ∃ s, KeepsFlaws s (execLossOfLight e l s) := by
  refine ⟨State.reset.setEyelet e { Eyelet.reset with rx := { LinkDir.reset with dark := l } }, _, if_pos ?_, rfl⟩
  rw [setEyelet_eyelet_same]
  simp
  exact fun a h _ => h

/-- The laser is out of service already. -/
theorem keepsFlaws_execLaserFault (slot : Nat) : ∃ s, KeepsFlaws s (execLaserFault slot s) :=
  ⟨{ State.reset with ctl := { Controller.reset with lasersOut := [slot] } }, _,
    congrArg Host.Outcome.next (if_pos (by simp)), rfl⟩

theorem keepsFlaws_execLaser (slot : Nat) (into : Bool) : ∃ s, KeepsFlaws s (execLaser slot into s) := by
  cases into
  · exact ⟨{ State.reset with ctl := { Controller.reset with lasersOut := [slot] } }, _, rfl, by simp [respond]⟩
  · exact ⟨State.reset, _, rfl, rfl⟩

/-- The lane is dark already. -/
theorem keepsFlaws_execLaneMarginal (e lane margin : Nat) : ∃ s, KeepsFlaws s (execLaneMarginal e lane margin s) := by
  refine ⟨State.reset.setEyelet e { Eyelet.reset with rx := { LinkDir.reset with dark := [lane] } }, ?_⟩
  unfold execLaneMarginal
  split
  · exact ⟨_, rfl, rfl⟩
  · exact ⟨_, if_pos (by simp), rfl⟩

/-! ### Management -/

/-- A partition with a live launch takes no record. -/
theorem keepsFlaws_execPartset (r : PartRecord) : ∃ s, KeepsFlaws s (execPartset r s) := by
  refine ⟨State.reset.setPart r.pid { Partition.reset with launches := [(0, { Launch.reset with phase := .live })] }, _,
    if_pos ?_, rfl⟩
  rw [setPart_part_same]
  rfl

/-- Two partitions each of whose allocations takes the whole power, so that none can be granted another (R411). -/
def granted : List (Nat × Partition) :=
  [(0, { Partition.reset with present := true, allocNext := 2301 }),
    (1, { Partition.reset with present := true, allocNext := 2301 })]

/-- No word is flawed, and no partition can take a record. -/
def Granted (s : State) : Prop := s.parts = granted ∧ s.flaws = []

theorem granted_foldl {α : Type} {f : State → α → State} (h : ∀ s a, Granted s → Granted (f s a)) (l : List α)
    {s : State} (hs : Granted s) : Granted (l.foldl f s) := by
  induction l generalizing s with
  | nil => exact hs
  | cons a l ih => exact ih (h s a hs)

theorem bringPartition_granted {s : State} (h : Granted s) (d : PartRecord × Nat) : bringPartition s d = s := by
  have full : 2300 < allocSum s d.1.pid d.2 := by
    unfold allocSum
    rw [h.1]
    simp only [granted, List.foldl]
    split <;> split <;> simp_all <;> omega
  exact if_pos (.inr full)

theorem granted_setUnavailable (ts : List Nat) {s : State} (h : Granted s) : Granted (setUnavailable s ts) :=
  granted_foldl (by intros; assumption) ts h

theorem granted_bringChannels {s : State} (h : Granted s) : Granted (bringChannels s) := by
  unfold bringChannels
  exact ⟨by dsimp only; exact h.1, by dsimp only; exact h.2⟩

theorem granted_applyRepairMap (r : BringUpReport) {s : State} (h : Granted s) : Granted (applyRepairMap s r) := by
  have silent := granted_foldl (f := fun s t => s.modTile t (fun x => { x with ctl := { x.ctl with forwards := false } }))
    (by intros; assumption) r.silentRouters (granted_setUnavailable r.repairTiles h)
  unfold applyRepairMap
  dsimp only
  split
  · exact silent
  · split
    · exact silent
    · exact silent

theorem granted_stepWork (r : BringUpReport) (step : Nat) (alt : Bool) {s : State} (h : Granted s) :
    Granted (stepWork r step alt s) := by
  unfold stepWork
  split
  · split <;> exact h
  · split <;> exact h
  · exact granted_bringChannels (s := retireStacks s _) h
  · split
    · exact granted_setUnavailable _ h
    · exact h
  · split
    · exact granted_setUnavailable _ (granted_applyRepairMap r h)
    · exact granted_applyRepairMap r h
  · split <;> exact h
  · exact granted_foldl (by intros; assumption) _ h
  · have kept : Granted (r.defaults.foldl bringPartition (measureIdentity s)) :=
      granted_foldl (fun t d ht => (bringPartition_granted ht d).symm ▸ ht) _ h
    exact kept
  · exact h

theorem granted_bringStep (r : BringUpReport) (at_ : State × Bool) (step : Nat) (h : Granted at_.1) :
    Granted (bringStep r at_ step).1 := by
  fun_cases bringStep
  case case2 | case5 => exact granted_stepWork r step _ h
  all_goals exact h

/-- A module started for the first time, with partitions that take the whole power. -/
theorem keepsFlaws_execBringUp (r : BringUpReport) : ∃ s, KeepsFlaws s (execBringUp r s) := by
  refine ⟨{ State.reset with parts := granted }, _, rfl, ?_⟩
  have start : Granted { State.reset with
      parts := granted, ctl := { Controller.reset with boot := 1, outOfService := none } } := ⟨rfl, rfl⟩
  have kept (l : List Nat) (at_ : State × Bool) (h : Granted at_.1) : Granted (l.foldl (bringStep r) at_).1 := by
    induction l generalizing at_ with
    | nil => exact h
    | cons n l ih => exact ih _ (granted_bringStep r at_ n h)
  exact (kept _ _ start).2

end Sys2Proof.Machine
end

section
/-! The event WORD_FLAW is the meaning of no instruction. -/

namespace Sys2Proof.Machine

/-- A sequencer instruction is held, trapped or done by the stalled thread; the reset state or one close to it serves the
rest. -/
theorem exists_keepsFlaws (i : Instr) : ∃ s, KeepsFlaws s (exec i s) := by
  cases i
  case add | sub | and | or | xor | andn | shl | shr | sar | rotl | min | max | minu | maxu | clz | popc | mul | mulh |
    mulhu | div | divu | rem | remu | addi | andi | ori | xori | shli | shri | sari | lui | lix | cmp | cmpi | pand |
    por | pxor | pnot | pmov | pget | addr1 | addr2 | addr4 | addr8 | bfx | bfi | cpack | cunpk | tileid | thid |
    ccnt | scnt | yield | park | haltt | rndk | fenceT | fenceC | fenceP | fenceS | drain | strmStat =>
    exact ⟨stalled, keepsFlaws_seq rfl⟩
  case trap => exact ⟨stalled, keepsFlaws_seq trivial⟩
  case sel =>
    dsimp only [exec]
    exact ⟨stalled, keepsFlaws_seq rfl⟩
  case br | jal =>
    dsimp only [exec]
    exact ⟨stalled, keepsFlaws_seq (spares_ite rfl rfl)⟩
  case loop | waitt => exact ⟨stalled, keepsFlaws_seq (spares_ite rfl rfl)⟩
  case wake => exact ⟨stalled, keepsFlaws_seq (spares_ite trivial (spares_ite rfl (spares_ite rfl rfl)))⟩
  case jalr | mxclr | mxstat | ltwb | strmStart | strmCancel | evsig | lnch =>
    exact ⟨stalled, keepsFlaws_seq (spares_ite trivial rfl)⟩
  case waite | evwait => exact ⟨stalled, keepsFlaws_seq (spares_ite trivial (spares_ite rfl rfl))⟩
  case ld | lds => exact ⟨stalled, keepsFlaws_seq (spares_bodyLoad ..)⟩
  case st => exact ⟨stalled, keepsFlaws_seq (spares_bodyStore ..)⟩
  case ldf | ldfe | stef | stf | sete | setf | peekf => exact ⟨stalled, keepsFlaws_seq (spares_withOffset ..)⟩
  case ldg => exact ⟨stalled, keepsFlaws_seq (spares_bodyLdg ..)⟩
  case stg => exact ⟨stalled, keepsFlaws_seq (spares_bodyStg ..)⟩
  case red => exact ⟨stalled, keepsFlaws_seq (spares_bodyRed ..)⟩
  case atom | cas =>
    exact ⟨stalled, keepsFlaws_seq
      (spares_ite (spares_withOffset ..) (spares_ite trivial (spares_withPage fun _ _ => trivial)))⟩
  case strmBind | ltld | ltst | ltpf | ltinv | ltq | bar | bara | mxgo =>
    exact ⟨stalled, keepsFlaws_seq (spares_ite trivial (spares_ite trivial rfl))⟩
  case ltdef | vxfer | mxdrain =>
    exact ⟨stalled, keepsFlaws_seq (spares_ite trivial (spares_ite trivial (spares_ite trivial rfl)))⟩
  case mxload =>
    exact ⟨stalled, keepsFlaws_seq (spares_ite trivial (spares_ite trivial (spares_ite rfl rfl)))⟩
  case scopy => exact ⟨stalled, keepsFlaws_seq (spares_bodyScopy ..)⟩
  case lthalo => exact ⟨stalled, keepsFlaws_seq (spares_ite trivial (spares_ite trivial trivial))⟩
  case fload | fgo | fphase | fstat => exact ⟨stalled, keepsFlaws_seq (spares_ite trivial (spares_withRegion ..))⟩
  case send | sendp | barw | fstop => exact ⟨stalled, keepsFlaws_seq (spares_ite trivial trivial)⟩
  case qpoll =>
    dsimp only [exec]
    exact ⟨stalled, keepsFlaws_seqStep rfl⟩
  case qwait =>
    dsimp only [exec]
    exact ⟨stalled, keepsFlaws_seqStep (spares_bodyQwait ..)⟩
  case cstep =>
    dsimp only [exec]
    exact ⟨stalled, keepsFlaws_seqStep (spares_ite trivial trivial)⟩
  case tret | tlbinv | cutm | cfgld | haltc =>
    dsimp only [exec]
    exact ⟨stalled, keepsFlaws_seqStep_privileged Nat.one_pos ..⟩
  case csrr => exact ⟨stalled, keepsFlaws_execCsrr ..⟩
  case csrw => exact ⟨stalled, keepsFlaws_execCsrw ..⟩
  case rlx => exact ⟨stalled, keepsFlaws_execRlx ..⟩
  case rpt => exact ⟨stalled, keepsFlaws_execRpt ..⟩
  case mov | selp | fadd | fsub | fmul | ffma | fmin | fmax | fabs | fneg | fcmplt | fcmpeq | hadd2 | hmul2 | hfma2 |
    hmax2 | iadd | isub | imul | imad | iand | ior | ixor | ishl | ishr | isar | imin | imax | icmplt | icmpeq | cvtif |
    cvtfi | cvtbf | cvtbfs | cvte4 | cvte5 | cvte4s | pack2 | unpk | frcp | frsq | fexp2 | flog2 | prnd | pst | pred |
    jnx | jnu =>
    exact ⟨State.reset, keepsFlaws_unfired ..⟩
  case pld => exact ⟨State.reset, keepsFlaws_execPld ..⟩
  case dact | dpre | dprea | drd | drda | dwr | dwra | drefab | drefpb | drfm | dsre | dsrx | dmrs =>
    dsimp only [exec]
    exact keepsFlaws_command ..
  case dframe | dloop | dend =>
    dsimp only [exec]
    exact keepsFlaws_boundaryWord ..
  case dnop | ddem =>
    dsimp only [exec]
    exact keepsFlaws_dWord ..
  case refreshDebtRise => exact keepsFlaws_execRefreshDebtRise ..
  case homeSliceAccess => exact keepsFlaws_execHomeSliceAccess ..
  case transmitterSlot => exact keepsFlaws_execTransmitterSlot ..
  case zwiluFlitReceive => exact keepsFlaws_execZwiluFlitReceive ..
  case treeNodeCombine => exact keepsFlaws_execTreeNodeCombine ..
  case collectiveCallComplete => exact keepsFlaws_execCollectiveCallComplete ..
  case launchEnd => exact keepsFlaws_execLaunchEnd ..
  case powerWindow => exact keepsFlaws_execPowerWindow ..
  case eyeletFlitReceive => exact keepsFlaws_execEyeletFlitReceive ..
  case lossOfLight => exact keepsFlaws_execLossOfLight ..
  case laserFault => exact keepsFlaws_execLaserFault ..
  case laser => exact keepsFlaws_execLaser ..
  case laneMarginal => exact keepsFlaws_execLaneMarginal ..
  case partset => exact keepsFlaws_execPartset ..
  case bringUp => exact keepsFlaws_execBringUp ..
  case regionBoundary => exact ⟨_, keepsFlaws_execRegionBoundary ..⟩
  case threadWake => exact ⟨_, keepsFlaws_execThreadWake ..⟩
  case waittExpiry => exact ⟨_, keepsFlaws_execWaittExpiry ..⟩
  case barrierArrival => exact ⟨_, keepsFlaws_execBarrierArrival ..⟩
  case streamElement => exact ⟨_, keepsFlaws_execStreamElement ..⟩
  case streamComplete => exact ⟨_, keepsFlaws_execStreamComplete ..⟩
  case scatterReduceApply => exact ⟨_, keepsFlaws_execScatterReduceApply ..⟩
  case messageDelivery => exact ⟨_, keepsFlaws_execMessageDelivery ..⟩
  case remoteWrite => exact ⟨_, keepsFlaws_execRemoteWrite ..⟩
  case barrierCompletion => exact ⟨_, keepsFlaws_execBarrierCompletion ..⟩
  case launchPacket => exact ⟨_, keepsFlaws_execLaunchPacket ..⟩
  case patchPacket => exact ⟨_, keepsFlaws_execPatchPacket ..⟩
  case bindPacket => exact ⟨_, keepsFlaws_execBindPacket ..⟩
  case unbindPacket => exact ⟨_, keepsFlaws_execUnbindPacket ..⟩
  case qrelResume => exact ⟨_, keepsFlaws_execQrelResume ..⟩
  case qrelAbort => exact ⟨_, keepsFlaws_execQrelAbort ..⟩
  case agingStep => exact ⟨_, keepsFlaws_execAgingStep ..⟩
  case dispatch pid => exact ⟨configuring pid, keepsFlaws_execDispatch ..⟩
  case registerWrite => exact ⟨_, keepsFlaws_execRegisterWrite ..⟩
  case evlogWrite => exact ⟨_, keepsFlaws_execEvlogWrite ..⟩
  case gateWrite => exact ⟨_, keepsFlaws_execGateWrite ..⟩
  case unitWakeComplete => exact ⟨_, keepsFlaws_execUnitWakeComplete ..⟩
  case scrubPass => exact ⟨_, keepsFlaws_execScrubPass ..⟩
  case verticalBusTest => exact ⟨_, keepsFlaws_execVerticalBusTest ..⟩
  case resumeSlotZ => exact ⟨_, keepsFlaws_execResumeSlotZ ..⟩
  case queueWriteError => exact ⟨State.reset, _, rfl, discard_flaws ..⟩
  case tvecWrite | ptrootWrite | cselWrite => exact ⟨State.reset, _, rfl, flaws_ite rfl rfl⟩
  case refreshKeeperRefresh | latchArrival | fwact | fwstage =>
    refine ⟨State.reset, ?_⟩
    dsimp only [exec, execRefreshKeeperRefresh, execLatchArrival, execFwact, execFwstage]
    split <;> exact ⟨_, rfl, rfl⟩
  all_goals exact ⟨State.reset, _, rfl, rfl⟩

/-- Word 0 of the activation store of tile 0 has bits that its code cannot correct. -/
def exampleFlaw : Flaw := ⟨.store 0 0, false⟩

/-- No instruction has the meaning of the event: in some state it leaves the flawed words as they are. -/
theorem wordFlaw_ne_exec (f : Flaw) (i : Instr) : ¬ ∀ s, runEvent (.wordFlaw f) s = exec i s := by
  intro h
  obtain ⟨s, t, ht, kept⟩ := exists_keepsFlaws i
  have same : putFlaw s f = t := Host.Outcome.next.inj ((h s).trans ht)
  have grown : f :: s.flaws = s.flaws := (congrArg State.flaws same).trans kept
  exact List.cons_ne_self f s.flaws grown

/-- Refutes O56: the event WORD_FLAW of a word of the activation store is the meaning of no instruction. -/
theorem not_stepRunsDecodedInstruction : ¬ Obligations.StepRunsDecodedInstruction := by
  unfold Obligations.StepRunsDecodedInstruction
  rintro ⟨events, -⟩
  obtain ⟨i, h⟩ := events (.wordFlaw exampleFlaw)
  exact wordFlaw_ne_exec exampleFlaw i h

end Sys2Proof.Machine
end

section
/-! A gate write whose write-backs leave no dirty line takes effect at once, where the statement has it tried again a cycle
later. -/

namespace Sys2Proof.Machine

open Sys2Proof.Safety

/-- The write-backs that come before the ways of a slice are gated (R408). -/
def writeBackSlice (s : State) (tile : Nat) : State :=
  (dirtyTags (s.part (pidOf s tile)) tile).foldl (fun u tag => cleanLine u (pidOf s tile) tag [] none) s

/-- The dirty lines are looked for again behind their write-backs: where none is left, GATE takes its value in this cycle. -/
theorem exec_gateWrite_of_cleaned {tile : Nat} {v : Word} {s : State} (allowed : gateAllowed s tile v = true)
    (ways : newWays (s.tile tile).ctl v ≠ 0)
    (cleaned : dirtyTags ((writeBackSlice s tile).part (pidOf s tile)) tile = []) :
    exec (.gateWrite tile v) s = .next (applyGate (writeBackSlice s tile) tile v) := by
  show execGateWrite tile v s = _
  unfold execGateWrite
  rw [if_pos allowed]
  dsimp only
  rw [if_neg ways]
  exact congrArg Host.Outcome.next (if_pos (.inr (List.isEmpty_iff.mpr cleaned)))

/-- A partition of one tile, whose slice holds the dirty line of address 0x10000; its page is at hand. -/
def dirtyPart : Partition := { Partition.reset with
  present := true, w := 1, h := 1, channels := [0], ptroot := 1
  tlb := [(0, [⟨0, 0, 2 ^ 30, true, true, true⟩])]
  lines := [(64, ⟨List.replicate 1024 0, List.replicate 16 0, 0, true, 0⟩)] }

def dirtySlice : State := State.reset.setPart 0 dirtyPart

/-- A write of GATE that gates way 0 alone. -/
def gateWay0 : Word := 2 ^ 32

theorem dirtySlice_allowed : gateAllowed dirtySlice 0 gateWay0 = true := by decide

theorem dirtySlice_newWays : newWays (dirtySlice.tile 0).ctl gateWay0 ≠ 0 := by decide

theorem dirtySlice_dirtyTags : dirtyTags (dirtySlice.part (pidOf dirtySlice 0)) 0 = [64] := by decide

/-- The line's page is at hand, so its write-back leaves it clean at once. -/
theorem dirtySlice_cleaned : dirtyTags ((writeBackSlice dirtySlice 0).part (pidOf dirtySlice 0)) 0 = [] := by decide

/-- The write-back asks for no walk and wakes nothing, and no unit begins to wake: nothing waits for a later cycle. -/
theorem dirtySlice_timers : (applyGate (writeBackSlice dirtySlice 0) 0 gateWay0).timers = [] := by decide

/-- Refutes O51: a write of GATE over one dirty line whose page is at hand writes the line back and takes effect in the same
cycle; the statement has it tried again a cycle later. -/
theorem not_powerAndGates : ¬ Obligations.PowerAndGates := by
  unfold Obligations.PowerAndGates
  rintro ⟨-, -, -, steps⟩
  obtain ⟨-, -, -, -, gates, -⟩ := steps 0 0 gateWay0 dirtySlice
  obtain ⟨-, ways⟩ := gates dirtySlice_allowed
  obtain ⟨-, dirty⟩ := ways dirtySlice_newWays
  have listed : dirtyTags (dirtySlice.part (pidOf dirtySlice 0)) 0 ≠ [] := by
    rw [dirtySlice_dirtyTags]
    exact List.cons_ne_nil _ _
  obtain ⟨t, ht, again⟩ := dirty listed
  rw [exec_gateWrite_of_cleaned dirtySlice_allowed dirtySlice_newWays dirtySlice_cleaned] at ht
  have now : t.timers = [] := (congrArg State.timers (Host.Outcome.next.inj ht)).symm.trans dirtySlice_timers
  have later : t.timers = (writeBackSlice dirtySlice 0).timers ++
      [((writeBackSlice dirtySlice 0).cycle + 1, .event (.gateWrite 0 gateWay0))] := congrArg State.timers again
  exact List.append_ne_nil_of_right_ne_nil _ (List.cons_ne_nil _ _) (later.symm.trans now)

end Sys2Proof.Machine
end

section
/-! A part of the module written twice. -/

namespace Sys2Proof.Machine

theorem tabPut_tabPut {α : Type} (t : Tab α) (k : Nat) (v w : α) : tabPut (tabPut t k v) k w = tabPut t k w := by
  induction t with
  | nil => simp [tabPut]
  | cons e r ih =>
    obtain ⟨j, u⟩ := e
    simp only [tabPut]
    split
    · rename_i below
      simp [tabPut, below, ih]
    · split <;> simp [tabPut]

@[simp] theorem setTile_setTile (s : State) (t : Nat) (x y : Tile) : (s.setTile t x).setTile t y = s.setTile t y := by
  simp [State.setTile, tabPut_tabPut]

@[simp] theorem setPart_setPart (s : State) (k : Nat) (p q : Partition) : (s.setPart k p).setPart k q = s.setPart k q := by
  simp [State.setPart, tabPut_tabPut]

theorem setThread_tile_same (s : State) (tile t : Nat) (h : Thread) :
    (s.setThread tile t h).tile tile = (s.tile tile).setThread t h := setTile_tile_same ..

@[simp] theorem setThread_setThread (s : State) (tile t : Nat) (h k : Thread) :
    (s.setThread tile t h).setThread tile t k = s.setThread tile t k := by
  simp [State.setThread, Tile.setThread]

end Sys2Proof.Machine
end

section
/-! What an access does at its home slice (R87, R98, R201, R205). -/

namespace Sys2Proof.Machine

open Sys2Proof.Safety

/-! ### Atomics -/

/-- Tables 06-7 and 08-4: the codes of atomics are 0 to 12. -/
theorem atomOpResult_eq_atomicResult {o : BitVec 4} (h : o.toNat ≤ 12) (n old b : Nat) :
    atomOpResult o n old b = atomicResult o.toNat n old b := by
  unfold atomOpResult
  generalize o.toNat = k at h
  match k, h with
  | 0, _ | 1, _ | 2, _ | 3, _ | 4, _ | 5, _ | 8, _ | 9, _ | 10, _ | 11, _ | 12, _ => rfl
  | 6, _ =>
    have : (if old < b then old else b) = min old b := by split <;> omega
    exact congrArg (·, 0) this
  | 7, _ =>
    have : (if old > b then old else b) = max old b := by split <;> omega
    exact congrArg (·, 0) this

theorem signExtend_ofNat (v : Nat) (h : v < 2 ^ 32) :
    (BitVec.ofNat 32 v).signExtend 64 = BitVec.ofInt 64 (signedValue 4 v) := by
  rw [BitVec.signExtend]
  congr 1
  rw [BitVec.toInt_eq_toNat_cond, BitVec.toNat_ofNat, Nat.mod_eq_of_lt h]
  unfold signedValue
  split <;> split <;> omega

/-- What ATOM and CAS return of a word of the width that W names (R201). -/
theorem atomReturn_eq_returned {w : BitVec 1} {v : Nat} (h : w = 1 → v < 2 ^ 32) : atomReturn w v = returned w v := by
  unfold atomReturn returned
  split
  · exact signExtend_ofNat v (h ‹_›)
  · rfl

theorem redBytes_eq (o : BitVec 4) (w : BitVec 1) :
    redBytes o w = if 9 ≤ o.toNat then 4 else if w = 1 then 4 else 8 := by
  unfold redBytes
  split <;> split <;> simp_all

/-! ### Threads that an access answers -/

/-- Only the instruction memory of the tile says where a thread goes on. -/
theorem advance_setThread (x : Tile) (t : Nat) (h k : Thread) : advance (x.setThread t h) k = advance x k := rfl

theorem grantThread_setThread (s : State) (tile t : Nat) (h : Thread) (rd : GReg) (v : Word) :
    grantThread (s.setThread tile t h) tile t rd v =
      (s.setThread tile t (advance (s.tile tile) (h.setReg rd v))).event (.threadWake tile t) := by
  unfold grantThread
  rw [thread_setThread, setThread_tile_same, advance_setThread, setThread_setThread]

theorem redDone_globalDone (s : State) (tile t : Nat) (flags : BitVec 5) :
    redDone (globalDone s tile t) tile t flags = s.setThread tile t { s.thread tile t with
      globalOut := (s.thread tile t).globalOut - 1, redOut := (s.thread tile t).redOut - 1
      redFlags := (s.thread tile t).redFlags ||| flags } := by
  unfold redDone globalDone
  rw [thread_setThread, setThread_setThread]

/-! ### Words that have lost bits -/

theorem lost_of_sound {s : State} (sound : s.flaws = []) (f : FlawPlace → Bool) : lost s f = false := by
  simp [lost, sound]

theorem countErrors_of_sound {s : State} (sound : s.flaws = []) (tile : Nat) (f : FlawPlace → Bool) :
    countErrors s tile f = s := by
  simp [countErrors, sound]

/-! ### The undo log -/

/-- The launch of the tile has no complete cut, so no log takes its writes (R375). -/
def Unlogged (s : State) (tile : Nat) : Prop :=
  ∀ pl, (s.tile tile).place = some pl → (s.launch pl.pid pl.lnum).cuts = []

theorem loggedCut_of_unlogged {s : State} {tile : Nat} (h : Unlogged s tile) : loggedCut s tile = none := by
  unfold loggedCut
  split
  · rfl
  · rename_i pl placed
    rw [h pl placed]
    rfl

theorem logUndo_of_unlogged {s : State} {tile : Nat} (h : Unlogged s tile) (pid : Nat) (tag : BitVec 60) (m : Line) :
    logUndo s pid tile tag m = s := by
  simp [logUndo, loggedCut_of_unlogged h]

theorem logNeedsLine_of_unlogged {s : State} {r : GlobalReq} (h : Unlogged s r.tile) : logNeedsLine s r = false := by
  simp [logNeedsLine, loggedCut_of_unlogged h]

theorem writeLine_of_unlogged {s : State} {tile : Nat} (h : Unlogged s tile) (pid : Nat) (tag : BitVec 60) (l : Line)
    (off n v : Nat) : writeLine s pid tile tag l off n v =
      setLine s pid tag { l with data := overlay l.data off (natBytes n v), dirty := true } := by
  simp [writeLine, logUndo_of_unlogged h]

/-! ### The lookup of an access (R98, R232, R309) -/

/-- Every access but LTST and LTWB waits for a line that is not valid. -/
def needsLine (a : GlobalAct) : Bool :=
  match a with
  | .lineStore _ _ | .clean => false
  | _ => true

/-- The lookup of an access that needs its line: performed on a hit, behind earlier accesses to the line; a miss begins the
fill. -/
def lookUp (s : State) (r : GlobalReq) : State :=
  let p := s.part r.pid
  let waits := s.setPart r.pid { p with waitingFills := p.waitingFills ++ [r] }
  match lineHit p r.tag with
  | some l => if p.waitingFills.any (fun q => q.tag == r.tag) then waits else performOn s r l
  | none => startFill waits r.pid r.tag

variable {s : State} {r : GlobalReq}

theorem accessLine_eq_lookUp (needs : needsLine r.act = true) : accessLine s r = lookUp s r := by
  unfold accessLine
  cases act : r.act
  case lineStore | clean =>
    rw [act] at needs
    cases needs
  all_goals rfl

theorem accessLine_miss (needs : needsLine r.act = true) (miss : lineHit (s.part r.pid) r.tag = none) :
    accessLine s r = startFill (s.setPart r.pid { s.part r.pid with
      waitingFills := (s.part r.pid).waitingFills ++ [r] }) r.pid r.tag := by
  simp only [accessLine_eq_lookUp needs, lookUp, miss]

theorem accessLine_queued {l : Line} (needs : needsLine r.act = true) (hit : lineHit (s.part r.pid) r.tag = some l)
    (queued : (s.part r.pid).waitingFills.any (fun q => q.tag == r.tag) = true) :
    accessLine s r = s.setPart r.pid { s.part r.pid with waitingFills := (s.part r.pid).waitingFills ++ [r] } := by
  simp only [accessLine_eq_lookUp needs, lookUp, hit, queued, if_true]

theorem accessLine_hit {l : Line} (needs : needsLine r.act = true) (hit : lineHit (s.part r.pid) r.tag = some l)
    (first : (s.part r.pid).waitingFills.any (fun q => q.tag == r.tag) = false) : accessLine s r = performOn s r l := by
  simp only [accessLine_eq_lookUp needs, lookUp, hit, first, Bool.false_eq_true, if_false]

end Sys2Proof.Machine
end

section
/-! What HOME_SLICE_ACCESS does to a line without lost bits. -/

namespace Sys2Proof.Machine

open Sys2Proof.Safety

/-- The number that `k` bytes of a line from an offset hold. -/
def lineWord (l : Line) (off k : Nat) : Nat := bytesNat l.data / 2 ^ (8 * off) % 2 ^ (8 * k)

/-- The line with `k` bytes at an offset replaced, now dirty. -/
def writtenLine (l : Line) (off k v : Nat) : Line := { l with data := overlay l.data off (natBytes k v), dirty := true }

theorem atomReturn_lineWord (w : BitVec 1) (l : Line) (off : Nat) (o : BitVec 4) :
    atomReturn w (lineWord l off (redBytes o w)) = returned w (lineWord l off (redBytes o w)) := by
  refine atomReturn_eq_returned fun narrow => ?_
  have : redBytes o w = 4 := by simp [redBytes, narrow]
  rw [this]
  exact Nat.mod_lt _ (by decide)

/-! ### Accesses performed -/

variable {s : State} {pid : Nat} {tag : BitVec 60} {tile n : Nat} {l : Line}

theorem performOn_load (sound : s.flaws = []) (off k : Nat) (rd : GReg) :
    performOn s ⟨pid, tag, tile, n, .load off k rd⟩ l = grantThread s tile n rd (BitVec.ofNat 64 (lineWord l off k)) := by
  simp [performOn, lost_of_sound sound, countErrors_of_sound sound, lineWord]

theorem performOn_store (unlogged : Unlogged s tile) (off k : Nat) (v : Word) :
    performOn s ⟨pid, tag, tile, n, .store off k v⟩ l =
      globalDone (setLine s pid tag (writtenLine l off k v.toNat)) tile n := by
  simp [performOn, readsLine, writeLine_of_unlogged unlogged, writtenLine]

theorem performOn_atom (sound : s.flaws = []) (unlogged : Unlogged s tile) (off : Nat) {o : BitVec 4} (code : o.toNat ≤ 12)
    (w : BitVec 1) (b : Word) (rd : GReg) :
    performOn s ⟨pid, tag, tile, n, .atom off o w b rd⟩ l =
      let k := redBytes o w
      let v := atomicResult o.toNat k (lineWord l off k) (b.toNat % 2 ^ (8 * k))
      let h := s.thread tile n
      grantThread ((setLine s pid tag (writtenLine l off k v.1)).setThread tile n { h with fflags := h.fflags ||| v.2 }) tile n rd
        (returned w (lineWord l off k)) := by
  dsimp only
  rw [← atomReturn_lineWord, ← atomOpResult_eq_atomicResult code]
  simp [performOn, lost_of_sound sound, countErrors_of_sound sound, writeLine_of_unlogged unlogged]
  rfl

theorem performOn_cas (sound : s.flaws = []) (unlogged : Unlogged s tile) (off : Nat) (w : BitVec 1) (e v : Word) (rd : GReg) :
    performOn s ⟨pid, tag, tile, n, .cas off w e v rd⟩ l =
      let k := if w = 1 then 4 else 8
      grantThread (if lineWord l off k = e.toNat % 2 ^ (8 * k) then setLine s pid tag (writtenLine l off k v.toNat) else s)
        tile n rd (returned w (lineWord l off k)) := by
  have width : (if w = 1 then 4 else 8) = redBytes 0 w := by simp [redBytes]
  dsimp only
  rw [width, ← atomReturn_lineWord]
  simp [performOn, lost_of_sound sound, countErrors_of_sound sound, writeLine_of_unlogged unlogged]
  rfl

/-- The filter of a line, a source and a channel has seen this RED or a later one (R205). -/
theorem performOn_red_seen (sound : s.flaws = []) (off : Nat) (o : BitVec 4) (w : BitVec 1) (b : Word) {vc q : Nat}
    (seen : q ≤ tabGet 0 (s.part pid).redFilter (32 * (4096 * tag.toNat + tile) + vc)) :
    performOn s ⟨pid, tag, tile, n, .red off o w b vc q⟩ l = globalDone s tile n := by
  simp [performOn, lost_of_sound sound, countErrors_of_sound sound, seen]

theorem performOn_red_new (sound : s.flaws = []) (unlogged : Unlogged s tile) (off : Nat) {o : BitVec 4} (code : o.toNat ≤ 12)
    (w : BitVec 1) (b : Word) {vc q : Nat}
    (new : tabGet 0 (s.part pid).redFilter (32 * (4096 * tag.toNat + tile) + vc) < q) :
    performOn s ⟨pid, tag, tile, n, .red off o w b vc q⟩ l =
      let k := redBytes o w
      let v := atomicResult o.toNat k (lineWord l off k) (b.toNat % 2 ^ (8 * k))
      let p := s.part pid
      let t := s.setPart pid { p with redFilter := tabPut p.redFilter (32 * (4096 * tag.toNat + tile) + vc) q }
      let written := t.setPart pid { t.part pid with lines := tabPut p.lines tag.toNat (writtenLine l off k v.1) }
      redDone (globalDone written tile n) tile n v.2 := by
  dsimp only
  rw [← atomOpResult_eq_atomicResult code]
  simp [performOn, lost_of_sound sound, countErrors_of_sound sound, writeLine_of_unlogged unlogged, Nat.not_le.mpr new,
    setLine]
  rfl

theorem performOn_lineLoad (sound : s.flaws = []) (d c : Nat) :
    performOn s ⟨pid, tag, tile, n, .lineLoad d c⟩ l =
      (s.modTile tile (fun x => setLineOp x c (lineBytes l))).event (.tensorLineComplete tile c) := by
  simp [performOn, lost_of_sound sound, countErrors_of_sound sound]

theorem performOn_halo (sound : s.flaws = []) (k : Nat) (high full : Bool) (dst off vc : Nat) :
    performOn s ⟨pid, tag, tile, n, .halo k high full dst off vc⟩ l =
      let d := tensorOf (s.part pid) (tagTid tag)
      let m := stripSize d k / 8
      let h := s.thread tile n
      sendWords (s.setThread tile n { h with
        globalOut := h.globalOut - 1, remoteOut := h.remoteOut + m, writesOut := h.writesOut + m }) tile dst vc (32 + n) off
        (stripBytes d l k high) m full := by
  simp [performOn, lost_of_sound sound, countErrors_of_sound sound]

theorem performOn_fill : performOn s ⟨pid, tag, tile, n, .fill⟩ l = globalDone s tile n := by
  simp [performOn, readsLine]

theorem performOn_lineStore (bs : List Byte) (c : Nat) :
    performOn s ⟨pid, tag, tile, n, .lineStore bs c⟩ l = s.event (.tensorLineComplete tile c) := by
  simp [performOn, readsLine]

/-! ### LTWB and LTST -/

theorem cleanLine_of_clean {failed : List Nat} {thread : Option (Nat × Nat)} (hit : lineHit (s.part pid) tag = some l)
    (clean : l.dirty = false) : cleanLine s pid tag failed thread = s := by
  simp [cleanLine, hit, clean]

theorem accessLine_clean (hit : lineHit (s.part pid) tag = some l) (clean : l.dirty = false)
    (first : (s.part pid).waitingFills.any (fun q => q.tag == tag) = false) :
    accessLine s ⟨pid, tag, tile, n, .clean⟩ = globalDone s tile n := by
  simp only [accessLine, first]
  exact cleanLine_of_clean hit clean

/-- A slice with room takes a line, and no other line leaves it (R90). -/
theorem placeLine_of_room (room : ((s.part pid).lines.filter
      (fun e => e.2.home == l.home && e.1 != tag.toNat)).length < sliceRoom (s.tile l.home)) :
    placeLine s pid tag l = setLine s pid tag l := by
  unfold placeLine
  dsimp only
  rw [if_pos room]

/-- The line that LTST leaves: its bytes within the tensor, dirty, in the current generation (R232). -/
def storedLine (p : Partition) (tag : BitVec 60) (bs : List Byte) : Line :=
  ⟨(maskLine p tag bs).take 1024, (maskLine p tag bs).drop 1024, genOf p (tagTid tag), true, homeSlice p tag⟩

theorem accessLine_lineStore (unlogged : Unlogged s tile) (bs : List Byte) (c : Nat)
    (first : (s.part pid).waitingFills.any (fun q => q.tag == tag) = false)
    (room : ((s.part pid).lines.filter (fun e => e.2.home == homeSlice (s.part pid) tag && e.1 != tag.toNat)).length <
      sliceRoom (s.tile (homeSlice (s.part pid) tag))) :
    accessLine s ⟨pid, tag, tile, n, .lineStore bs c⟩ =
      (setLine s pid tag (storedLine (s.part pid) tag bs)).event (.tensorLineComplete tile c) := by
  have placed : placeLine s pid tag (storedLine (s.part pid) tag bs) = setLine s pid tag (storedLine (s.part pid) tag bs) :=
    placeLine_of_room room
  have unneeded : logNeedsLine s ⟨pid, tag, tile, n, .lineStore bs c⟩ = false := logNeedsLine_of_unlogged unlogged
  simp only [accessLine, first, unneeded, logUndo_of_unlogged unlogged, performOn_lineStore, Bool.false_eq_true, if_false]
  split <;> exact congrArg (State.event · _) placed

end Sys2Proof.Machine
end

section
/-! The events of home slices: accesses, fills, write-backs and page walks (R88, R90, R309, R354, R356, R359). -/

namespace Sys2Proof.Machine

open Sys2Proof.Safety

variable {s : State} {pid : Nat} {tag : BitVec 60}

/-! ### HOME_SLICE_ACCESS -/

theorem exec_homeSliceAccess_gated {r : GlobalReq} (gated : (s.tile (homeSlice (s.part r.pid) r.tag)).ctl.wayOff = 0xFFFF) :
    exec (.homeSliceAccess r) s = .next ((wakeWay s (homeSlice (s.part r.pid) r.tag)).after 1 (.homeSliceAccess r)) :=
  if_pos gated

theorem exec_homeSliceAccess_powered {r : GlobalReq}
    (powered : (s.tile (homeSlice (s.part r.pid) r.tag)).ctl.wayOff ≠ 0xFFFF) :
    exec (.homeSliceAccess r) s = .next (accessLine s r) :=
  if_neg powered

/-! ### LLC_FILL_COMPLETE -/

theorem exec_llcFillComplete_none (h : tabFind (s.part pid).fills tag.toNat = none) :
    exec (.llcFillComplete pid tag) s = .next s := by
  show execLlcFillComplete pid tag s = _
  simp [execLlcFillComplete, h]

variable {f : Fill}

theorem exec_llcFillComplete_unasked (h : tabFind (s.part pid).fills tag.toNat = some f) (unasked : f.asked = false) :
    exec (.llcFillComplete pid tag) s = .next (goFill s pid tag f) := by
  show execLlcFillComplete pid tag s = _
  simp [execLlcFillComplete, h, unasked]

theorem exec_llcFillComplete_waiting (h : tabFind (s.part pid).fills tag.toNat = some f) (asked : f.asked = true)
    (waiting : f.left ≠ 0) : exec (.llcFillComplete pid tag) s = .next s := by
  show execLlcFillComplete pid tag s = _
  simp [execLlcFillComplete, h, asked, waiting]

/-- The partition without a fill. -/
def withoutFill (p : Partition) (tag : BitVec 60) : Partition := { p with fills := tabDel p.fills tag.toNat }

theorem exec_llcFillComplete_stale (h : tabFind (s.part pid).fills tag.toNat = some f) (asked : f.asked = true)
    (served : f.left = 0) (stale : f.gen ≠ genOf (s.part pid) (tagTid tag)) :
    exec (.llcFillComplete pid tag) s = .next (startFill (s.setPart pid (withoutFill (s.part pid) tag)) pid tag) := by
  show execLlcFillComplete pid tag s = _
  simp [execLlcFillComplete, h, asked, served, stale, withoutFill]

/-- The partition without a fill and the accesses that wait for it. -/
def servedFill (p : Partition) (tag : BitVec 60) : Partition :=
  { withoutFill p tag with waitingFills := p.waitingFills.filter (fun r => r.tag != tag) }

/-- The line that a fill brings: clean, in the generation in which the fill began (R88). -/
def filledLine (p : Partition) (tag : BitVec 60) (f : Fill) : Line :=
  ⟨f.bytes.take 1024, f.bytes.drop 1024, f.gen, false, homeSlice p tag⟩

theorem exec_llcFillComplete_served (h : tabFind (s.part pid).fills tag.toNat = some f) (asked : f.asked = true)
    (served : f.left = 0) (current : f.gen = genOf (s.part pid) (tagTid tag)) :
    exec (.llcFillComplete pid tag) s = .next (performAll
      (if (lineHit (s.part pid) tag).isSome then s.setPart pid (servedFill (s.part pid) tag)
        else placeLine (s.setPart pid (servedFill (s.part pid) tag)) pid tag (filledLine (s.part pid) tag f))
      ((s.part pid).waitingFills.filter (fun r => r.tag == tag))) := by
  show execLlcFillComplete pid tag s = _
  simp [execLlcFillComplete, h, asked, served, current, servedFill, withoutFill, filledLine]

/-! ### LLC_WRITEBACK -/

theorem exec_llcWriteback_none (h : tabFind (s.part pid).backs tag.toNat = none) :
    exec (.llcWriteback pid tag) s = .next (cleanLine s pid tag [] none) := by
  show execLlcWriteback pid tag s = _
  simp [execLlcWriteback, h]

variable {b : Back}

theorem exec_llcWriteback_walking (h : tabFind (s.part pid).backs tag.toNat = some b)
    (walking : walkServes (s.part pid) (.back tag) = true) : exec (.llcWriteback pid tag) s = .next s := by
  show execLlcWriteback pid tag s = _
  simp [execLlcWriteback, h, walking]

theorem exec_llcWriteback_walked (h : tabFind (s.part pid).backs tag.toNat = some b)
    (walked : walkServes (s.part pid) (.back tag) = false) :
    exec (.llcWriteback pid tag) s = .next (cleanLine (b.threads.foldl paidBack
      (s.setPart pid { s.part pid with backs := tabDel (s.part pid).backs tag.toNat })) pid tag b.failed b.threads.head?) := by
  show execLlcWriteback pid tag s = _
  simp [execLlcWriteback, h, walked]

theorem cleanLine_of_invalid (failed : List Nat) (thread : Option (Nat × Nat)) (miss : lineHit (s.part pid) tag = none) :
    cleanLine s pid tag failed thread = s := by
  simp [cleanLine, miss]

/-- A dirty line whose pages are at hand is written back, and stays valid and clean (R90). -/
theorem cleanLine_of_dirty {l : Line} {failed : List Nat} {thread : Option (Nat × Nat)}
    (hit : lineHit (s.part pid) tag = some l) (dirty : l.dirty = true) (walked : walkServes (s.part pid) (.back tag) = false)
    (atHand : missingPages (s.part pid) (lineField (s.part pid) tag) failed (linePieces (s.part pid) tag) = []) :
    cleanLine s pid tag failed thread =
      writeBackLine (setLine s pid tag { l with dirty := false }) pid tag l failed thread := by
  simp [cleanLine, hit, dirty, walked, atHand, onePerPage]

/-! ### PAGE_WALK_COMPLETE -/

variable {k : Nat} {w : Walk}

theorem exec_pageWalkComplete (h : tabFind (s.part (k / 2 ^ 47)).walks k = some w) :
    exec (.pageWalkComplete k) s = .next (if w.started then walkOn s (k / 2 ^ 47) k w 5 else s) := by
  show execPageWalkComplete k s = _
  simp only [execPageWalkComplete, h]

/-- What the walker finds where it stands is the end of the walk: what a channel has read, a table that the partition does
not own, or an entry in host memory (R354, R358). -/
def WalkEnds (s : State) (pid : Nat) (w : Walk) (r : Translation) : Prop :=
  w.result = some r ∨ (w.result = none ∧ owned (s.part pid) w.table = false ∧ r = .access) ∨
    (w.result = none ∧ owned (s.part pid) w.table = true ∧ inHost (entryAt w.va w.level w.table) = true ∧
      readEntry w.va w.level (physLoad s (entryAt w.va w.level w.table) 8) = .stop r)

theorem walkOn_of_ends {r : Translation} (ends : WalkEnds s pid w r) (fuel : Nat) :
    walkOn s pid k w (fuel + 1) = endWalk s pid k w r := by
  rcases ends with result | ⟨result, foreign, rfl⟩ | ⟨result, own, host, entry⟩
  · simp [walkOn, result]
  · simp [walkOn, result, foreign]
  · simp [walkOn, result, own, host, entry]

theorem walkOn_of_channel (result : w.result = none) (own : owned (s.part pid) w.table = true)
    (hbm : inHost (entryAt w.va w.level w.table) = false) (fuel : Nat) :
    walkOn s pid k w (fuel + 1) =
      let pa := entryAt w.va w.level w.table
      sendDemand (s.setPart pid { s.part pid with walks := tabPut (s.part pid).walks k w }) (chanOf pa)
        ⟨pid, 0, pa % 2 ^ 31 / 1024, .walk k (pa % 2 ^ 31), none⟩ := by
  simp [walkOn, result, own, hbm]

/-! ### The end of a walk for one thread -/

variable {z m va : Nat} {write user : Bool} {r : Translation}

/-- The partition without a walk. -/
def withoutWalk (p : Partition) (k : Nat) : Partition := { p with walks := tabDel p.walks k }

/-- The judgement of a page reads the channels of the partition alone. -/
theorem judgePage_withTlb (p : Partition) (t : Tab (List Page)) (write user : Bool) (r : Translation) :
    judgePage { p with tlb := t } write user r = judgePage p write user r := rfl

theorem judgePage_eq_page {p : Partition} {g : Page} (h : judgePage p write user r = .page g) : r = .page g := by
  unfold judgePage at h
  split at h
  · split at h
    · cases h
    · split at h
      · cases h
      · exact h
  · exact h

theorem keepPage_of_page {p : Partition} {g : Page} (field : Nat) (h : judgePage p write user r = .page g) :
    keepPage p field (some r) [.thread z m va write user] = putField p field g := by
  obtain rfl := judgePage_eq_page h
  simp [keepPage, walkAccess, h]

theorem keepPage_of_failure {p : Partition} (field : Nat) (h : ∀ g, judgePage p write user r ≠ .page g) :
    keepPage p field (some r) [.thread z m va write user] = p := by
  cases r with
  | page g => simp [keepPage, walkAccess, h g]
  | fail e => rfl
  | access => rfl

theorem endWalk_thread (waits : w.waiting = [.thread z m va write user]) :
    endWalk s pid k w r =
      let found := if w.discard then none else some r
      nextWalk (tellWalk pid w.va found
        (s.setPart pid (keepPage (withoutWalk (s.part pid) k) w.field found [.thread z m va write user]))
        (.thread z m va write user)) w.field := by
  simp [endWalk, waits, withoutWalk]

theorem endWalk_thread_discarded (waits : w.waiting = [.thread z m va write user]) (discard : w.discard = true) :
    endWalk s pid k w r =
      nextWalk ((s.setPart pid (withoutWalk (s.part pid) k)).event (.threadWake z m)) w.field := by
  rw [endWalk_thread waits]
  simp [discard, keepPage, tellWalk]

/-- The page enters both TLBs (R356). -/
theorem endWalk_thread_page (waits : w.waiting = [.thread z m va write user]) (kept : w.discard = false) {g : Page}
    (h : judgePage (withoutWalk (s.part pid) k) write user r = .page g) :
    endWalk s pid k w r =
      let told := (s.setPart pid (putField (withoutWalk (s.part pid) k) w.field g)).event (.threadWake z m)
      nextWalk (told.setTile z { s.tile z with tlb := tlbPut (s.tile z).tlb 384 g }) w.field := by
  have again : judgePage (putField (withoutWalk (s.part pid) k) w.field g) write user r = .page g := h
  rw [endWalk_thread waits]
  simp [kept, keepPage_of_page w.field h, tellWalk, again, State.modTile]

/-- The failure stays with the thread (R354). -/
theorem endWalk_thread_failure (waits : w.waiting = [.thread z m va write user]) (kept : w.discard = false) {t : Translation}
    (h : judgePage (withoutWalk (s.part pid) k) write user r = t) (failure : ∀ g, t ≠ .page g) :
    endWalk s pid k w r =
      let told := (s.setPart pid (withoutWalk (s.part pid) k)).event (.threadWake z m)
      let c := failCause write t
      nextWalk (told.setThread z m { s.thread z m with
        walkFault := (s.thread z m).walkFault ++ [(c.1, c.2, BitVec.ofNat 64 va)] }) w.field := by
  rw [endWalk_thread waits]
  have none_page : ∀ g, judgePage (withoutWalk (s.part pid) k) write user r ≠ .page g := fun g e => failure g (h ▸ e)
  cases t with
  | page g => exact absurd rfl (failure g)
  | fail e =>
    simp [kept, keepPage_of_failure w.field none_page, tellWalk, h]
    rfl
  | access =>
    simp [kept, keepPage_of_failure w.field none_page, tellWalk, h]
    rfl

end Sys2Proof.Machine
end

section
/-! HOME_SLICE_ACCESS, LLC_FILL_COMPLETE, LLC_WRITEBACK and PAGE_WALK_COMPLETE. -/

namespace Sys2Proof.Machine

open Sys2Proof.Safety

theorem completes_same {i : Instr} {s t : State} (h : exec i s = .next t) : Completes i s (Same t) := ⟨t, h, rfl⟩

/-- Settles O40: an access is performed, queued or begins a fill by its lookup; a fill and a write-back go on from where they
stand; a walk of one thread ends by what it finds. -/
theorem homeSlices : Obligations.HomeSlices := by
  intro pid tag tile n l s p home access waits queued h word written granted width noUndo
  refine ⟨fun gated a => completes_same (exec_homeSliceAccess_gated (r := ⟨pid, tag, tile, n, a⟩) gated), fun powered sound => ?powered,
    fun absent => completes_same (exec_llcFillComplete_none absent), fun f found => ?fills, ⟨fun absent => ?ask, fun b found => ?back⟩,
    fun k w => ?walks⟩
  case powered =>
    have looksUp (a : GlobalAct) := exec_homeSliceAccess_powered (r := ⟨pid, tag, tile, n, a⟩) powered
    have step {a : GlobalAct} {u : State} (e : accessLine s ⟨pid, tag, tile, n, a⟩ = u) : access a (Same u) :=
      completes_same ((looksUp a).trans (congrArg _ e))
    have first (free : ¬ queued) : p.waitingFills.any (fun q => q.tag == tag) = false := by
      simpa [queued] using free
    refine ⟨fun miss off k rd v => ?miss, fun hit behind off k rd => ?behind, fun hit free => ?hit, fun bs c free unlogged room => ?put⟩
    case miss =>
      exact ⟨step (accessLine_miss rfl miss), step (accessLine_miss rfl miss), step (accessLine_miss rfl miss)⟩
    case behind =>
      have some_waits : p.waitingFills.any (fun q => q.tag == tag) = true := by simpa [queued] using behind
      refine ⟨_, looksUp _, ?_⟩
      rw [accessLine_queued rfl hit some_waits]
      exact partBecomes_setPart ..
    case put =>
      refine ⟨_, looksUp _, ?_⟩
      rw [accessLine_lineStore unlogged bs c (first free) room]
      exact partBecomes_setPart (s.event (.tensorLineComplete tile c)) pid _
    case hit =>
      have performed {a : GlobalAct} {u : State} (ha : needsLine a = true) (e : performOn s ⟨pid, tag, tile, n, a⟩ l = u) :
          access a (Same u) := step ((accessLine_hit ha hit (first free)).trans e)
      refine ⟨fun off k rd => performed rfl (performOn_load sound off k rd), fun unlogged => ⟨?store, ?atom, ?cas, ?red⟩,
        fun d c => ?lineLoad, fun k high full dst off vc => performed rfl (performOn_halo sound k high full dst off vc),
        performed rfl performOn_fill, fun clean => step (accessLine_clean hit clean (first free))⟩
      case store => exact fun off k v => performed rfl (performOn_store unlogged off k v)
      case atom =>
        intro off w b rd o code
        refine performed rfl ((performOn_atom sound unlogged off code w b rd).trans ?_)
        rw [redBytes_eq, grantThread_setThread]
        rfl
      case cas =>
        intro off w e v rd k
        exact ⟨fun same => performed rfl ((performOn_cas sound unlogged off w e v rd).trans
            (congrArg (grantThread · tile n rd (returned w (word off k))) (if_pos same))),
          fun other => performed rfl ((performOn_cas sound unlogged off w e v rd).trans
            (congrArg (grantThread · tile n rd (returned w (word off k))) (if_neg other)))⟩
      case red =>
        intro off w b vc q o code k key v
        refine ⟨fun seen => performed rfl (performOn_red_seen sound off o w b seen), fun new => performed rfl ?_⟩
        rw [performOn_red_new sound unlogged off code w b new, redBytes_eq, redDone_globalDone]
        rfl
      case lineLoad =>
        refine ⟨_, looksUp _, ?_⟩
        rw [accessLine_hit rfl hit (first free), performOn_lineLoad sound]
        exact tileBecomes_setTile (s.event (.tensorLineComplete tile c)) tile _
  case fills =>
    refine ⟨fun unasked => completes_same (exec_llcFillComplete_unasked found unasked),
      fun asked waiting => completes_same (exec_llcFillComplete_waiting found asked waiting),
      fun asked served stale => completes_same (exec_llcFillComplete_stale found asked served stale),
      fun asked served current => ⟨fun valid => completes_same ?_, fun invalid room => completes_same ?_⟩⟩
    · rw [exec_llcFillComplete_served found asked served current, if_pos (Option.isSome_iff_ne_none.mpr valid)]
      rfl
    · have placed : placeLine (s.setPart pid (servedFill p tag)) pid tag (filledLine p tag f) =
          setLine (s.setPart pid (servedFill p tag)) pid tag (filledLine p tag f) := by
        refine placeLine_of_room ?_
        rw [setPart_part_same]
        exact room
      have absent : ¬ (lineHit p tag).isSome := by simp [invalid]
      rw [exec_llcFillComplete_served found asked served current, if_neg absent, placed, setLine, setPart_part_same,
        setPart_setPart]
      rfl
  case ask =>
    refine ⟨fun miss => completes_same ?_, fun hit => ⟨fun clean => completes_same ?_, fun dirty walked atHand => completes_same ?_⟩⟩
    · rw [exec_llcWriteback_none absent, cleanLine_of_invalid [] none miss]
    · rw [exec_llcWriteback_none absent, cleanLine_of_clean hit clean]
    · rw [exec_llcWriteback_none absent, cleanLine_of_dirty hit dirty walked atHand]
      rfl
  case back =>
    exact ⟨fun walking => completes_same (exec_llcWriteback_walking found walking),
      fun walked => completes_same (exec_llcWriteback_walked found walked)⟩
  case walks =>
    intro q g pa found
    have runs (started : w.started = true) {u : State} (e : walkOn s q k w (4 + 1) = u) :
        Completes (.pageWalkComplete k) s (Same u) :=
      completes_same ((exec_pageWalkComplete found).trans (congrArg _ ((if_pos started).trans e)))
    refine ⟨fun idle => ?idle, fun started result own hbm => runs started (walkOn_of_channel result own hbm 4),
      fun started r ends z m va write user waits => ?ends⟩
    case idle =>
      exact completes_same ((exec_pageWalkComplete found).trans (congrArg _ (if_neg (by simp [idle]))))
    case ends =>
      have walked {u : State} (e : endWalk s q k w r = u) := runs started ((walkOn_of_ends ends 4).trans e)
      exact ⟨fun discard => walked (endWalk_thread_discarded waits discard), fun kept =>
        ⟨fun e page => walked (endWalk_thread_page waits kept page),
          fun e failed => walked (endWalk_thread_failure waits kept failed nofun),
          fun refused => walked (endWalk_thread_failure waits kept refused nofun)⟩⟩

end Sys2Proof.Machine
end

section
/-! What a delivery touches besides its own effect: who waits for it, what it waits behind, banks and bits (R77, R97, R102, R176). -/

namespace Sys2Proof.Machine

open Sys2Proof.Safety

theorem tileBecomes_self (s : State) (k : Nat) : TileBecomes s k (s.tile k) s := ⟨rfl, fun _ _ => rfl, rfl⟩

/-- Two changes of one tile are one. -/
theorem tileBecomes_trans {s t u : State} {k : Nat} {x y : Tile} (h : TileBecomes s k x t) (g : TileBecomes t k y u) :
    TileBecomes s k y u where
  part := g.part
  others v d := (g.others v d).trans (h.others v d)
  rest := by
    rw [← h.rest, ← g.rest]

/-! ### Who waits for a delivery (R102, R104, R222, R226) -/

section owners

variable (u : State) (tile : Nat) {o : Nat}

theorem ownerDone_thread (h : o < 8) : ownerDone u tile o =
    u.setThread tile o { u.thread tile o with remoteOut := (u.thread tile o).remoteOut - 1 } := by
  simp only [ownerDone, if_pos h]
  rfl

theorem ownerDone_strip (above : 32 ≤ o) (below : o < 48) : ownerDone u tile o =
    u.setThread tile o { u.thread tile o with
      remoteOut := (u.thread tile o).remoteOut - 1, writesOut := (u.thread tile o).writesOut - 1 } := by
  have h : ¬ o < 8 := by omega
  simp only [ownerDone, if_neg h, if_pos (And.intro above below)]
  rfl

/-- A stream context with one delivery less under way. -/
def streamDelivered (c : Stream) : Stream := { c with out := c.out - 1, done := c.done + 1 }

theorem ownerDone_stream (above : 8 ≤ o) (below : o < 24) : ownerDone u tile o =
    let c := (u.tile tile).stream (o - 8)
    let v := u.setTile tile ((u.tile tile).setStream (o - 8) (streamDelivered c))
    if c.out - 1 = 0 then v.event (.streamComplete tile (o - 8)) else v := by
  have h : ¬ o < 8 := by omega
  have k : ¬ (32 ≤ o ∧ o < 48) := by omega
  have j : o - 8 < 16 := by omega
  have e : (o - 8) % 16 = o - 8 := Nat.mod_eq_of_lt j
  simp only [ownerDone, if_neg h, if_neg k, dif_pos j, streamDelivered, Tile.stream, Tile.setStream, e]

theorem ownerDone_no_copy (h : (u.tile tile).eng.copies = []) : ownerDone u tile 24 = u := by
  simp [ownerDone, h]

theorem ownerDone_copy {c : Copy} {r : List Copy} (h : (u.tile tile).eng.copies = c :: r) : ownerDone u tile 24 =
    let x := u.tile tile
    let v := u.setTile tile { x with eng := { x.eng with copies := { c with out := c.out - 1 } :: r } }
    if c.out ≤ 1 ∧ c.moved = c.len then v.event (.copyComplete tile) else v := by
  simp [ownerDone, h]

theorem ownerDone_nobody (h : 48 ≤ o) : ownerDone u tile o = u := by
  simp [ownerDone, show ¬ o < 8 by omega, show ¬ (32 ≤ o ∧ o < 48) by omega, show ¬ o - 8 < 16 by omega,
    show o ≠ 24 by omega]

theorem arcReceives_unplaced {tile : Nat} (h : (u.tile tile).place = none) (vc : Nat) (count : ArcImage → Nat) :
    arcReceives u tile vc count = u := by
  simp [arcReceives, h]

end owners

/-! ### What a delivery waits behind (R97) -/

/-- The work delivers a flit at a tile. -/
def Delivers (tile : Nat) (w : Work) (g : MeshFlit) : Prop :=
  w = .event (.remoteWrite tile g) ∨ w = .event (.messageDelivery tile g)

theorem mem_waitingFlits (s : State) (tile : Nat) (g : MeshFlit) :
    g ∈ waitingFlits s tile ↔ (∃ w ∈ s.agenda, Delivers tile w g) ∨ ∃ e ∈ s.timers, Delivers tile e.2 g := by
  have found {w : Work} (d : Delivers tile w g) (listed : w ∈ s.agenda ++ s.timers.map (·.2)) : g ∈ waitingFlits s tile := by
    refine List.mem_filterMap.mpr ⟨w, listed, ?_⟩
    rcases d with rfl | rfl <;> simp
  constructor
  · intro h
    obtain ⟨w, listed, h⟩ := List.mem_filterMap.mp h
    have d : Delivers tile w g := by
      unfold Delivers
      split at h <;> simp_all
    rw [List.mem_append, List.mem_map] at listed
    rcases listed with now | ⟨e, later, rfl⟩
    · exact .inl ⟨w, now, d⟩
    · exact .inr ⟨e, later, d⟩
  · rintro (⟨w, now, d⟩ | ⟨e, later, d⟩)
    · exact found d (List.mem_append_left _ now)
    · exact found d (List.mem_append_right _ (List.mem_map_of_mem later))

/-- A flit of the triple is held, or an earlier one is not delivered yet. -/
def Behind (s : State) (tile : Nat) (f : MeshFlit) : Prop :=
  (∃ g ∈ (s.tile tile).core.heldMsgs, g.src = f.src ∧ g.vc = f.vc) ∨
  (∃ e ∈ (s.tile tile).store.held, ∃ d t, e.kind = .remote d f.vc f.src t) ∨
  ∃ g, g.src = f.src ∧ g.vc = f.vc ∧ g.seq < f.seq ∧
    ((∃ w ∈ s.agenda, Delivers tile w g) ∨ ∃ e ∈ s.timers, Delivers tile e.2 g)

theorem tripleHeld_iff (x : Tile) (src vc : Nat) :
    tripleHeld x src vc = true ↔ (∃ g ∈ x.core.heldMsgs, g.src = src ∧ g.vc = vc) ∨
      ∃ e ∈ x.store.held, ∃ d t, e.kind = .remote d vc src t := by
  unfold tripleHeld
  rw [Bool.or_eq_true, List.any_eq_true, List.any_eq_true]
  refine or_congr (by simp) (exists_congr fun e => and_congr_right fun _ => ?_)
  cases e.kind <;> simp

theorem waitsBehind_iff (s : State) (tile : Nat) (f : MeshFlit) : waitsBehind s tile f = true ↔ Behind s tile f := by
  unfold waitsBehind Behind
  rw [Bool.or_eq_true, tripleHeld_iff, or_assoc, List.any_eq_true]
  simp only [mem_waitingFlits, Bool.and_eq_true, beq_iff_eq, decide_eq_true_eq]
  exact or_congr_right (or_congr_right (exists_congr fun g =>
    ⟨fun ⟨waits, ⟨src, vc⟩, seq⟩ => ⟨src, vc, seq, waits⟩, fun ⟨src, vc, seq, waits⟩ => ⟨waits, ⟨src, vc⟩, seq⟩⟩))

/-! ### Banks (R176) -/

theorem takeBanks_eq (x : Tile) (now off n : Nat) :
    takeBanks x now off n = { x with store := { x.store with busy := (takeBanks x now off n).store.busy } } := by
  have fold (l : List Nat) (x : Tile) :
      l.foldl (takeBank now) x = { x with store := { x.store with busy := (l.foldl (takeBank now) x).store.busy } } := by
    induction l generalizing x with
    | nil => rfl
    | cons b l ih =>
      rw [List.foldl_cons, ih]
      rfl
  exact fold _ x

/-- The cycles at which the banks of a tile are free once an access of some bytes has reached them. -/
def takenBanks (s : State) (tile off n : Nat) : Tab Nat := ((reachBanks s tile off n).tile tile).store.busy

theorem tileBecomes_reachBanks (s : State) (tile off n : Nat) :
    TileBecomes s tile { s.tile tile with store := { (s.tile tile).store with busy := takenBanks s tile off n } }
      (reachBanks s tile off n) := by
  have reached : (reachBanks s tile off n).tile tile = takeBanks (s.tile tile) s.cycle off n := setTile_tile_same ..
  unfold takenBanks
  rw [reached, ← takeBanks_eq]
  exact tileBecomes_setTile ..

theorem isFull_reachBanks (s : State) (tile off n w : Nat) :
    isFull ((reachBanks s tile off n).tile tile) w = isFull (s.tile tile) w := by
  rw [(tileBecomes_reachBanks s tile off n).part]
  rfl

theorem remoteEntries_reachBanks (s : State) (tile off n b : Nat) :
    remoteEntries ((reachBanks s tile off n).tile tile) b = remoteEntries (s.tile tile) b := by
  rw [(tileBecomes_reachBanks s tile off n).part]
  rfl

/-! ### Bits (R77) -/

theorem contains_setInsert (l : List Nat) (w k : Nat) :
    (setInsert l w).contains k = if k = w then true else l.contains k := by
  rw [Bool.eq_iff_iff]
  by_cases e : k = w
  · simp [e, mem_setInsert]
  · simp [e, mem_setInsert]

/-- No operation waits on a word of the tile. -/
def Unawaited (x : Tile) (w : Nat) : Prop := (∀ e ∈ x.store.waiters, e.word ≠ w) ∧ x.matrix.waits ≠ some w

theorem scan_of_unawaited {s : State} {tile w : Nat} (h : Unawaited (s.tile tile) w) : scan s tile w = s := by
  obtain ⟨waiters, matrix⟩ := h
  have unready : firstReady (s.tile tile).store.waiters w (isFull (s.tile tile) w) = none := by
    rw [firstReady, List.find?_eq_none]
    intro e listed
    simp [waiters e listed]
  have words (fuel : Nat) : scanWords s tile [w] fuel = s := by
    match fuel with
    | 0 => rfl
    | 1 => simp [scanWords, unready]
    | _ + 2 => simp [scanWords, unready]
  simp [scan, words, takeSignal, matrix]

theorem changeBit_same {s : State} {tile w : Nat} {b : Bool} (h : isFull (s.tile tile) w = b) : changeBit s tile w b = s :=
  if_pos h

theorem changeBit_of_unawaited {s : State} {tile w : Nat} {b : Bool} (h : Unawaited (s.tile tile) w)
    (changes : isFull (s.tile tile) w ≠ b) : changeBit s tile w b = s.setTile tile (setFull (s.tile tile) w b) := by
  refine (if_neg changes).trans (scan_of_unawaited ?_)
  rw [setTile_tile_same]
  exact h

/-- A word that nothing waits on is filled, and its tile is otherwise as it was. -/
theorem changeBit_fills {s : State} {tile w : Nat} (h : Unawaited (s.tile tile) w) :
    TileBecomes s tile { s.tile tile with store := { (s.tile tile).store with
      full := ((changeBit s tile w true).tile tile).store.full } } (changeBit s tile w true) ∧
    ∀ k, isFull ((changeBit s tile w true).tile tile) k = if k = w then true else isFull (s.tile tile) k := by
  by_cases full : isFull (s.tile tile) w = true
  · rw [changeBit_same full]
    refine ⟨tileBecomes_self s tile, fun k => ?_⟩
    split
    · rename_i e
      exact e ▸ full
    · rfl
  · rw [changeBit_of_unawaited h full, setTile_tile_same]
    exact ⟨tileBecomes_setTile .., contains_setInsert _ w⟩

end Sys2Proof.Machine
end

section
/-! Bytes that a delivery writes to a store, and tokens that it counts (R47, R51, R209). -/

namespace Sys2Proof.Machine

open Sys2Proof.Safety

/-- Bytes are in the tile's store from an offset, and the offset's word is full where `fills`; the tile is otherwise `y`, with
an access in each of its banks, and nothing else has changed. -/
structure BytesLand (s : State) (tile off : Nat) (bs : List Byte) (fills : Bool) (y : Tile) (u : State) : Prop where
  bytes : ∀ a, storeByte u tile a = if off ≤ a ∧ a < off + bs.length then bs[a - off]?.getD 0 else storeByte s tile a
  bits : ∀ k, isFull (u.tile tile) k = if fills = true ∧ k = off / 8 then true else isFull (s.tile tile) k
  others : TileBecomes s tile { y with store := { (s.tile tile).store with
    mem := (u.tile tile).store.mem, full := (u.tile tile).store.full, busy := takenBanks s tile off bs.length } } u

theorem nth_eq_getElem?_getD {α : Type} (l : List α) (n : Nat) (d : α) : nth l n d = l[n]?.getD d := by
  rw [nth, List.headD_eq_head?_getD, List.head?_drop]

/-- An access reaches the banks of some bytes and writes them. -/
def landBytes (s : State) (tile off : Nat) (bs : List Byte) : State :=
  (reachBanks s tile off bs.length).modTile tile (fun x => storeWrite x off bs)

variable {s : State} {tile off : Nat}

theorem tileBecomes_landBytes (bs : List Byte) :
    TileBecomes s tile { s.tile tile with store := { (s.tile tile).store with
      mem := memWrite (s.tile tile).store.mem off bs, busy := takenBanks s tile off bs.length } } (landBytes s tile off bs) := by
  have reached := tileBecomes_reachBanks s tile off bs.length
  unfold landBytes State.modTile
  rw [reached.part]
  exact tileBecomes_trans reached (tileBecomes_setTile ..)

theorem storeByte_landBytes (bs : List Byte) (a : Nat) : storeByte (landBytes s tile off bs) tile a =
    if off ≤ a ∧ a < off + bs.length then bs[a - off]?.getD 0 else storeByte s tile a := by
  unfold storeByte
  rw [(tileBecomes_landBytes bs).part, memGet_memWrite, nth_eq_getElem?_getD]

theorem bytesLand_plain (bs : List Byte) : BytesLand s tile off bs false (s.tile tile) (landBytes s tile off bs) where
  bytes := storeByte_landBytes bs
  bits k := by
    rw [(tileBecomes_landBytes bs).part]
    rfl
  others := by
    have h := tileBecomes_landBytes (s := s) (tile := tile) (off := off) bs
    rw [h.part]
    exact h

/-- The word of the offset is filled where nothing waits on it. -/
theorem bytesLand_filled (bs : List Byte) (free : Unawaited (s.tile tile) (off / 8)) :
    BytesLand s tile off bs true (s.tile tile) (changeBit (landBytes s tile off bs) tile (off / 8) true) := by
  have landed := tileBecomes_landBytes (s := s) (tile := tile) (off := off) bs
  have still : Unawaited ((landBytes s tile off bs).tile tile) (off / 8) := by
    rw [landed.part]
    exact free
  obtain ⟨filled, bits⟩ := changeBit_fills still
  have both := tileBecomes_trans landed filled
  have mem := congrArg (fun x : Tile => x.store.mem) filled.part
  refine ⟨fun a => ?_, fun k => ?_, ?_⟩
  · rw [← storeByte_landBytes]
    exact congrArg (memGet · a) mem
  · rw [bits, landed.part]
    simp [isFull]
  · rw [mem]
    rw [landed.part] at both ⊢
    exact both

/-! ### Tokens (R47, R210) -/

/-- A message, or a word sent with SENDP, is a token. -/
@[reducible] def IsToken (f : MeshFlit) : Prop := f.owner < 8 ∨ (40 ≤ f.owner ∧ f.owner < 48)

/-- A token of the flit counts into the arcs of its tag. -/
def tally (f : MeshFlit) (tile : Nat) (u : State) : State :=
  if IsToken f then arcReceives u tile f.vc (fun _ => 1) else u

/-- The tile with a token of the flit counted. -/
def counted (f : MeshFlit) (x : Tile) : Tile := { x with received := x.received + if IsToken f then 1 else 0 }

theorem countReceived_eq (u : State) (tile : Nat) (f : MeshFlit) :
    ∃ v, countReceived u tile f = tally f tile v ∧ TileBecomes u tile (counted f (u.tile tile)) v := by
  by_cases token : IsToken f
  · refine ⟨u.setTile tile (counted f (u.tile tile)), ?_, tileBecomes_setTile ..⟩
    simp only [countReceived, tally, counted, State.modTile]
    rw [if_pos token, if_pos token, if_pos token]
  · have same : counted f (u.tile tile) = u.tile tile := by simp [counted, token]
    refine ⟨u, ?_, ?_⟩
    · simp only [countReceived, tally]
      rw [if_neg token, if_neg token]
    · rw [same]
      exact tileBecomes_self u tile

theorem bytesLand_counted {bs : List Byte} {fills : Bool} {u : State} (f : MeshFlit)
    (h : BytesLand s tile off bs fills (s.tile tile) u) :
    ∃ v, countReceived u tile f = tally f tile v ∧ BytesLand s tile off bs fills (counted f (s.tile tile)) v := by
  obtain ⟨v, hv, counts⟩ := countReceived_eq u tile f
  have store : (v.tile tile).store = (u.tile tile).store := by
    rw [counts.part]
    rfl
  refine ⟨v, hv, fun a => ?_, fun k => ?_, ?_⟩
  · rw [← h.bytes]
    unfold storeByte
    rw [store]
  · rw [← h.bits]
    unfold isFull
    rw [store]
  · have both := tileBecomes_trans h.others counts
    rw [h.others.part] at both
    rw [store]
    exact both

end Sys2Proof.Machine
end

section
/-! MESSAGE_DELIVERY and REMOTE_WRITE. -/

namespace Sys2Proof.Machine

open Sys2Proof.Safety

variable {s : State} {tile : Nat} {f : MeshFlit}

/-! ### MESSAGE_DELIVERY (R97, R208) -/

/-- The thread is parked by QWAIT on a queue. -/
def parkedOnQueue (q : Bool) (h : Thread) : Bool :=
  match h.st with
  | .parked (.queue n _) => (n == 1) == q
  | _ => false

theorem wakeQueue_eq (u : State) (tile : Nat) (q : Bool) : wakeQueue u tile q = { u with
    agenda := u.agenda ++ ((List.range 8).filter (fun n => parkedOnQueue q (u.thread tile n))).map
      (fun n => .event (.threadWake tile n)) } := by
  have fold (l : List Nat) (v : State) :
      l.foldl (fun v n => if parkedOnQueue q (v.thread tile n) then v.event (.threadWake tile n) else v) v = { v with
        agenda := v.agenda ++ (l.filter (fun n => parkedOnQueue q (v.thread tile n))).map
          (fun n => .event (.threadWake tile n)) } := by
    induction l generalizing v with
    | nil => simp
    | cons n l ih =>
      rw [List.foldl_cons, ih]
      by_cases parked : parkedOnQueue q (v.thread tile n) = true
      · rw [if_pos parked, List.filter_cons, if_pos parked, List.map_cons, event_agenda, List.append_assoc]
        rfl
      · rw [if_neg parked, List.filter_cons, if_neg parked]
  refine Eq.trans ?_ (fold _ u)
  unfold wakeQueue
  congr 1
  funext v n
  unfold parkedOnQueue
  cases (v.thread tile n).st with
  | parked reason => cases reason <;> simp
  | _ => rfl

/-- The queue has room for a message: fewer than 32 entries, and no message is held for it (R208). -/
def HasRoom (x : Tile) (q : Bool) : Prop := (recvQueue x q).length < 32 ∧ ∀ g ∈ x.core.heldMsgs, messageFor q g = false

theorem hasRoom_iff {x : Tile} {q : Bool} :
    HasRoom x q ↔ (recvQueue x q).length < 32 ∧ (!x.core.heldMsgs.any (messageFor q)) = true := by
  simp [HasRoom]

variable {q : Bool} {v : Word}

theorem exec_messageDelivery_behind (body : f.body = .message q v) (behind : Behind s tile f) :
    exec (.messageDelivery tile f) s = .next (s.after 1 (.messageDelivery tile f)) := by
  show execMessageDelivery tile f s = _
  simp [execMessageDelivery, body, (waitsBehind_iff s tile f).mpr behind]

theorem waitsBehind_of_not (first : ¬ Behind s tile f) : waitsBehind s tile f = false :=
  Bool.eq_false_iff.mpr (mt (waitsBehind_iff s tile f).mp first)

theorem exec_messageDelivery_room (body : f.body = .message q v) (first : ¬ Behind s tile f) (room : HasRoom (s.tile tile) q) :
    exec (.messageDelivery tile f) s = .next (enqueueMessage s tile q v f.vc f.src f.owner) := by
  show execMessageDelivery tile f s = _
  simp only [execMessageDelivery, body, waitsBehind_of_not first, Bool.false_eq_true, if_false]
  exact if_pos (hasRoom_iff.mp room)

theorem exec_messageDelivery_held (body : f.body = .message q v) (first : ¬ Behind s tile f) (full : ¬ HasRoom (s.tile tile) q) :
    exec (.messageDelivery tile f) s = .next (s.setTile tile { s.tile tile with
      core := { (s.tile tile).core with heldMsgs := (s.tile tile).core.heldMsgs ++ [f] } }) := by
  show execMessageDelivery tile f s = _
  simp only [execMessageDelivery, body, waitsBehind_of_not first, Bool.false_eq_true, if_false]
  exact if_neg (mt hasRoom_iff.mpr full)

/-! ### REMOTE_WRITE (R77, R209) -/

/-- The waiter entry that KIND 2 takes at a full word. -/
def remoteEntry (f : MeshFlit) (off : Nat) (v : Word) : Waiter := ⟨off / 8, .remote v f.vc f.src f.owner⟩

section bytes

variable {off : Nat} {bs : List Byte} {full : Bool}

theorem exec_remoteWrite_bytes_behind (body : f.body = .bytes off bs full) (behind : Behind s tile f) :
    exec (.remoteWrite tile f) s = .next (s.after 1 (.remoteWrite tile f)) := by
  show execRemoteWrite tile f s = _
  simp [execRemoteWrite, body, (waitsBehind_iff s tile f).mpr behind]

theorem exec_remoteWrite_bytes_gated {b : Nat} (body : f.body = .bytes off bs full) (first : ¬ Behind s tile f)
    (gated : heldIn (s.tile tile) off bs.length = some b) :
    exec (.remoteWrite tile f) s = .next ((wakeBank s tile b).after 1 (.remoteWrite tile f)) := by
  show execRemoteWrite tile f s = _
  simp [execRemoteWrite, body, waitsBehind_of_not first, gated]

theorem exec_remoteWrite_bytes (body : f.body = .bytes off bs full) (first : ¬ Behind s tile f)
    (powered : heldIn (s.tile tile) off bs.length = none) :
    exec (.remoteWrite tile f) s = .next (
      let u := landBytes s tile off bs
      let u := if f.owner = 255 then arcReceives u tile f.vc (tokensIn off bs.length) else u
      ownerDone (if full then changeBit u tile (off / 8) true else u) f.src f.owner) := by
  show execRemoteWrite tile f s = _
  simp [execRemoteWrite, body, waitsBehind_of_not first, powered, landBytes]

end bytes

section word

variable {off : Nat} {kind : BitVec 2}

theorem exec_remoteWrite_word_behind (body : f.body = .write off v kind) (behind : Behind s tile f) :
    exec (.remoteWrite tile f) s = .next (s.after 1 (.remoteWrite tile f)) := by
  show execRemoteWrite tile f s = _
  simp [execRemoteWrite, body, (waitsBehind_iff s tile f).mpr behind]

theorem exec_remoteWrite_word_gated (body : f.body = .write off v kind) (first : ¬ Behind s tile f)
    (gated : bankHeld (s.tile tile) (bankOf off) = true) :
    exec (.remoteWrite tile f) s = .next ((wakeBank s tile (bankOf off)).after 1 (.remoteWrite tile f)) := by
  show execRemoteWrite tile f s = _
  simp [execRemoteWrite, body, waitsBehind_of_not first, gated]

variable (body : f.body = .write off v kind) (first : ¬ Behind s tile f) (powered : bankHeld (s.tile tile) (bankOf off) = false)

include body first powered

/-- KIND 0: a plain write. -/
theorem exec_remoteWrite_plain (plain : kind = 0) :
    exec (.remoteWrite tile f) s = .next (ownerDone (countReceived (landBytes s tile off (natBytes 8 v.toNat)) tile f) f.src f.owner) := by
  show execRemoteWrite tile f s = _
  simp [execRemoteWrite, body, waitsBehind_of_not first, powered, plain]
  rfl

/-- KIND 1, and KIND 2 at an empty word: the word is written and filled. -/
theorem exec_remoteWrite_fills (aligned : off % 8 = 0) (fills : kind = 1 ∨ kind = 2 ∧ isFull (s.tile tile) (off / 8) = false) :
    exec (.remoteWrite tile f) s = .next (ownerDone (countReceived
      (changeBit (landBytes s tile off (natBytes 8 v.toNat)) tile (off / 8) true) tile f) f.src f.owner) := by
  have start : 8 * (off / 8) = off := by omega
  have stored : performStf (reachBanks s tile off 8) tile (off / 8) v =
      changeBit (landBytes s tile off (natBytes 8 v.toNat)) tile (off / 8) true := by
    unfold performStf
    rw [start]
    rfl
  rw [← stored]
  show execRemoteWrite tile f s = _
  rcases fills with one | ⟨two, empty⟩
  · simp [execRemoteWrite, body, waitsBehind_of_not first, powered, one]
  · rw [← isFull_reachBanks s tile off 8] at empty
    simp [execRemoteWrite, body, waitsBehind_of_not first, powered, two, empty]

/-- KIND 2 at a full word takes a waiter entry of its bank, of which deliveries may hold 8 (R77). -/
theorem exec_remoteWrite_entry (two : kind = 2) (full : isFull (s.tile tile) (off / 8) = true)
    (room : remoteEntries (s.tile tile) (off / 8 % 32) < 8) :
    exec (.remoteWrite tile f) s = .next (countReceived ((reachBanks s tile off 8).modTile tile (fun x =>
      { x with store := { x.store with waiters := x.store.waiters ++ [remoteEntry f off v] } })) tile f) := by
  rw [← isFull_reachBanks s tile off 8] at full
  rw [← remoteEntries_reachBanks s tile off 8] at room
  show execRemoteWrite tile f s = _
  simp [execRemoteWrite, body, waitsBehind_of_not first, powered, two, full, room]
  rfl

/-- KIND 2 at a full word is held where deliveries hold 8 entries of its bank (R77). -/
theorem exec_remoteWrite_held (two : kind = 2) (full : isFull (s.tile tile) (off / 8) = true)
    (taken : 8 ≤ remoteEntries (s.tile tile) (off / 8 % 32)) :
    exec (.remoteWrite tile f) s = .next ((reachBanks s tile off 8).modTile tile (fun x =>
      { x with store := { x.store with held := x.store.held ++ [remoteEntry f off v] } })) := by
  rw [← isFull_reachBanks s tile off 8] at full
  rw [← remoteEntries_reachBanks s tile off 8] at taken
  show execRemoteWrite tile f s = _
  simp [execRemoteWrite, body, waitsBehind_of_not first, powered, two, full, Nat.not_lt.mpr taken]
  rfl

end word

end Sys2Proof.Machine
end

section
/-! Deliveries of messages and remote writes, and who waits for them. -/

namespace Sys2Proof.Machine

open Sys2Proof.Safety

/-- Settles O44: a delivery waits, is held or takes its effect, by what stands before it and by its bank; who waits for it is
told by its owner number. -/
theorem remoteDeliveries : Obligations.RemoteDeliveries := by
  refine ⟨fun u tile o => ?owners, fun tile f s => ?deliveries⟩
  case owners =>
    intro x h
    refine ⟨ownerDone_thread u tile, ownerDone_strip u tile, fun above below => ?stream, fun o24 => ?copy,
      ownerDone_nobody u tile, arcReceives_unplaced u⟩
    case stream =>
      exact ⟨fun more => (ownerDone_stream u tile above below).trans (if_neg more),
        fun last => (ownerDone_stream u tile above below).trans (if_pos last)⟩
    case copy =>
      subst o24
      exact ⟨ownerDone_no_copy u tile, fun c r copies => ⟨fun last => (ownerDone_copy u tile copies).trans (if_pos last),
        fun more => (ownerDone_copy u tile copies).trans (if_neg more)⟩⟩
  case deliveries =>
    intro x under behind isToken tally counted runs
    refine ⟨fun q v body => ?message, fun off v kind body => ?word, fun off bs full body => ?bytes⟩
    case message =>
      intro l room u
      refine ⟨fun waits => completes_same (exec_messageDelivery_behind body waits),
        fun first space => ⟨_, exec_messageDelivery_room body first space, ?taken⟩,
        fun first full => ⟨_, exec_messageDelivery_held body first full, tileBecomes_setTile ..⟩⟩
      case taken =>
        unfold enqueueMessage
        rw [wakeQueue_eq]
        exact ⟨rfl, rfl⟩
    case word =>
      intro w empty noWaiter taken writes entry
      have lands {fills : Bool} {u : State} (landed : BytesLand s tile off (natBytes 8 v.toNat) fills x u)
          (e : exec (.remoteWrite tile f) s = .next (ownerDone (countReceived u tile f) f.src f.owner)) : writes fills := by
        obtain ⟨t, ht, counts⟩ := bytesLand_counted f landed
        refine ⟨_, e, t, congrArg (ownerDone · f.src f.owner) ht, fun a => ?_, counts.bits, counts.others⟩
        rw [counts.bytes, natBytes_length]
        split
        · rw [← nth_eq_getElem?_getD, nth_natBytes _ _ _ (by omega)]
        · rfl
      refine ⟨fun waits => completes_same (exec_remoteWrite_word_behind body waits), fun first =>
        ⟨fun gated => completes_same (exec_remoteWrite_word_gated body first gated), fun powered =>
        ⟨fun plain => lands (bytesLand_plain _) (exec_remoteWrite_plain body first powered plain), fun aligned free =>
        ⟨fun one => lands (bytesLand_filled _ free) (exec_remoteWrite_fills body first powered aligned (.inl one)),
          fun two unset => lands (bytesLand_filled _ free) (exec_remoteWrite_fills body first powered aligned (.inr ⟨two, unset⟩))⟩,
        fun two filled => ?_⟩⟩⟩
      have full : isFull x w = true := by simpa [empty] using filled
      have reached := tileBecomes_reachBanks s tile off 8
      refine ⟨fun room => ?_, fun crowded => ⟨_, exec_remoteWrite_held body first powered two full crowded, ?_⟩⟩
      · obtain ⟨t, ht, counts⟩ := countReceived_eq ((reachBanks s tile off 8).modTile tile (fun x =>
          { x with store := { x.store with waiters := x.store.waiters ++ [remoteEntry f off v] } })) tile f
        refine ⟨_, exec_remoteWrite_entry body first powered two full room, t, ht, ?_⟩
        unfold State.modTile at counts
        rw [setTile_tile_same, reached.part] at counts
        exact tileBecomes_trans reached (tileBecomes_trans (tileBecomes_setTile ..) counts)
      · unfold State.modTile
        rw [reached.part]
        exact tileBecomes_trans reached (tileBecomes_setTile ..)
    case bytes =>
      intro taken written
      refine ⟨fun waits => completes_same (exec_remoteWrite_bytes_behind body waits), fun first =>
        ⟨fun b gated => completes_same (exec_remoteWrite_bytes_gated body first gated), fun powered =>
        ⟨fun other fills waiters matrix => ?_, fun plain => ?_⟩⟩⟩
      · have landed := bytesLand_filled (s := s) (tile := tile) (off := off) bs ⟨waiters, matrix⟩
        refine ⟨_, exec_remoteWrite_bytes body first powered, _, ?_, landed.bytes, landed.bits, landed.others⟩
        simp [other, fills]
      · have landed := bytesLand_plain (s := s) (tile := tile) (off := off) bs
        refine ⟨_, exec_remoteWrite_bytes body first powered, _, ⟨landed.bytes, landed.bits, landed.others⟩, ?_⟩
        simp [plain]

end Sys2Proof.Machine
end
